-- ==== Sys2Proof/Word.lean ====
section
/-!
DEFINITION. The word types of the Abatos 9200: bytes, halfwords, words and doublewords (spec/00_scope.md R7),
the register values of a core slot and a tile (spec/07_isa_encoding.md R241), and the numbers that name
cores, slots, tiles, domains and slices (spec/00_scope.md R4).
-/
namespace Sys2Proof

/-- A byte of memory. -/
abbrev Byte := BitVec 8
/-- The contents of a `g` or `p` register, 64 bits (R241). -/
abbrev Word := BitVec 64
/-- The contents of a vector register: 2,048 bits, of which a core slot uses the low 512 (R241). -/
abbrev VWord := BitVec 2048

/-- A core of the package, 0 to 1,023 (R4). -/
abbrev CoreId := Fin 1024
/-- A thread slot of a core, numbered core × 4 + slot. -/
abbrev SlotId := Fin 4096
/-- A tile of the package, 0 to 127 (R4). -/
abbrev TileId := Fin 128

end Sys2Proof
end

