-- ==== Sys2Proof/Syntax.lean ====
section
/-!
DEFINITION. The instructions and events of the Abatos 9200: one constructor of `Instr` for each row of
spec/opcode_table.json. The 235 encoded instructions carry the fields of spec/07_isa_encoding.md R249 to R251;
the 111 events carry the unit they happen to and the data that arrives with them.
-/
namespace Sys2Proof

/-- The number of a `g` register, 0 to 31. -/
abbrev Reg := BitVec 5
/-- The number of a `p` register, 0 to 7. -/
abbrev PReg := BitVec 3
/-- The number of a `v` register, 0 to 31. -/
abbrev VReg := BitVec 5

/-- A vector operand: a `v` register, or a q name where its Q bit is 1 (R249, R250). -/
structure VOp where
  q : BitVec 1
  n : BitVec 5
deriving DecidableEq, Repr

/-- The G field (R248): a predicate guard `(p0)` to `(p7)` or a stage guard `(s0)` to `(s7)`. -/
inductive Guard where
  | pred (k : BitVec 3)
  | stage (n : BitVec 3)
deriving DecidableEq, Repr

/-- Condition codes (R251). -/
inductive Cc where
  | eq | ne | lt | ge | gt | le | lo | hs | hi | ls
deriving DecidableEq, Repr

/-- Element types of compares, reductions and scans: the T field (R251). -/
inductive VType where
  | f32 | f16 | bf16 | i32 | i64 | n32 | n64
deriving DecidableEq, Repr

/-- Rounding modes: the RND field (R251, spec/03_number_formats.md R118). -/
inductive Rnd where
  | rne | rtz | rdn | rup | ef
deriving DecidableEq, Repr

/-- Scopes (R251, spec/05_consistency.md R168). -/
inductive Scope where
  | core | pkg | dom | sys
deriving DecidableEq, Repr

/-- The order of an atomic (R251). -/
inductive Order where
  | none | acq | rel | ar
deriving DecidableEq, Repr

/-- Element sizes of indexed and broadcast loads (R251). -/
inductive Esz where
  | i8 | i16 | i32 | i64
deriving DecidableEq, Repr

/-- Block formats (R251, R108). -/
inductive Blk where
  | mx32e4m3 | mx32e5m2 | mx32e2m1 | mx32i8 | mx64e4m3 | mx64e5m2 | mx64i8 | mx64e2m1
deriving DecidableEq, Repr

/-- TO codes of major 0x2F (R251). -/
inductive NarrowFp where
  | f16 | bf16 | e4m3 | e5m2
deriving DecidableEq, Repr

/-- TO codes of major 0x30 (R251). -/
inductive NarrowInt where
  | e2m1 | i8 | i16 | i32
deriving DecidableEq, Repr

/-- FROM codes of CW (R251). -/
inductive WidenFrom where
  | f16 | bf16 | e4m3 | e5m2 | e2m1 | i8 | i16 | i32
deriving DecidableEq, Repr

/-- Who issues an instruction: a core thread slot or a tile sequencer. -/
inductive Agent where
  | slot (i : SlotId)
  | tile (t : TileId)
deriving DecidableEq, Repr

/-- What a fault reports (spec/12_faults_and_recovery.md R402 to R405): cause, syndrome, walk level, access kind,
the n of a trap, the faulting address, and whether it is imprecise or taken at a boundary. -/
structure FaultInfo where
  cause : Nat
  synd : Nat := 0
  lvl : Nat := 0
  kind : Nat := 0
  num : Nat := 0
  faddr : Nat := 0
  imp : Bool := false
  asy : Bool := false
deriving DecidableEq, Repr


/-- A task record (spec/06_execution_and_scheduling.md R205): its program fields and LINK. -/
structure TaskRec where
  ts : BitVec 32
  dom : BitVec 4
  lc : Bool
  pc : BitVec 18
  tid : BitVec 16
  budget : BitVec 32
  args : Vector Word 4
  lnk : Bool
  cser : BitVec 32
  ccore : BitVec 10
deriving DecidableEq, Repr

/-- The payload of a flit (spec/13_links_and_host.md R436). -/
inductive FlitBody where
  | idle
  /-- Collective data: tag, element position, and up to 104 bytes. -/
  | data (tag pos : Nat) (bytes : List Byte)
  /-- Superstep, vote, and the arrivals counted. -/
  | arrive (s vote n : Nat)
  | release (s vote trel : Nat)
  | hold (s o : Nat)
  | go (s o tgo : Nat)
  /-- t1, t2 and t3; a request of a child carries t1 alone. -/
  | time (t1 : Nat) (t2 t3 : Option Nat)
  | retry (seq : Nat)
  /-- Its kind, and for a lost link the direction of the link at the sender. -/
  | alarm (kind dir : Nat)
  /-- A domain record of R443: its entry; or the readiness of a member for a superstep, with the domain time at which it was
  reported (R413, R443). -/
  | record (ent : Vector Word 4)
  | ready (s t : Nat)
  /-- A transaction-barrier update: global address, bytes, arrivals, error flag. -/
  | update (pa bytes arr : Nat) (err : Bool)
  | reserved (typ : Nat)
deriving DecidableEq, Repr

/-- A flit (spec/13_links_and_host.md R435): DOMN, SEQ, DST, SRC, SLOT, ACKSEQ where ACKV is 1, and its payload. -/
structure Flit where
  domn : Nat
  seq : Nat
  dst : Nat
  src : Nat
  slot : Nat
  ack : Option Nat
  body : FlitBody
deriving DecidableEq, Repr

/-- A packet of a remote copy (spec/13_links_and_host.md R451; spec/04_copy_and_sync.md R137, R147): the sending rank, its
PDC, its PSN, the first PSN of the PDC and of the copy, the number of this packet and the packets of the copy, the context, the
destination address, the sync word and the barrier, the payload, whether it carries a mark, whether it tells that the copy ended
in an error, and the interrupt fields of its copy (R149, R152). -/
structure RPacket where
  src : Nat
  pdc : Nat
  rod : Bool
  psn : Nat
  base : Nat
  psn0 : Nat
  k : Nat
  n : Nat
  ctx : Nat
  dst : Nat
  sync : Option (Nat × Nat)
  rbar : Nat
  data : List Byte
  marked : Bool
  err : Bool
  ui : Option (Nat × Nat × Nat)
deriving DecidableEq, Repr

/-- What an invalidation covers (spec/01_addresses_and_translation.md R35, R301): a range of one ASID with the G = 1
entries, one ASID, one ASID and every G = 1 entry, or all contexts. -/
inductive InvScope where
  | range (base len : Nat)
  | asid
  | all
  | contexts
deriving DecidableEq, Repr

/-- Who waits for the answer to a sync-word update: a piece of a copy, or the slot that sent it. -/
inductive Reply where
  | copy (id at_ : Nat)
  | slot (i : SlotId)
deriving DecidableEq, Repr

/-- An event that is due, with what it happens to: one constructor for each row of spec/opcode_table.json that has no
encoding. -/
inductive Event where
  /-- R275. -/
  | tyieldTimeout (i : SlotId)
  /-- R297. -/
  | idleTimeout (i : SlotId)
  /-- R400. -/
  | armedIssue (t : TileId)
  /-- R465. -/
  | packageReset
  /-- R466. -/
  | recoveryImageLoad (image : List Byte)
  /-- R466. -/
  | svnRaise
  /-- R467. -/
  | spdmRequest (req : List Byte)
  /-- R457. Word `k` of the descriptor of queue `q`. -/
  | queueDescriptorWrite (q k : Nat) (x : Word)
  /-- R458. -/
  | notify (q : Nat)
  /-- R223. Packet `k` of queue `q`. -/
  | launch (q k : Nat)
  /-- R223. -/
  | launchClaim (lid : Nat)
  /-- R459. Packet `k` of queue `q`. -/
  | poolLaunch (q k : Nat)
  /-- R459. Packet `k` of queue `q`. -/
  | poolWrite (q k : Nat)
  /-- R459. Packet `k` of queue `q`. -/
  | fence (q k : Nat)
  /-- R463. Packet `k` of queue `q`. -/
  | faultAnswer (q k : Nat)
  /-- R415. Packet `k` of queue `q`. -/
  | suspend (q k : Nat)
  /-- R415. Packet `k` of queue `q`. -/
  | resume (q k : Nat)
  /-- R20. -/
  | registerWrite (pa : Nat) (x : Word)
  /-- R48. -/
  | clmapWrite (n : Nat) (x : BitVec 32)
  /-- R443. -/
  | domainStart (d : Nat)
  /-- R225. -/
  | launchEnd (lid : Nat)
  /-- R430. -/
  | launchFaultEnd (lid : Nat) (who : Agent) (f : FaultInfo)
  /-- R207. -/
  | taskStart (i : SlotId)
  /-- R214. The deque controller of `victim` serves its oldest request. -/
  | stealRequest (victim : CoreId)
  /-- R214. A reply to `thief`: a record, or none for an empty, busy or refused one. -/
  | stealReply (thief : CoreId) (r : Option TaskRec)
  /-- R216. A record sent by the slot `src` arrives at core `c`. -/
  | spawnArrival (c : CoreId) (src : SlotId) (r : TaskRec)
  /-- R180. -/
  | commit (i : SlotId)
  /-- R178. -/
  | commitFrontMessage (c : CoreId) (d v : Nat)
  /-- R189. -/
  | starvedFrontTimeout (lid d : Nat)
  /-- R220. -/
  | budgetOverrun (i : SlotId)
  /-- R412. -/
  | preemptionRequest (i : SlotId)
  /-- R152. -/
  | userInterruptEntry (i : SlotId)
  /-- R416. -/
  | checkerPass (i : SlotId)
  /-- R417. -/
  | checkerMismatch (i : SlotId)
  /-- R417. -/
  | checkerRetry (i : SlotId)
  /-- R141. Piece `p` of `State.pieces` reaches its agent, or is tried again there. -/
  | copyPiece (p : Nat)
  /-- R141. The next run of piece `p` reaches its destination place, or is tried again there. -/
  | piecePush (p : Nat)
  /-- R149. An update reaches the sync word at `pa`; `ui` is the slot, XID and UIH of R152, `ack` who waits for it. -/
  | syncUpdate (pa bytes arr : Nat) (err : Bool) (ui : Option (Nat × Nat × Nat)) (ack : Option Reply)
  /-- R151. -/
  | armEntryPush (c : CoreId)
  /-- R143. -/
  | updateAcknowledgment (id at_ : Nat)
  /-- R144. -/
  | copyCompletion (id : Nat)
  /-- R74. -/
  | sliceRequest (id : Nat)
  /-- R78. -/
  | requestRetry (id : Nat)
  /-- R494. -/
  | l2Fill (line : Nat)
  /-- R155. `src` is the slot whose `xbar.arr` sent it, and `va` the address that it named. -/
  | transactionBarrierUpdate (pa bytes arr : Nat) (err : Bool) (src : Option (SlotId × Nat))
  /-- R325. -/
  | swaitPoll (i : SlotId)
  /-- R326. -/
  | twaitRetry (i : SlotId)
  /-- R62. Request `id` reaches the bank of another core. -/
  | remotePaletteAccess (id : Nat)
  /-- R419. Granule `g` of memory, or of the accumulator bank of a tile. -/
  | eccUncorrectable (acc : Option TileId) (g : Nat)
  /-- R36. The request that an instruction made as number `id`, or one that a command processor makes for the host. -/
  | invalidationRequest (id : Nat) (host : Option (BitVec 16 × InvScope))
  /-- R36. -/
  | invalidationDrainEnd (id : Nat)
  /-- R36. -/
  | invalidationAcknowledge (id : Nat)
  /-- R26. The lookup of the die TLB (`read` = 0), or the last level of a walk that its miss began. -/
  | pageWalk (ag : Agent) (va kind read : Nat)
  /-- R42. -/
  | walkRetry (ag : Agent) (va kind : Nat)
  /-- R43. -/
  | birsp (line k : Nat)
  /-- R44. -/
  | bisnp (line : Nat)
  /-- R45. -/
  | hostSnoop (line : Nat)
  /-- R201. -/
  | cxlMemWrite (pa : Nat) (data : List Byte)
  /-- R428. -/
  | meshRouterFailure (router : Nat)
  /-- R429. -/
  | meshReroute (router : Nat)
  /-- R99. -/
  | hbmTimedSlot (pch : Nat)
  /-- R100. -/
  | hbmDynamicSlot (pch : Nat)
  /-- R99. Pending line `k` of tile `t`. -/
  | tstreamLineArrival (t : TileId) (k : Nat)
  /-- R69. -/
  | landingBufferWrite (t : TileId) (k : Nat)
  /-- R70. -/
  | windowPortServe (id : Nat)
  /-- R87. The slot of an entry of the slot table leaves its source. -/
  | ringSlotDeparture (die : Nat) (entry : Word)
  /-- R384. A read slot with these pending lines reaches the station of tile `t`. -/
  | ringSlotArrival (t : TileId) (ks : List Nat)
  /-- R495. -/
  | timedWriteAccept (t : TileId) (pa : Nat) (data : VWord) (mk : BitVec 4)
  /-- R393. -/
  | xsendWord (t : TileId)
  /-- R394. -/
  | exchangeReceive (t : TileId)
  /-- R230. -/
  | barrierRelease (d : Nat)
  /-- R76. -/
  | promotion (d : Nat)
  /-- R232. -/
  | windowOpen (d wid : Nat)
  /-- R234. -/
  | windowClose (d wid : Nat)
  /-- R234. -/
  | windowPostArrival (i : SlotId) (rd : Option Reg) (d wid : Nat) (post : Vector Word 8)
  /-- R234. -/
  | windowTimeout (d wid : Nat)
  /-- R375. The `tgang` of tile `t`. -/
  | gangQueueEntry (t : TileId) (mask : Nat) (tpl : BitVec 256)
  /-- R370. -/
  | matrixOpComplete (t : TileId)
  /-- R378. A line of a drain of tile `t`. -/
  | drainDelivery (t : TileId) (seq line : Nat)
  /-- R398. -/
  | collectiveComplete (d k : Nat)
  /-- R427. -/
  | collectiveMemberLost (d : Nat)
  /-- R411. -/
  | tileFaultHandling (t : TileId) (f : FaultInfo)
  /-- R422. -/
  | rollback (d : Nat)
  /-- R434. -/
  | linkSlot
  /-- R436. Flit `f` on port `p`; `ok`: its CRC holds. -/
  | idleFlit (p : Nat) (f : Flit) (ok : Bool)
  /-- R436. Flit `f` on port `p`; `ok`: its CRC holds. -/
  | data (p : Nat) (f : Flit) (ok : Bool)
  /-- R444. Flit `f` on port `p`; `ok`: its CRC holds. -/
  | arrive (p : Nat) (f : Flit) (ok : Bool)
  /-- R444. Flit `f` on port `p`; `ok`: its CRC holds. -/
  | release (p : Nat) (f : Flit) (ok : Bool)
  /-- R444. -/
  | crossPackageRelease (d : Nat)
  /-- R447. Flit `f` on port `p`; `ok`: its CRC holds. -/
  | hold (p : Nat) (f : Flit) (ok : Bool)
  /-- R447. Flit `f` on port `p`; `ok`: its CRC holds. -/
  | go (p : Nat) (f : Flit) (ok : Bool)
  /-- R447. -/
  | phaseClockResume (d : Nat)
  /-- R441. Flit `f` on port `p`; `ok`: its CRC holds. -/
  | time (p : Nat) (f : Flit) (ok : Bool)
  /-- R441. -/
  | timeMeasurement
  /-- R438. Flit `f` on port `p`; `ok`: its CRC holds. -/
  | retry (p : Nat) (f : Flit) (ok : Bool)
  /-- R439. Flit `f` on port `p`; `ok`: its CRC holds. -/
  | alarm (p : Nat) (f : Flit) (ok : Bool)
  /-- R443. Flit `f` on port `p`; `ok`: its CRC holds. -/
  | control (p : Nat) (f : Flit) (ok : Bool)
  /-- R155. Flit `f` on port `p`; `ok`: its CRC holds. -/
  | update (p : Nat) (f : Flit) (ok : Bool)
  /-- R436. Flit `f` on port `p`; `ok`: its CRC holds. -/
  | reservedFlit (p : Nat) (f : Flit) (ok : Bool)
  /-- R439. -/
  | portFailure (p : Nat)
  /-- R451. Packet `k` of a remote copy is formed and sent. -/
  | uetPacketTransmit (id k : Nat)
  /-- R489. -/
  | uetPacketReceive (p : RPacket)
  /-- R453. `st`: the cause and syndrome with which the destination refuses the copy. -/
  | uetAck (pdc psn : Nat) (st : Option (Nat × Nat))
  /-- R453. -/
  | uetReplayTimeout (pdc : Nat)
  /-- R453. -/
  | uetGiveUp (pdc : Nat)
  /-- R452. -/
  | laneLoss (port lane : Nat)
  /-- R469. The measure that firmware takes: 0 none, 1 to 3 issue opportunities withheld of four, 4 and 5 throttle holds. -/
  | powerLimit (n : Nat)
  /-- R43. The host reads the 64-byte line at `pa`. -/
  | cxlMemRead (pa : Nat)
  /-- R315. -/
  | responseArrival (id : Nat) (data : Word) (flags : BitVec 7)
  /-- R412. -/
  | resumption (i : SlotId)
  /-- R452. -/
  | retrainingEnd (port : Nat)
deriving DecidableEq, Repr

/-- The instructions and events: one constructor per row of spec/opcode_table.json, in its order. An event's constructor carries nothing: what it happens to stands in `State.event`. -/
inductive Instr where
  /-- R266: Writes ga + gb modulo 2^64 into gd. -/
  | add (g : Guard) (d a b : Reg)
  /-- R266: Writes ga - gb into gd. -/
  | sub (g : Guard) (d a b : Reg)
  /-- R266: Writes the low 64 bits of ga x gb into gd. -/
  | mul (g : Guard) (d a b : Reg)
  /-- R266: Writes the high half of the signed 128-bit product into gd. -/
  | mulhI (g : Guard) (d a b : Reg)
  /-- R266: Writes the high half of the unsigned 128-bit product into gd. -/
  | mulhN (g : Guard) (d a b : Reg)
  /-- R267: Signed division rounded toward zero; division by zero and overflow give the fixed results of R267 and never fault. -/
  | divI (g : Guard) (d a b : Reg)
  /-- R267: Unsigned division; division by zero gives all ones. -/
  | divN (g : Guard) (d a b : Reg)
  /-- R267: Signed remainder, with the special cases of R267. -/
  | remI (g : Guard) (d a b : Reg)
  /-- R267: Unsigned remainder; a remainder by zero gives a. -/
  | remN (g : Guard) (d a b : Reg)
  /-- R266: Writes gd + ga x gb into gd. -/
  | madd (g : Guard) (d a b : Reg)
  /-- R266: Bitwise AND of ga and gb. -/
  | and (g : Guard) (d a b : Reg)
  /-- R266: Bitwise OR of ga and gb. -/
  | or (g : Guard) (d a b : Reg)
  /-- R266: Bitwise XOR of ga and gb. -/
  | xor (g : Guard) (d a b : Reg)
  /-- R266: Shifts ga left by gb[5:0]. -/
  | shl (g : Guard) (d a b : Reg)
  /-- R266: Shifts ga right arithmetically by gb[5:0]. -/
  | shrI (g : Guard) (d a b : Reg)
  /-- R266: Shifts ga right logically by gb[5:0]. -/
  | shrN (g : Guard) (d a b : Reg)
  /-- R266: Rotates ga right by gb[5:0]. -/
  | rot (g : Guard) (d a b : Reg)
  /-- R266: Counts the leading zero bits of ga. -/
  | clz (g : Guard) (d a : Reg)
  /-- R266: Counts the trailing zero bits of ga. -/
  | ctz (g : Guard) (d a : Reg)
  /-- R266: Counts the one bits of ga. -/
  | popc (g : Guard) (d a : Reg)
  /-- R266: Signed minimum of ga and gb. -/
  | minI (g : Guard) (d a b : Reg)
  /-- R266: Signed maximum of ga and gb. -/
  | maxI (g : Guard) (d a b : Reg)
  /-- R266: Unsigned minimum of ga and gb. -/
  | minN (g : Guard) (d a b : Reg)
  /-- R266: Unsigned maximum of ga and gb. -/
  | maxN (g : Guard) (d a b : Reg)
  /-- R266: Writes 1 into gd if ga cc gb holds, else 0. -/
  | setCc (g : Guard) (cc : Cc) (d a b : Reg)
  /-- R266: Writes ga if bit 0 of pk is 1, else gb. -/
  | sel (g : Guard) (d a b : Reg) (k : PReg)
  /-- R269: Adds a sign-extended 16-bit immediate to ga. -/
  | addi (d a : Reg) (imm : BitVec 16)
  /-- R269: ANDs ga with a zero-extended immediate. -/
  | andi (d a : Reg) (imm : BitVec 16)
  /-- R269: ORs ga with a zero-extended immediate. -/
  | ori (d a : Reg) (imm : BitVec 16)
  /-- R269: XORs ga with a zero-extended immediate. -/
  | xori (d a : Reg) (imm : BitVec 16)
  /-- R269: Loads a sign-extended 21-bit immediate into gd. -/
  | li (d : Reg) (imm : BitVec 21)
  /-- R269: Replaces halfword h of gd with the immediate. -/
  | lih (d : Reg) (h : BitVec 2) (imm : BitVec 16)
  /-- R269: Writes the local-window self address of a PC-relative label into gd. -/
  | lia (d : Reg) (imm : BitVec 21)
  /-- R270: Extracts a zero-extended bit field of ga. -/
  | bfx (d a : Reg) (pos len1 : BitVec 6)
  /-- R270: Extracts a sign-extended bit field of ga. -/
  | bfxI (d a : Reg) (pos len1 : BitVec 6)
  /-- R270: Inserts the low bits of ga into a field of gd. -/
  | bfi (d a : Reg) (pos len1 : BitVec 6)
  /-- R270: Shifts ga left by an immediate amount. -/
  | shli (d a : Reg) (n : BitVec 6)
  /-- R270: Shifts ga right arithmetically by an immediate amount. -/
  | shriI (d a : Reg) (n : BitVec 6)
  /-- R270: Shifts ga right logically by an immediate amount. -/
  | shriN (d a : Reg) (n : BitVec 6)
  /-- R273: Branches to PC + 4 x OFF26. -/
  | b (off : BitVec 26)
  /-- R273: Writes the link into g31, raises CDEP and branches relative. -/
  | call (off : BitVec 26)
  /-- R273: Branches if ga compared with zero meets the condition. -/
  | bcCc (cc : Cc) (a : Reg) (off : BitVec 17)
  /-- R273: Branches if ga compared with gb meets the condition. -/
  | bcmpCc (cc : Cc) (a b : Reg) (off : BitVec 12)
  /-- R273: Calls the register target in ga, writing the link into g31. -/
  | callr (a : Reg)
  /-- R273: Returns to the target in g31, lowers CDEP and deactivates this depth's loop levels. -/
  | ret
  /-- R273: Jumps to the register target in ga. -/
  | jr (a : Reg)
  /-- R274: Returns from an inline child, ends the task, or stops the tile once its engine operations have completed. -/
  | tend
  /-- R275: Makes the slot not ready until every other ready slot has issued. -/
  | tyield
  /-- R275: Four ck after tyield, the slot is ready again. -/
  | tyieldTimeout
  /-- R276: Raises a software trap, cause 0x17, with n. -/
  | trap (n : BitVec 10)
  /-- R276: Raises a breakpoint, cause 0x18, with n. -/
  | brk (n : BitVec 10)
  /-- R276: Raises a system call, cause 0x19, with n. -/
  | sysc (n : BitVec 10)
  /-- R279: Enters a hardware loop level with an immediate count. -/
  | loop (lvl : BitVec 2) (rot : Bool) (cnt : BitVec 11) (len : BitVec 12)
  /-- R279: Enters a hardware loop level with the count in ga. -/
  | loopr (lvl : BitVec 2) (rot : Bool) (a : Reg) (len : BitVec 12)
  /-- R286: Deactivates the level and continues at its END. -/
  | lbrk (lvl : BitVec 2)
  /-- R286: Clears lanes of pk from lam and exits the level when no lane remains. -/
  | lbrkl (lvl : BitVec 2) (k : PReg)
  /-- R286: Deactivates inner levels and performs pass-end processing of the named level. -/
  | lnext (lvl : BitVec 2)
  /-- R289: Allots a run of physical q registers to the slot and returns a status. -/
  | qallot (d a : Reg)
  /-- R289: Shrinks the slot's q allotment and returns a status. -/
  | qfree (d a : Reg)
  /-- R291: Stores the loop state in a 128-byte area and deactivates every level. -/
  | lsave (a : Reg)
  /-- R291: Loads and checks a saved loop state and writes it back. -/
  | lrest (a : Reg)
  /-- R306: Loads a sign-extended byte. -/
  | ldI8 (g : Guard) (d a : Reg) (off : BitVec 9)
  /-- R306: Loads a zero-extended byte. -/
  | ldN8 (g : Guard) (d a : Reg) (off : BitVec 9)
  /-- R306: Loads a sign-extended halfword. -/
  | ldI16 (g : Guard) (d a : Reg) (off : BitVec 9)
  /-- R306: Loads a zero-extended halfword. -/
  | ldN16 (g : Guard) (d a : Reg) (off : BitVec 9)
  /-- R306: Loads a sign-extended word. -/
  | ldI32 (g : Guard) (d a : Reg) (off : BitVec 9)
  /-- R306: Loads a zero-extended word. -/
  | ldN32 (g : Guard) (d a : Reg) (off : BitVec 9)
  /-- R306: Loads a doubleword. -/
  | ldD (g : Guard) (d a : Reg) (off : BitVec 9)
  /-- R306: Stores a byte. -/
  | stB (g : Guard) (d a : Reg) (off : BitVec 9)
  /-- R306: Stores a halfword. -/
  | stH (g : Guard) (d a : Reg) (off : BitVec 9)
  /-- R306: Stores a word. -/
  | stW (g : Guard) (d a : Reg) (off : BitVec 9)
  /-- R306: Stores a doubleword; an ordered task buffers it. -/
  | stD (g : Guard) (d a : Reg) (off : BitVec 9)
  /-- R309: An 8-byte load that is an acquire at the named scope. -/
  | ldAcq (s : Scope) (d a : Reg)
  /-- R309: An 8-byte store that is a release at the named scope. -/
  | stRel (s : Scope) (a b : Reg)
  /-- R309: A release followed by an acquire at the named scope. -/
  | fenceS (s : Scope)
  /-- R310: Asks the owning slice to fill a line; it never faults and may be dropped. -/
  | pref (a : Reg)
  /-- R311: Seals a virtual range after an invalidation and returns a status. -/
  | seal (d a b : Reg)
  /-- R160: Drops the replicas and TLB entries of a sealed range, frees its entry and returns a status. -/
  | unseal (d a b : Reg)
  /-- R315: Atomically adds gb to memory and returns the old value. -/
  | amoAdd (o : Order) (s : Scope) (w : Bool) (d a b : Reg)
  /-- R315: Atomic AND, returning the old value. -/
  | amoAnd (o : Order) (s : Scope) (w : Bool) (d a b : Reg)
  /-- R315: Atomic OR, returning the old value. -/
  | amoOr (o : Order) (s : Scope) (w : Bool) (d a b : Reg)
  /-- R315: Atomic XOR, returning the old value. -/
  | amoXor (o : Order) (s : Scope) (w : Bool) (d a b : Reg)
  /-- R315: Atomic signed minimum. -/
  | amoMinI (o : Order) (s : Scope) (w : Bool) (d a b : Reg)
  /-- R315: Atomic signed maximum. -/
  | amoMaxI (o : Order) (s : Scope) (w : Bool) (d a b : Reg)
  /-- R315: Atomic unsigned minimum. -/
  | amoMinN (o : Order) (s : Scope) (w : Bool) (d a b : Reg)
  /-- R315: Atomic unsigned maximum. -/
  | amoMaxN (o : Order) (s : Scope) (w : Bool) (d a b : Reg)
  /-- R315: Atomic swap. -/
  | amoSwap (o : Order) (s : Scope) (w : Bool) (d a b : Reg)
  /-- R316: Atomic compare-and-swap against gd; a failed compare writes nothing. -/
  | amoCas (o : Order) (s : Scope) (w : Bool) (d a b : Reg)
  /-- R315: Adds a sign-extended contribution to an FX128 word modulo 2^128. -/
  | amoAddfx (o : Order) (s : Scope) (d a b : Reg)
  /-- R316: Atomic FP32 addition with .rne, returning its flags to the slot. -/
  | amoAddf (o : Order) (s : Scope) (d a b : Reg)
  /-- R319: Starts a child on a free slot of a named logical core, or runs it inline. -/
  | spawn (d a b : Reg)
  /-- R320: Places a checked task record at the head of the creator's deque, or runs it inline. -/
  | push (d a : Reg)
  /-- R321: Pushes a record with the timestamp and domain given in gb. -/
  | pushts (d a b : Reg)
  /-- R326: Waits on a transaction barrier for a generation. -/
  | twait (a b : Reg)
  /-- R186: Commits a speculative task and makes it irrevocable. -/
  | commitIrr
  /-- R327: Arms a copied task record on a sync word and generation, or pushes it at once. -/
  | sarm (d a b : Reg)
  /-- R325: Waits until a sync word releases a generation. -/
  | swait (a b : Reg)
  /-- R323: Sends one update to a sync word as a release. -/
  | sadd (s : Scope) (a b : Reg)
  /-- R324: Sends an update to a transaction barrier as a release. -/
  | xbarArr (s : Scope) (a b : Reg)
  /-- R328: Counts one core arrival at the oldest open barrier of a domain. -/
  | barArr (a : Reg)
  /-- R329: Waits for the release of the recorded barrier of a domain. -/
  | barWait (a : Reg)
  /-- R330: Replaces a permitted word of a pool launch record and returns a status. -/
  | lpatch (d a b : Reg)
  /-- R330: Submits a pool launch record and returns a status. -/
  | larm (d a : Reg)
  /-- R331: Posts a record to a window controller and returns its answer. -/
  | wpost (d a : Reg)
  /-- R332: Returns a sample of a window's state. -/
  | wquery (d a : Reg)
  /-- R333: Issues a linear copy from a parameter block. -/
  | cpLin (a : Reg)
  /-- R333: Issues a box copy. -/
  | cpBox (a : Reg)
  /-- R333: Issues a gather copy. -/
  | cpGather (a : Reg)
  /-- R333: Issues a scatter copy. -/
  | cpScatter (a : Reg)
  /-- R333: Issues a copy to another package over Ultra Ethernet. -/
  | cpRemote (a : Reg)
  /-- R334: Stops sending the pieces of a named copy of the core. -/
  | cpCancel (a : Reg)
  /-- R295: Reads a control register into gd. -/
  | krd (d : Reg) (n : BitVec 10)
  /-- R295: Writes a control register from ga. -/
  | kwr (a : Reg) (n : BitVec 10)
  /-- R296: Returns from a trap or user-interrupt handler. -/
  | eret
  /-- R297: Waits for an interrupt, a local phase end, a pre-emption request or 4,096 ck. -/
  | idle
  /-- R297: After 4,096 ck of idle, the slot continues. -/
  | idleTimeout
  /-- R300: Loads an overlay table entry into the code region. -/
  | ovl (a b : Reg)
  /-- R301: Requests an invalidation of a virtual range of the launch's ASID. -/
  | tlbiVa (a b : Reg)
  /-- R301: Requests an invalidation of the launch's ASID. -/
  | tlbiAsid (a : Reg)
  /-- R301: Requests an invalidation of the ASID and every global entry. -/
  | tlbiAll
  /-- R340: FP32 vector addition. -/
  | vaddF32 (g : Guard) (u : Bool) (d a b : VOp)
  /-- R340: FP32 vector subtraction. -/
  | vsubF32 (g : Guard) (u : Bool) (d a b : VOp)
  /-- R340: FP32 vector multiplication. -/
  | vmulF32 (g : Guard) (u : Bool) (d a b : VOp)
  /-- R341: FP32 vector minimum. -/
  | vminF32 (g : Guard) (u : Bool) (d a b : VOp)
  /-- R341: FP32 vector maximum. -/
  | vmaxF32 (g : Guard) (u : Bool) (d a b : VOp)
  /-- R340: FP32 vector division. -/
  | vdivF32 (g : Guard) (u : Bool) (d a b : VOp)
  /-- R340: FP32 fused a x b + d. -/
  | vfmaF32 (g : Guard) (u : Bool) (d a b : VOp)
  /-- R340: FP32 fused a x b - d. -/
  | vfmsF32 (g : Guard) (u : Bool) (d a b : VOp)
  /-- R340: FP32 fused d - a x b. -/
  | vfnmaF32 (g : Guard) (u : Bool) (d a b : VOp)
  /-- R341: FP32 absolute value. -/
  | vabsF32 (g : Guard) (u : Bool) (d a : VOp)
  /-- R341: FP32 negation. -/
  | vnegF32 (g : Guard) (u : Bool) (d a : VOp)
  /-- R340: FP32 square root. -/
  | vsqrtF32 (g : Guard) (u : Bool) (d a : VOp)
  /-- R340: FP32 reciprocal square root. -/
  | vrsqrtF32 (g : Guard) (u : Bool) (d a : VOp)
  /-- R340: FP32 base-2 exponential. -/
  | vexp2F32 (g : Guard) (u : Bool) (d a : VOp)
  /-- R340: FP32 base-2 logarithm. -/
  | vlog2F32 (g : Guard) (u : Bool) (d a : VOp)
  /-- R340: FP16 vector addition. -/
  | vaddF16 (g : Guard) (u : Bool) (d a b : VOp)
  /-- R340: FP16 vector subtraction. -/
  | vsubF16 (g : Guard) (u : Bool) (d a b : VOp)
  /-- R340: FP16 vector multiplication. -/
  | vmulF16 (g : Guard) (u : Bool) (d a b : VOp)
  /-- R341: FP16 vector minimum. -/
  | vminF16 (g : Guard) (u : Bool) (d a b : VOp)
  /-- R341: FP16 vector maximum. -/
  | vmaxF16 (g : Guard) (u : Bool) (d a b : VOp)
  /-- R340: FP16 vector division. -/
  | vdivF16 (g : Guard) (u : Bool) (d a b : VOp)
  /-- R340: FP16 fused a x b + d. -/
  | vfmaF16 (g : Guard) (u : Bool) (d a b : VOp)
  /-- R340: FP16 fused a x b - d. -/
  | vfmsF16 (g : Guard) (u : Bool) (d a b : VOp)
  /-- R340: FP16 fused d - a x b. -/
  | vfnmaF16 (g : Guard) (u : Bool) (d a b : VOp)
  /-- R341: FP16 absolute value. -/
  | vabsF16 (g : Guard) (u : Bool) (d a : VOp)
  /-- R341: FP16 negation. -/
  | vnegF16 (g : Guard) (u : Bool) (d a : VOp)
  /-- R340: FP16 square root. -/
  | vsqrtF16 (g : Guard) (u : Bool) (d a : VOp)
  /-- R340: FP16 reciprocal square root. -/
  | vrsqrtF16 (g : Guard) (u : Bool) (d a : VOp)
  /-- R340: FP16 base-2 exponential. -/
  | vexp2F16 (g : Guard) (u : Bool) (d a : VOp)
  /-- R340: FP16 base-2 logarithm. -/
  | vlog2F16 (g : Guard) (u : Bool) (d a : VOp)
  /-- R340: BF16 vector addition. -/
  | vaddBf16 (g : Guard) (u : Bool) (d a b : VOp)
  /-- R340: BF16 vector subtraction. -/
  | vsubBf16 (g : Guard) (u : Bool) (d a b : VOp)
  /-- R340: BF16 vector multiplication. -/
  | vmulBf16 (g : Guard) (u : Bool) (d a b : VOp)
  /-- R341: BF16 vector minimum. -/
  | vminBf16 (g : Guard) (u : Bool) (d a b : VOp)
  /-- R341: BF16 vector maximum. -/
  | vmaxBf16 (g : Guard) (u : Bool) (d a b : VOp)
  /-- R340: BF16 vector division. -/
  | vdivBf16 (g : Guard) (u : Bool) (d a b : VOp)
  /-- R340: BF16 fused a x b + d. -/
  | vfmaBf16 (g : Guard) (u : Bool) (d a b : VOp)
  /-- R340: BF16 fused a x b - d. -/
  | vfmsBf16 (g : Guard) (u : Bool) (d a b : VOp)
  /-- R340: BF16 fused d - a x b. -/
  | vfnmaBf16 (g : Guard) (u : Bool) (d a b : VOp)
  /-- R341: BF16 absolute value. -/
  | vabsBf16 (g : Guard) (u : Bool) (d a : VOp)
  /-- R341: BF16 negation. -/
  | vnegBf16 (g : Guard) (u : Bool) (d a : VOp)
  /-- R340: BF16 square root. -/
  | vsqrtBf16 (g : Guard) (u : Bool) (d a : VOp)
  /-- R340: BF16 reciprocal square root. -/
  | vrsqrtBf16 (g : Guard) (u : Bool) (d a : VOp)
  /-- R340: BF16 base-2 exponential. -/
  | vexp2Bf16 (g : Guard) (u : Bool) (d a : VOp)
  /-- R340: BF16 base-2 logarithm. -/
  | vlog2Bf16 (g : Guard) (u : Bool) (d a : VOp)
  /-- R342: 32-bit integer vector addition, wrapping. -/
  | vaddI32 (g : Guard) (u : Bool) (d a b : VOp)
  /-- R342: 32-bit integer vector subtraction. -/
  | vsubI32 (g : Guard) (u : Bool) (d a b : VOp)
  /-- R342: 32-bit integer multiplication, keeping the low half. -/
  | vmulI32 (g : Guard) (u : Bool) (d a b : VOp)
  /-- R342: Signed 32-bit minimum. -/
  | vminI32 (g : Guard) (u : Bool) (d a b : VOp)
  /-- R342: Signed 32-bit maximum. -/
  | vmaxI32 (g : Guard) (u : Bool) (d a b : VOp)
  /-- R342: Unsigned 32-bit minimum. -/
  | vminN32 (g : Guard) (u : Bool) (d a b : VOp)
  /-- R342: Unsigned 32-bit maximum. -/
  | vmaxN32 (g : Guard) (u : Bool) (d a b : VOp)
  /-- R342: 32-bit integer absolute value. -/
  | vabsI32 (g : Guard) (u : Bool) (d a : VOp)
  /-- R342: 64-bit integer vector addition. -/
  | vaddI64 (g : Guard) (u : Bool) (d a b : VOp)
  /-- R342: 64-bit integer vector subtraction. -/
  | vsubI64 (g : Guard) (u : Bool) (d a b : VOp)
  /-- R342: 64-bit integer multiplication, keeping the low half. -/
  | vmulI64 (g : Guard) (u : Bool) (d a b : VOp)
  /-- R342: Signed 64-bit minimum. -/
  | vminI64 (g : Guard) (u : Bool) (d a b : VOp)
  /-- R342: Signed 64-bit maximum. -/
  | vmaxI64 (g : Guard) (u : Bool) (d a b : VOp)
  /-- R342: Unsigned 64-bit minimum. -/
  | vminN64 (g : Guard) (u : Bool) (d a b : VOp)
  /-- R342: Unsigned 64-bit maximum. -/
  | vmaxN64 (g : Guard) (u : Bool) (d a b : VOp)
  /-- R342: 64-bit integer absolute value. -/
  | vabsI64 (g : Guard) (u : Bool) (d a : VOp)
  /-- R342: 32-bit integer negation. -/
  | vnegI32 (g : Guard) (u : Bool) (d a : VOp)
  /-- R342: 32-bit left shift by lane. -/
  | vshlI32 (g : Guard) (u : Bool) (d a b : VOp)
  /-- R342: 32-bit arithmetic right shift by lane. -/
  | vshrI32 (g : Guard) (u : Bool) (d a b : VOp)
  /-- R342: 32-bit logical right shift by lane. -/
  | vshrN32 (g : Guard) (u : Bool) (d a b : VOp)
  /-- R342: 64-bit integer negation. -/
  | vnegI64 (g : Guard) (u : Bool) (d a : VOp)
  /-- R342: 64-bit left shift by element. -/
  | vshlI64 (g : Guard) (u : Bool) (d a b : VOp)
  /-- R342: 64-bit arithmetic right shift. -/
  | vshrI64 (g : Guard) (u : Bool) (d a b : VOp)
  /-- R342: 64-bit logical right shift. -/
  | vshrN64 (g : Guard) (u : Bool) (d a b : VOp)
  /-- R343: Lanewise bitwise AND. -/
  | vand (g : Guard) (u : Bool) (d a b : VOp)
  /-- R343: Lanewise bitwise OR. -/
  | vor (g : Guard) (u : Bool) (d a b : VOp)
  /-- R343: Lanewise bitwise XOR. -/
  | vxor (g : Guard) (u : Bool) (d a b : VOp)
  /-- R343: Lanewise bitwise NOT. -/
  | vnot (g : Guard) (u : Bool) (d a : VOp)
  /-- R343: Copies a register lanewise. -/
  | vmov (g : Guard) (u : Bool) (d a : VOp)
  /-- R343: Permutes the lanes of va by the indices in vb. -/
  | vperm (g : Guard) (u : Bool) (d a b : VOp)
  /-- R343: Selects lanes from va and the old vd by index. -/
  | vshuf (g : Guard) (u : Bool) (d a b : VOp)
  /-- R343: Broadcasts ga[31:0] into every enabled lane. -/
  | vbcast (g : Guard) (d : VOp) (a : Reg)
  /-- R344: Selects va or vb lanewise by predicate pk. -/
  | vsel (u : Bool) (d a b : VOp) (k : PReg)
  /-- R345: Compares elements and writes the result bits into a predicate. -/
  | vcmp (g : Guard) (cc : Cc) (t : VType) (u : Bool) (pd : PReg) (a b : VOp)
  /-- R346: Sums the enabled elements in a fixed tree into gd. -/
  | vredsum (g : Guard) (t : VType) (u : Bool) (d : Reg) (a : VOp)
  /-- R346: Reduces the enabled elements to their maximum. -/
  | vredmax (g : Guard) (t : VType) (u : Bool) (d : Reg) (a : VOp)
  /-- R346: Reduces the enabled elements to their minimum. -/
  | vredmin (g : Guard) (t : VType) (u : Bool) (d : Reg) (a : VOp)
  /-- R347: Writes inclusive prefix sums of the enabled elements. -/
  | vscan (g : Guard) (t : VType) (u : Bool) (d a : VOp)
  /-- R348: Adds per-bin counts of lane values to vd. -/
  | vhist (g : Guard) (u : Bool) (d a : VOp)
  /-- R349: Maps floating-point elements to order-preserving unsigned keys. -/
  | vflip (g : Guard) (t : VType) (u : Bool) (d a : VOp)
  /-- R350: Loads a vector into the enabled lanes. -/
  | vld (g : Guard) (d : VOp) (a : Reg) (off : BitVec 10)
  /-- R350: Stores the bytes of the enabled lanes as one masked access. -/
  | vst (g : Guard) (d : VOp) (a : Reg) (off : BitVec 10)
  /-- R352: Loads elements from indexed addresses after checking all of them. -/
  | vldx (g : Guard) (e : Esz) (d : VOp) (a : Reg) (b : VOp)
  /-- R352: Stores elements to indexed addresses after checking all of them. -/
  | vstx (g : Guard) (e : Esz) (d : VOp) (a : Reg) (b : VOp)
  /-- R351: Loads one element and broadcasts it to every lane. -/
  | vldb (g : Guard) (e : Esz) (d : VOp) (a : Reg)
  /-- R354: Converts FP32 lanes to FP16, BF16, E4M3 or E5M2 elements. -/
  | vcvtNarrowFp (g : Guard) (tgt : NarrowFp) (rnd : Rnd) (sat : Bool) (d a : VOp) (c : BitVec 4)
  /-- R354: Converts FP32 lanes to E2M1 or integer elements. -/
  | vcvtNarrowInt (g : Guard) (tgt : NarrowInt) (rnd : Rnd) (sat : Bool) (d a : VOp) (c : BitVec 4)
  /-- R355: Converts packed narrow elements to FP32 lanes. -/
  | vcvtWiden (g : Guard) (fr : WidenFrom) (rnd : Rnd) (d a : VOp)
  /-- R356: Converts FP32 lanes to 64-bit FX128 contributions. -/
  | vcvtFxToFx128 (g : Guard) (rnd : Rnd) (d a : VOp)
  /-- R356: Converts FX128 values to FP32 lanes. -/
  | vcvtFxFromFx128 (g : Guard) (d a : VOp)
  /-- R357: Quantises FP32 lanes into MX blocks, writing codes and scale entries. -/
  | vqMx (g : Guard) (blk : Blk) (rnd : Rnd) (d : VReg) (a : VOp) (c : Reg)
  /-- R358: Dequantises MX blocks into FP32 lanes. -/
  | vdqMx (g : Guard) (blk : Blk) (d : VOp) (a : VReg) (c : Reg)
  /-- R258: Copies 32 bytes of tile memory into a template. -/
  | tload (idx : BitVec 6) (a : Reg) (off : BitVec 15)
  /-- R366: Issues an amended and checked template into the matrix-array queue. -/
  | tx (idx : BitVec 6) (sel : BitVec 4) (val : BitVec 16)
  /-- R375: Issues a template on the tiles of a column mask in the issuer's row. -/
  | tgang (idx : BitVec 6) (sel : BitVec 4) (a : Reg)
  /-- R382: Translates and starts ring reads into, or timed writes from, tile memory. -/
  | tfetch (a b : Reg)
  /-- R386: Translates HBM lines and assigns them timed slots. -/
  | tstream (a b : Reg)
  /-- R388: Translates indexed blocks in order and assigns their lines timed slots. -/
  | tgather (a b : Reg)
  /-- R377: Starts a drain of accumulator lines into a core's accumulator region. -/
  | tdrain (a b : Reg)
  /-- R380: Queues a sum of source arrays into accumulator lines. -/
  | tred (a b : Reg)
  /-- R381: Reads a row-mask word into gd. -/
  | prowGet (d a : Reg)
  /-- R381: ORs gb into a row-mask word. -/
  | prowSet (a b : Reg)
  /-- R381: Clears the bits of gb in a row-mask word. -/
  | prowClr (a b : Reg)
  /-- R389: Waits for every engine operation, arrives at the barrier and waits for its release. -/
  | xsync
  /-- R393: Schedules 64-byte words to leave on the tile's lane within its spans. -/
  | xsend (a b : Reg)
  /-- R392: Sets the tile's input multiplexer tap from the next phase ck. -/
  | xmux (a : Reg)
  /-- R394: Opens a receive span for the tapped lane. -/
  | xrecv (a b : Reg)
  /-- R390: Records the tile's vote for the next barrier and returns the current pattern. -/
  | xvote (d a : Reg)
  /-- R396: Contributes to an all-reduce over the domain's members. -/
  | xred (a b : Reg)
  /-- R391: Reads selected domain state, optionally clearing LATE and THR. -/
  | xdom (d a : Reg)
  /-- R399: Arms the next instruction to issue when a clock reads T. -/
  | xarmAt (a b : Reg)
  /-- R401: Reads a word of a window's delivered post record, waiting for this superstep's delivery. -/
  | wtake (d a : Reg)
  /-- R400: When the clock reaches T, the armed instruction issues, or it is late or faults. -/
  | armedIssue
  /-- R465: The boot ROM reads and verifies the Bredar image and runs it or enters recovery. -/
  | packageReset
  /-- R466: In recovery, the boot mailbox accepts a new image into the flash. -/
  | recoveryImageLoad
  /-- R466: At the host's request, firmware raises the fused counter to SVN. -/
  | svnRaise
  /-- R467: An SPDM request over the DOE mailbox receives a doubly signed response. -/
  | spdmRequest
  /-- R457: A driver write to a queue descriptor; setting EN clears RIDX and FQIDX, and writes of CTX, SZ or QBASE are ignored while EN = 1. -/
  | queueDescriptorWrite
  /-- R458: A write to a queue's notify register wakes its command processor to consume packets. -/
  | notify
  /-- R223: A LAUNCH packet is checked and its launch submitted to the launch procedure. -/
  | launch
  /-- R223: Once the claimed resources are free, the launch broadcasts code, loads the cartoon, writes partitions, starts tiles and pushes tasks. -/
  | launchClaim
  /-- R459: A POOL LAUNCH packet submits pool record j as a launch. -/
  | poolLaunch
  /-- R459: A POOL WRITE packet writes a 128-byte pool record with ARM = 0 and SEQ kept. -/
  | poolWrite
  /-- R459: A FENCE packet completes when every earlier packet of the queue has completed. -/
  | fence
  /-- R463: A FAULT ANSWER packet resumes or ends every domain of the launch frozen for service. -/
  | faultAnswer
  /-- R415: A SUSPEND packet switches a launch out into a save area. -/
  | suspend
  /-- R415: A RESUME packet switches a suspended launch back in. -/
  | resume
  /-- R20: A firmware or command-processor write to a device register without a row of its own, such as ASCTX. -/
  | registerWrite
  /-- R48: A firmware write to a cluster-map entry; CHG starts or ends refusal, and DIE or PCL writes are ignored while CHG is 0. -/
  | clmapWrite
  /-- R443: At the agreed domain time, a cross-package domain starts its phase clock. -/
  | domainStart
  /-- R225: When all of a launch's work has ended, tentative lines resolve, DONE gets an arrival, the signal is decremented and claims are released. -/
  | launchEnd
  /-- R430: A launch that ends on a fault stops, discards, writes the dump and completes with the fault status. -/
  | launchFaultEnd
  /-- R207: An idle slot takes its next task from preload, spawn, deque or steal and starts it. -/
  | taskStart
  /-- R214: A victim's deque controller serves a queued steal request with a record or an empty or busy reply. -/
  | stealRequest
  /-- R214: A thief receives a reply; a record goes to its idle slot or deque head, and the sweep advances. -/
  | stealReply
  /-- R216: A spawned record arrives at its target core and starts on the lowest free slot. -/
  | spawnArrival
  /-- R180: When R179 holds, the task claims its places, applies its buffered entries and releases held operations. -/
  | commit
  /-- R178: A commit-front message raises a core's view V(d). -/
  | commitFrontMessage
  /-- R189: After 4,096 ck without a free slot, the highest waiting speculative task is aborted to make room for the front task. -/
  | starvedFrontTimeout
  /-- R220: When LEFT reaches zero, the slot takes a budget-overrun fault at its next boundary. -/
  | budgetOverrun
  /-- R412: A command processor's request aborts or suspends a slot at its next boundary. -/
  | preemptionRequest
  /-- R152: The slot takes the oldest queued user interrupt and continues at UIH. -/
  | userInterruptEntry
  /-- R416: The checker passes a group 6 ck after issue, releasing its requests and bank writes. -/
  | checkerPass
  /-- R417: A checker mismatch discards the slot's groups and restores its registers. -/
  | checkerMismatch
  /-- R417: Twelve ck after a mismatch, the group issues again. -/
  | checkerRetry
  /-- R141: A copy agent receives a piece, reads its source and pushes it to its destination. -/
  | copyPiece
  /-- R141: A pushed piece's data is written at its destination place. -/
  | piecePush
  /-- R149: A palette applies an update to a sync word, ending a phase when targets are met. -/
  | syncUpdate
  /-- R151: A record held in an arm entry is pushed once a deque entry frees. -/
  | armEntryPush
  /-- R143: The copy unit receives the acknowledgment of an applied piece update. -/
  | updateAcknowledgment
  /-- R144: With every piece acknowledged, the copy unit writes STAT and sends the arrival. -/
  | copyCompletion
  /-- R74: A slice accepts a request under a stamp or refuses it with a wait hint. -/
  | sliceRequest
  /-- R78: 8 x H ck after a refusal arrives, the requester sends the request again. -/
  | requestRetry
  /-- R494: A fill completes at a slice, and the line becomes ready. -/
  | l2Fill
  /-- R155: A slice's atomic unit applies an update to a transaction barrier and answers watches. -/
  | transactionBarrierUpdate
  /-- R325: Every 32 ck a remote waiting slot reads its sync word again. -/
  | swaitPoll
  /-- R326: Without a free watch, a twait reads the barrier again after 256 ck. -/
  | twaitRetry
  /-- R62: A remote access arriving over the mesh is served at its palette bank. -/
  | remotePaletteAccess
  /-- R419: An uncorrectable memory error sets the granule's mark. -/
  | eccUncorrectable
  /-- R36: An invalidation opens and blocks its covered TLB entries. -/
  | invalidationRequest
  /-- R36: When every drain condition holds, the acknowledgment phase begins. -/
  | invalidationDrainEnd
  /-- R36: Thirty-two ck later, waiting lookups resume and the requester completes. -/
  | invalidationAcknowledge
  /-- R26: The walker translates a die TLB miss level by level and fills the TLBs or faults. -/
  | pageWalk
  /-- R42: After 1,024 ck a walk that met MIG = 1 walks again from the root. -/
  | walkRetry
  /-- R43: A BIRsp from the host lets the refused device write proceed. -/
  | birsp
  /-- R44: An expander's BISnp writes back and invalidates the line, then answers BIRsp. -/
  | bisnp
  /-- R45: A host snoop of a cached host line is answered. -/
  | hostSnoop
  /-- R201: A host write to device memory takes effect at its owning slice under a stamp. -/
  | cxlMemWrite
  /-- R428: A failed router ends launches and starts a reroute or stops the package. -/
  | meshRouterFailure
  /-- R429: When traffic in flight has drained, firmware rewrites the tables and releases injection. -/
  | meshReroute
  /-- R99: A timed slot of a pseudo-channel starts a closed-page access for its assigned line. -/
  | hbmTimedSlot
  /-- R100: A dynamic slot serves refresh, row management or a queued request. -/
  | hbmDynamicSlot
  /-- R99: A timed line arrives at its tile 512 ck after its slot and lands. -/
  | tstreamLineArrival
  /-- R69: A held landing is written into its bank in the first ck no higher source wants it. -/
  | landingBufferWrite
  /-- R70: A held window access is served when its bank is free. -/
  | windowPortServe
  /-- R87: A slot leaves its source station carrying ready lines. -/
  | ringSlotDeparture
  /-- R384: A read slot reaches its tile station and lands its lines 2 ck later. -/
  | ringSlotArrival
  /-- R495: A write slot's lines are accepted at the slice as tentative. -/
  | timedWriteAccept
  /-- R393: At its phase offset, a word is read and launched on the tile's lane. -/
  | xsendWord
  /-- R394: A word latched from the tapped lane is written into tile memory in an open span. -/
  | exchangeReceive
  /-- R230: When every member and CARR core arrival is in, the barrier releases the domain. -/
  | barrierRelease
  /-- R76: When every slice has reported, each slice promotes the domain's tentative lines under one stamp. -/
  | promotion
  /-- R232: At its OPEN offset, a window opens for the domain's tiles. -/
  | windowOpen
  /-- R234: At its CLOSE offset, the window delivers a post or default, or a hold window stops the clock. -/
  | windowClose
  /-- R234: A post arrives at the window controller and is accepted or refused. -/
  | windowPostArrival
  /-- R234: A hold window with no post within WTO x 1,024 ck faults every member. -/
  | windowTimeout
  /-- R375: Four ck after tgang, the operation enters every member's queue. -/
  | gangQueueEntry
  /-- R370: A matrix-array operation completes, and the next queued one starts. -/
  | matrixOpComplete
  /-- R378: Drained lines are written into the palette and the sync word updated. -/
  | drainDelivery
  /-- R398: When every engine has staged the result, each member writes its destination. -/
  | collectiveComplete
  /-- R427: The loss of a member faults the survivors, rolls back and ends the launch. -/
  | collectiveMemberLost
  /-- R411: The command processor reports, rolls back or ends a frozen domain by the fault's disposition. -/
  | tileFaultHandling
  /-- R422: A frozen domain discards, restores its shadow and checkpoint, drops tentative lines and repeats. -/
  | rollback
  /-- R434: In each cross-package slot, each live port sends six flits. -/
  | linkSlot
  /-- R436: An IDLE flit delivers its acknowledgment word. -/
  | idleFlit
  /-- R436: A DATA flit delivers collective data. -/
  | data
  /-- R444: An ARRIVE flit counts a child's arrival at the gather tree. -/
  | arrive
  /-- R444: A RELEASE flit starts promotion and schedules the release at TREL. -/
  | release
  /-- R444: When domain time reads TREL, the package releases the barrier to its members. -/
  | crossPackageRelease
  /-- R447: A HOLD flit makes the package stop its phase clock at offset o. -/
  | hold
  /-- R447: A GO flit records a resume time for its held offset. -/
  | go
  /-- R447: When all GOs are held and the largest TGO is reached, the phase clock resumes. -/
  | phaseClockResume
  /-- R441: A TIME flit records times and, at the child, corrects the offset by slewing. -/
  | time
  /-- R441: Every 16,384 units, a package sends TIME to its parent. -/
  | timeMeasurement
  /-- R438: A RETRY flit makes the sender replay from the named SEQ. -/
  | retry
  /-- R439: An ALARM flit reports skew, a fatal package or a lost link. -/
  | alarm
  /-- R443: A CONTROL flit carries a domain record or resume agreement. -/
  | control
  /-- R155: An UPDATE flit carries a transaction-barrier update from another package. -/
  | update
  /-- R436: A flit of a reserved type is discarded and counted. -/
  | reservedFlit
  /-- R439: After 16 retries or 2,500 ck without lock, a port fails and its traffic moves. -/
  | portFailure
  /-- R451: The endpoint forms a packet from source bytes and sends it. -/
  | uetPacketTransmit
  /-- R489: The destination accepts a packet once, writes it and updates the sync word and barrier. -/
  | uetPacketReceive
  /-- R453: An acknowledgment advances the cumulative PSN or completes the copy. -/
  | uetAck
  /-- R453: After 64 us without progress, unacknowledged packets are resent. -/
  | uetReplayTimeout
  /-- R453: After 16 retransmissions or 2 ms without progress, the copy completes with code 0x08. -/
  | uetGiveUp
  /-- R452: A lost lane takes its link down and the port continues degraded. -/
  | laneLoss
  /-- R469: Firmware lowers core issue duty and raises throttle holds to stay within the limit. -/
  | powerLimit
  /-- R43: A host read of device memory over CXL.mem is served at the owning slice, marks the 64-byte lines the host may now hold, and carries poison for marked granules. -/
  | cxlMemRead
  /-- R315: A load's data or an atomic's acknowledgment arrives back at the requesting core or tile, writes gd, sets returned flags in k.nst and clears the reuse latch. -/
  | responseArrival
  /-- R412: A command processor or firmware resumes a suspended thread slot at its saved PC with every saved register, including after a cluster-map change. -/
  | resumption
  /-- R452: After a lane loss the port finishes retraining and starts sending again on its remaining link or lanes, within 4 us. -/
  | retrainingEnd
deriving DecidableEq, Repr

end Sys2Proof
end

