-- ==== Sys2Proof/WellFormed.lean ====
section
/-!
DEFINITION. The limits an encoded instruction keeps, whatever the profile (spec/07_isa_encoding.md R247 check 1,
R250 to R252, R255). The limits of block groups, which depend on the vector size of the profile, are in
Machine/Checks.lean.
-/
namespace Sys2Proof

/-- The control registers that `krd` and `kwr` may name (R255). -/
def krNumberOk (n : BitVec 10) : Bool :=
  decide (n.toNat ≤ 0x011) || (decide (0x020 ≤ n.toNat) && decide (n.toNat ≤ 0x02F))

/-- POS + width must not exceed 64 (R250). -/
def bitFieldOk (pos len1 : BitVec 6) : Bool := decide (pos.toNat + len1.toNat + 1 ≤ 64)

/-- With order none, the scope of an atomic must be 0 (R254). -/
def amoOk (o : Order) (s : Scope) : Bool := o != .none || s == .core

/-- The condition codes of `vcmp` (R251, spec/10_vector_instructions.md R345). -/
def vcmpCcOk : Cc → Bool
  | .eq | .ne | .lt | .ge | .gt | .le => true
  | _ => false

/-- The types that `vflip` admits (R349). -/
def vflipTypeOk : VType → Bool
  | .f32 | .f16 | .bf16 => true
  | _ => false

/-- The residue register v(16 + C) of a narrowing conversion (R250). -/
def residueReg (c : BitVec 4) : VReg := 1#1 ++ c

/-- C is zero unless RND is `.ef`, and with `.ef` the residue register is neither destination nor source
(R250, R354). -/
def residueOk (rnd : Rnd) (d a : VOp) (c : BitVec 4) : Bool :=
  match rnd with
  | .ef => d != ⟨0#1, residueReg c⟩ && a != ⟨0#1, residueReg c⟩
  | _ => c == 0#4

/-- The rounding of a widening conversion (R251, R355). -/
def widenRndOk : WidenFrom → Rnd → Bool
  | .i32, r => r != .ef
  | _, r => r == .rne

/-- The limits of R250 to R252 and R255 on the operands of an instruction. An event has none. -/
def wellFormed : Instr → Bool
  | .bfx _ _ pos len1 | .bfxI _ _ pos len1 | .bfi _ _ pos len1 => bitFieldOk pos len1
  | .loop _ _ _ len => len != 0#12
  | .loopr _ _ _ len => len != 0#12
  | .amoAdd o s _ _ _ _ | .amoAnd o s _ _ _ _ | .amoOr o s _ _ _ _ | .amoXor o s _ _ _ _
  | .amoMinI o s _ _ _ _ | .amoMaxI o s _ _ _ _ | .amoMinN o s _ _ _ _ | .amoMaxN o s _ _ _ _
  | .amoSwap o s _ _ _ _ | .amoCas o s _ _ _ _ | .amoAddfx o s _ _ _ | .amoAddf o s _ _ _ => amoOk o s
  | .krd _ n => krNumberOk n
  | .kwr _ n => krNumberOk n
  | .vcmp _ cc _ _ _ _ _ => vcmpCcOk cc
  | .vflip _ t _ _ _ => vflipTypeOk t
  | .vcvtNarrowFp _ _ rnd _ d a c => residueOk rnd d a c
  | .vcvtNarrowInt _ tgt rnd sat d a c => residueOk rnd d a c && (sat == false || tgt == .e2m1)
  | .vcvtWiden _ fr rnd _ _ => widenRndOk fr rnd
  | .vcvtFxToFx128 _ rnd d _ => rnd != .ef && decide (d.n.toNat % 2 = 0)
  | .vcvtFxFromFx128 _ _ a => decide (a.n.toNat % 4 = 0)
  | .tx _ sel val => sel != 0#4 || val == 0#16
  | _ => true

end Sys2Proof
end

