-- ==== Sys2Proof/Decode.lean ====
section
/-!
DEFINITION. The decoder and the encoder of the 32-bit instruction words (spec/07_isa_encoding.md R247 to R254).
`unpack` cuts a word into the fields of its major's format (R249, R253), `Fields.instr` reads the codes
(R251, R254), and `decode` accepts the instruction only if its operands keep the limits of R250 to R252 and
packing it again gives the same word, so that no reserved or unused bit passes. `encode` is written from the
same tables in the other direction.
-/
namespace Sys2Proof

/-- One bit of a word. -/
def bit (b : Bool) : BitVec 1 := if b then 1#1 else 0#1

/-- The 4-bit code of a Cc (R251). -/
def Cc.bits : Cc → BitVec 4
  | .eq => 0#4
  | .ne => 1#4
  | .lt => 2#4
  | .ge => 3#4
  | .gt => 4#4
  | .le => 5#4
  | .lo => 6#4
  | .hs => 7#4
  | .hi => 8#4
  | .ls => 9#4

/-- The Cc of a code, none for a reserved one (R251). -/
def Cc.ofBits (b : BitVec 4) : Option Cc :=
  match b.toNat with
  | 0 => some .eq
  | 1 => some .ne
  | 2 => some .lt
  | 3 => some .ge
  | 4 => some .gt
  | 5 => some .le
  | 6 => some .lo
  | 7 => some .hs
  | 8 => some .hi
  | 9 => some .ls
  | _ => none

/-- The 3-bit code of a VType (R251). -/
def VType.bits : VType → BitVec 3
  | .f32 => 0#3
  | .f16 => 1#3
  | .bf16 => 2#3
  | .i32 => 3#3
  | .i64 => 4#3
  | .n32 => 5#3
  | .n64 => 6#3

/-- The VType of a code, none for a reserved one (R251). -/
def VType.ofBits (b : BitVec 3) : Option VType :=
  match b.toNat with
  | 0 => some .f32
  | 1 => some .f16
  | 2 => some .bf16
  | 3 => some .i32
  | 4 => some .i64
  | 5 => some .n32
  | 6 => some .n64
  | _ => none

/-- The 3-bit code of a Rnd (R251). -/
def Rnd.bits : Rnd → BitVec 3
  | .rne => 0#3
  | .rtz => 1#3
  | .rdn => 2#3
  | .rup => 3#3
  | .ef => 4#3

/-- The Rnd of a code, none for a reserved one (R251). -/
def Rnd.ofBits (b : BitVec 3) : Option Rnd :=
  match b.toNat with
  | 0 => some .rne
  | 1 => some .rtz
  | 2 => some .rdn
  | 3 => some .rup
  | 4 => some .ef
  | _ => none

/-- The 2-bit code of a Scope (R251). -/
def Scope.bits : Scope → BitVec 2
  | .core => 0#2
  | .pkg => 1#2
  | .dom => 2#2
  | .sys => 3#2

/-- The Scope of a code, none for a reserved one (R251). -/
def Scope.ofBits (b : BitVec 2) : Option Scope :=
  match b.toNat with
  | 0 => some .core
  | 1 => some .pkg
  | 2 => some .dom
  | 3 => some .sys
  | _ => none

/-- The 2-bit code of a Order (R251). -/
def Order.bits : Order → BitVec 2
  | .none => 0#2
  | .acq => 1#2
  | .rel => 2#2
  | .ar => 3#2

/-- The Order of a code, none for a reserved one (R251). -/
def Order.ofBits (b : BitVec 2) : Option Order :=
  match b.toNat with
  | 0 => some .none
  | 1 => some .acq
  | 2 => some .rel
  | 3 => some .ar
  | _ => none

/-- The 2-bit code of a Esz (R251). -/
def Esz.bits : Esz → BitVec 2
  | .i8 => 0#2
  | .i16 => 1#2
  | .i32 => 2#2
  | .i64 => 3#2

/-- The Esz of a code, none for a reserved one (R251). -/
def Esz.ofBits (b : BitVec 2) : Option Esz :=
  match b.toNat with
  | 0 => some .i8
  | 1 => some .i16
  | 2 => some .i32
  | 3 => some .i64
  | _ => none

/-- The 3-bit code of a Blk (R251). -/
def Blk.bits : Blk → BitVec 3
  | .mx32e4m3 => 0#3
  | .mx32e5m2 => 1#3
  | .mx32e2m1 => 2#3
  | .mx32i8 => 3#3
  | .mx64e4m3 => 4#3
  | .mx64e5m2 => 5#3
  | .mx64i8 => 6#3
  | .mx64e2m1 => 7#3

/-- The Blk of a code, none for a reserved one (R251). -/
def Blk.ofBits (b : BitVec 3) : Option Blk :=
  match b.toNat with
  | 0 => some .mx32e4m3
  | 1 => some .mx32e5m2
  | 2 => some .mx32e2m1
  | 3 => some .mx32i8
  | 4 => some .mx64e4m3
  | 5 => some .mx64e5m2
  | 6 => some .mx64i8
  | 7 => some .mx64e2m1
  | _ => none

/-- The 2-bit code of a NarrowFp (R251). -/
def NarrowFp.bits : NarrowFp → BitVec 2
  | .f16 => 0#2
  | .bf16 => 1#2
  | .e4m3 => 2#2
  | .e5m2 => 3#2

/-- The NarrowFp of a code, none for a reserved one (R251). -/
def NarrowFp.ofBits (b : BitVec 2) : Option NarrowFp :=
  match b.toNat with
  | 0 => some .f16
  | 1 => some .bf16
  | 2 => some .e4m3
  | 3 => some .e5m2
  | _ => none

/-- The 2-bit code of a NarrowInt (R251). -/
def NarrowInt.bits : NarrowInt → BitVec 2
  | .e2m1 => 0#2
  | .i8 => 1#2
  | .i16 => 2#2
  | .i32 => 3#2

/-- The NarrowInt of a code, none for a reserved one (R251). -/
def NarrowInt.ofBits (b : BitVec 2) : Option NarrowInt :=
  match b.toNat with
  | 0 => some .e2m1
  | 1 => some .i8
  | 2 => some .i16
  | 3 => some .i32
  | _ => none

/-- The 3-bit code of a WidenFrom (R251). -/
def WidenFrom.bits : WidenFrom → BitVec 3
  | .f16 => 0#3
  | .bf16 => 1#3
  | .e4m3 => 2#3
  | .e5m2 => 3#3
  | .e2m1 => 4#3
  | .i8 => 5#3
  | .i16 => 6#3
  | .i32 => 7#3

/-- The WidenFrom of a code, none for a reserved one (R251). -/
def WidenFrom.ofBits (b : BitVec 3) : Option WidenFrom :=
  match b.toNat with
  | 0 => some .f16
  | 1 => some .bf16
  | 2 => some .e4m3
  | 3 => some .e5m2
  | 4 => some .e2m1
  | 5 => some .i8
  | 6 => some .i16
  | 7 => some .i32
  | _ => none

/-- The condition code in the three bits of format VC (R251). -/
def Cc.low3 (c : Cc) : BitVec 3 := c.bits.extractLsb' 0 3

/-- The G field (R248). -/
def Guard.bits : Guard → BitVec 4
  | .pred k => 0#1 ++ k
  | .stage n => 1#1 ++ n

/-- The guard of a G field (R248). -/
def Guard.ofBits (b : BitVec 4) : Guard :=
  if b.extractLsb' 3 1 = 0#1 then .pred (b.extractLsb' 0 3) else .stage (b.extractLsb' 0 3)

/-- The fields of a word by its format, MAJ first (R249). -/
inductive Fields where
  | rr (maj : BitVec 6) (g : BitVec 4) (d : BitVec 5) (a : BitVec 5) (b : BitVec 5) (fn : BitVec 7)
  | mr (maj : BitVec 6) (g : BitVec 4) (d : BitVec 5) (a : BitVec 5) (fn : BitVec 3) (off : BitVec 9)
  | ri (maj : BitVec 6) (d : BitVec 5) (a : BitVec 5) (imm : BitVec 16)
  | rl (maj : BitVec 6) (d : BitVec 5) (imm : BitVec 21)
  | bf (maj : BitVec 6) (d : BitVec 5) (a : BitVec 5) (pos : BitVec 6) (len : BitVec 6) (fn : BitVec 4)
  | j (maj : BitVec 6) (off : BitVec 26)
  | bc (maj : BitVec 6) (a : BitVec 5) (cc : BitVec 4) (off : BitVec 17)
  | bx (maj : BitVec 6) (a : BitVec 5) (b : BitVec 5) (cc : BitVec 4) (off : BitVec 12)
  | lp (maj : BitVec 6) (lvl : BitVec 2) (rot : BitVec 1) (cnt : BitVec 11) (len : BitVec 12)
  | sc (maj : BitVec 6) (d : BitVec 5) (a : BitVec 5) (b : BitVec 5) (x : BitVec 5) (fn : BitVec 6)
  | vv (maj : BitVec 6) (g : BitVec 4) (d : BitVec 5) (a : BitVec 5) (b : BitVec 5) (qd : BitVec 1) (qa : BitVec 1) (qb : BitVec 1) (u : BitVec 1) (fn : BitVec 3)
  | vc (maj : BitVec 6) (g : BitVec 4) (pd : BitVec 3) (a : BitVec 5) (b : BitVec 5) (qa : BitVec 1) (qb : BitVec 1) (cc : BitVec 3) (t : BitVec 3) (u : BitVec 1)
  | vr (maj : BitVec 6) (g : BitVec 4) (d : BitVec 5) (a : BitVec 5) (qd : BitVec 1) (qa : BitVec 1) (u : BitVec 1) (t : BitVec 3) (fn : BitVec 3) (z : BitVec 3)
  | vm (maj : BitVec 6) (g : BitVec 4) (d : BitVec 5) (a : BitVec 5) (qd : BitVec 1) (s : BitVec 1) (off : BitVec 10)
  | vx (maj : BitVec 6) (g : BitVec 4) (d : BitVec 5) (a : BitVec 5) (b : BitVec 5) (qd : BitVec 1) (qb : BitVec 1) (esz : BitVec 2) (fn : BitVec 3)
  | cn (maj : BitVec 6) (g : BitVec 4) (d : BitVec 5) (a : BitVec 5) (c : BitVec 4) (sat : BitVec 1) (qd : BitVec 1) (qa : BitVec 1) (rnd : BitVec 3) (tgt : BitVec 2)
  | cw (maj : BitVec 6) (g : BitVec 4) (d : BitVec 5) (a : BitVec 5) (qd : BitVec 1) (qa : BitVec 1) (fr : BitVec 3) (rnd : BitVec 3) (z : BitVec 4)
  | fx (maj : BitVec 6) (g : BitVec 4) (d : BitVec 5) (a : BitVec 5) (qd : BitVec 1) (qa : BitVec 1) (dir : BitVec 1) (rnd : BitVec 3) (z : BitVec 6)
  | qx (maj : BitVec 6) (g : BitVec 4) (d : BitVec 5) (a : BitVec 5) (c : BitVec 5) (qa : BitVec 1) (blk : BitVec 3) (rnd : BitVec 3)
  | dq (maj : BitVec 6) (g : BitVec 4) (d : BitVec 5) (a : BitVec 5) (c : BitVec 5) (qd : BitVec 1) (blk : BitVec 3) (z : BitVec 3)
  | tl (maj : BitVec 6) (idx : BitVec 6) (a : BitVec 5) (off : BitVec 15)
  | tx (maj : BitVec 6) (idx : BitVec 6) (sel : BitVec 4) (val : BitVec 16)
  | tg (maj : BitVec 6) (idx : BitVec 6) (sel : BitVec 4) (a : BitVec 5) (z : BitVec 11)
deriving DecidableEq, Repr

/-- A word from its fields (R249). -/
def Fields.pack : Fields → BitVec 32
  | .rr maj g d a b fn => (maj ++ (g ++ (d ++ (a ++ (b ++ fn)))))
  | .mr maj g d a fn off => (maj ++ (g ++ (d ++ (a ++ (fn ++ off)))))
  | .ri maj d a imm => (maj ++ (d ++ (a ++ imm)))
  | .rl maj d imm => (maj ++ (d ++ imm))
  | .bf maj d a pos len fn => (maj ++ (d ++ (a ++ (pos ++ (len ++ fn)))))
  | .j maj off => (maj ++ off)
  | .bc maj a cc off => (maj ++ (a ++ (cc ++ off)))
  | .bx maj a b cc off => (maj ++ (a ++ (b ++ (cc ++ off))))
  | .lp maj lvl rot cnt len => (maj ++ (lvl ++ (rot ++ (cnt ++ len))))
  | .sc maj d a b x fn => (maj ++ (d ++ (a ++ (b ++ (x ++ fn)))))
  | .vv maj g d a b qd qa qb u fn => (maj ++ (g ++ (d ++ (a ++ (b ++ (qd ++ (qa ++ (qb ++ (u ++ fn)))))))))
  | .vc maj g pd a b qa qb cc t u => (maj ++ (g ++ (pd ++ (a ++ (b ++ (qa ++ (qb ++ (cc ++ (t ++ u)))))))))
  | .vr maj g d a qd qa u t fn z => (maj ++ (g ++ (d ++ (a ++ (qd ++ (qa ++ (u ++ (t ++ (fn ++ z)))))))))
  | .vm maj g d a qd s off => (maj ++ (g ++ (d ++ (a ++ (qd ++ (s ++ off))))))
  | .vx maj g d a b qd qb esz fn => (maj ++ (g ++ (d ++ (a ++ (b ++ (qd ++ (qb ++ (esz ++ fn))))))))
  | .cn maj g d a c sat qd qa rnd tgt => (maj ++ (g ++ (d ++ (a ++ (c ++ (sat ++ (qd ++ (qa ++ (rnd ++ tgt)))))))))
  | .cw maj g d a qd qa fr rnd z => (maj ++ (g ++ (d ++ (a ++ (qd ++ (qa ++ (fr ++ (rnd ++ z))))))))
  | .fx maj g d a qd qa dir rnd z => (maj ++ (g ++ (d ++ (a ++ (qd ++ (qa ++ (dir ++ (rnd ++ z))))))))
  | .qx maj g d a c qa blk rnd => (maj ++ (g ++ (d ++ (a ++ (c ++ (qa ++ (blk ++ rnd)))))))
  | .dq maj g d a c qd blk z => (maj ++ (g ++ (d ++ (a ++ (c ++ (qd ++ (blk ++ z)))))))
  | .tl maj idx a off => (maj ++ (idx ++ (a ++ off)))
  | .tx maj idx sel val => (maj ++ (idx ++ (sel ++ val)))
  | .tg maj idx sel a z => (maj ++ (idx ++ (sel ++ (a ++ z))))

/-- The fields of a word in the format of its major; none for an unassigned major (R249, R253). -/
def unpack (w : BitVec 32) : Option Fields :=
  let f (lo n : Nat) : BitVec n := w.extractLsb' lo n
  match (w.extractLsb' 26 6).toNat with
  | 0x01 => some (.rr (f 26 6) (f 22 4) (f 17 5) (f 12 5) (f 7 5) (f 0 7))
  | 0x02 => some (.ri (f 26 6) (f 21 5) (f 16 5) (f 0 16))
  | 0x03 => some (.ri (f 26 6) (f 21 5) (f 16 5) (f 0 16))
  | 0x04 => some (.ri (f 26 6) (f 21 5) (f 16 5) (f 0 16))
  | 0x05 => some (.ri (f 26 6) (f 21 5) (f 16 5) (f 0 16))
  | 0x06 => some (.rl (f 26 6) (f 21 5) (f 0 21))
  | 0x07 => some (.ri (f 26 6) (f 21 5) (f 16 5) (f 0 16))
  | 0x08 => some (.rl (f 26 6) (f 21 5) (f 0 21))
  | 0x09 => some (.bf (f 26 6) (f 21 5) (f 16 5) (f 10 6) (f 4 6) (f 0 4))
  | 0x0a => some (.j (f 26 6) (f 0 26))
  | 0x0b => some (.j (f 26 6) (f 0 26))
  | 0x0c => some (.bc (f 26 6) (f 21 5) (f 17 4) (f 0 17))
  | 0x0d => some (.bx (f 26 6) (f 21 5) (f 16 5) (f 12 4) (f 0 12))
  | 0x0e => some (.sc (f 26 6) (f 21 5) (f 16 5) (f 11 5) (f 6 5) (f 0 6))
  | 0x0f => some (.lp (f 26 6) (f 24 2) (f 23 1) (f 12 11) (f 0 12))
  | 0x10 => some (.lp (f 26 6) (f 24 2) (f 23 1) (f 12 11) (f 0 12))
  | 0x11 => some (.sc (f 26 6) (f 21 5) (f 16 5) (f 11 5) (f 6 5) (f 0 6))
  | 0x12 => some (.mr (f 26 6) (f 22 4) (f 17 5) (f 12 5) (f 9 3) (f 0 9))
  | 0x13 => some (.mr (f 26 6) (f 22 4) (f 17 5) (f 12 5) (f 9 3) (f 0 9))
  | 0x14 => some (.sc (f 26 6) (f 21 5) (f 16 5) (f 11 5) (f 6 5) (f 0 6))
  | 0x15 => some (.sc (f 26 6) (f 21 5) (f 16 5) (f 11 5) (f 6 5) (f 0 6))
  | 0x16 => some (.sc (f 26 6) (f 21 5) (f 16 5) (f 11 5) (f 6 5) (f 0 6))
  | 0x17 => some (.sc (f 26 6) (f 21 5) (f 16 5) (f 11 5) (f 6 5) (f 0 6))
  | 0x20 => some (.vv (f 26 6) (f 22 4) (f 17 5) (f 12 5) (f 7 5) (f 6 1) (f 5 1) (f 4 1) (f 3 1) (f 0 3))
  | 0x21 => some (.vv (f 26 6) (f 22 4) (f 17 5) (f 12 5) (f 7 5) (f 6 1) (f 5 1) (f 4 1) (f 3 1) (f 0 3))
  | 0x22 => some (.vv (f 26 6) (f 22 4) (f 17 5) (f 12 5) (f 7 5) (f 6 1) (f 5 1) (f 4 1) (f 3 1) (f 0 3))
  | 0x23 => some (.vv (f 26 6) (f 22 4) (f 17 5) (f 12 5) (f 7 5) (f 6 1) (f 5 1) (f 4 1) (f 3 1) (f 0 3))
  | 0x24 => some (.vv (f 26 6) (f 22 4) (f 17 5) (f 12 5) (f 7 5) (f 6 1) (f 5 1) (f 4 1) (f 3 1) (f 0 3))
  | 0x25 => some (.vv (f 26 6) (f 22 4) (f 17 5) (f 12 5) (f 7 5) (f 6 1) (f 5 1) (f 4 1) (f 3 1) (f 0 3))
  | 0x26 => some (.vv (f 26 6) (f 22 4) (f 17 5) (f 12 5) (f 7 5) (f 6 1) (f 5 1) (f 4 1) (f 3 1) (f 0 3))
  | 0x27 => some (.vv (f 26 6) (f 22 4) (f 17 5) (f 12 5) (f 7 5) (f 6 1) (f 5 1) (f 4 1) (f 3 1) (f 0 3))
  | 0x28 => some (.vv (f 26 6) (f 22 4) (f 17 5) (f 12 5) (f 7 5) (f 6 1) (f 5 1) (f 4 1) (f 3 1) (f 0 3))
  | 0x29 => some (.vv (f 26 6) (f 22 4) (f 17 5) (f 12 5) (f 7 5) (f 6 1) (f 5 1) (f 4 1) (f 3 1) (f 0 3))
  | 0x2a => some (.vv (f 26 6) (f 22 4) (f 17 5) (f 12 5) (f 7 5) (f 6 1) (f 5 1) (f 4 1) (f 3 1) (f 0 3))
  | 0x2b => some (.vc (f 26 6) (f 22 4) (f 19 3) (f 14 5) (f 9 5) (f 8 1) (f 7 1) (f 4 3) (f 1 3) (f 0 1))
  | 0x2c => some (.vr (f 26 6) (f 22 4) (f 17 5) (f 12 5) (f 11 1) (f 10 1) (f 9 1) (f 6 3) (f 3 3) (f 0 3))
  | 0x2d => some (.vm (f 26 6) (f 22 4) (f 17 5) (f 12 5) (f 11 1) (f 10 1) (f 0 10))
  | 0x2e => some (.vx (f 26 6) (f 22 4) (f 17 5) (f 12 5) (f 7 5) (f 6 1) (f 5 1) (f 3 2) (f 0 3))
  | 0x2f => some (.cn (f 26 6) (f 22 4) (f 17 5) (f 12 5) (f 8 4) (f 7 1) (f 6 1) (f 5 1) (f 2 3) (f 0 2))
  | 0x30 => some (.cn (f 26 6) (f 22 4) (f 17 5) (f 12 5) (f 8 4) (f 7 1) (f 6 1) (f 5 1) (f 2 3) (f 0 2))
  | 0x31 => some (.cw (f 26 6) (f 22 4) (f 17 5) (f 12 5) (f 11 1) (f 10 1) (f 7 3) (f 4 3) (f 0 4))
  | 0x32 => some (.fx (f 26 6) (f 22 4) (f 17 5) (f 12 5) (f 11 1) (f 10 1) (f 9 1) (f 6 3) (f 0 6))
  | 0x33 => some (.qx (f 26 6) (f 22 4) (f 17 5) (f 12 5) (f 7 5) (f 6 1) (f 3 3) (f 0 3))
  | 0x34 => some (.dq (f 26 6) (f 22 4) (f 17 5) (f 12 5) (f 7 5) (f 6 1) (f 3 3) (f 0 3))
  | 0x35 => some (.tl (f 26 6) (f 20 6) (f 15 5) (f 0 15))
  | 0x36 => some (.tx (f 26 6) (f 20 6) (f 16 4) (f 0 16))
  | 0x37 => some (.tg (f 26 6) (f 20 6) (f 16 4) (f 11 5) (f 0 11))
  | 0x38 => some (.sc (f 26 6) (f 21 5) (f 16 5) (f 11 5) (f 6 5) (f 0 6))
  | 0x39 => some (.sc (f 26 6) (f 21 5) (f 16 5) (f 11 5) (f 6 5) (f 0 6))
  | 0x3a => some (.sc (f 26 6) (f 21 5) (f 16 5) (f 11 5) (f 6 5) (f 0 6))
  | 0x3f => some (.sc (f 26 6) (f 21 5) (f 16 5) (f 11 5) (f 6 5) (f 0 6))
  | _ => none

/-- The fields of an encoded instruction; none for an event (R254). -/
def fieldsOf : Instr → Option Fields
  | .add g d a b => some (.rr 0x1#6 g.bits d a b 0x0#7)
  | .sub g d a b => some (.rr 0x1#6 g.bits d a b 0x1#7)
  | .mul g d a b => some (.rr 0x1#6 g.bits d a b 0x2#7)
  | .mulhI g d a b => some (.rr 0x1#6 g.bits d a b 0x3#7)
  | .mulhN g d a b => some (.rr 0x1#6 g.bits d a b 0x4#7)
  | .divI g d a b => some (.rr 0x1#6 g.bits d a b 0x5#7)
  | .divN g d a b => some (.rr 0x1#6 g.bits d a b 0x6#7)
  | .remI g d a b => some (.rr 0x1#6 g.bits d a b 0x7#7)
  | .remN g d a b => some (.rr 0x1#6 g.bits d a b 0x8#7)
  | .madd g d a b => some (.rr 0x1#6 g.bits d a b 0x9#7)
  | .and g d a b => some (.rr 0x1#6 g.bits d a b 0xa#7)
  | .or g d a b => some (.rr 0x1#6 g.bits d a b 0xb#7)
  | .xor g d a b => some (.rr 0x1#6 g.bits d a b 0xc#7)
  | .shl g d a b => some (.rr 0x1#6 g.bits d a b 0xd#7)
  | .shrI g d a b => some (.rr 0x1#6 g.bits d a b 0xe#7)
  | .shrN g d a b => some (.rr 0x1#6 g.bits d a b 0xf#7)
  | .rot g d a b => some (.rr 0x1#6 g.bits d a b 0x10#7)
  | .clz g d a => some (.rr 0x1#6 g.bits d a 0#5 0x11#7)
  | .ctz g d a => some (.rr 0x1#6 g.bits d a 0#5 0x12#7)
  | .popc g d a => some (.rr 0x1#6 g.bits d a 0#5 0x13#7)
  | .minI g d a b => some (.rr 0x1#6 g.bits d a b 0x14#7)
  | .maxI g d a b => some (.rr 0x1#6 g.bits d a b 0x15#7)
  | .minN g d a b => some (.rr 0x1#6 g.bits d a b 0x16#7)
  | .maxN g d a b => some (.rr 0x1#6 g.bits d a b 0x17#7)
  | .setCc g cc d a b => some (.rr 0x1#6 g.bits d a b (0x2#3 ++ cc.bits))
  | .sel g d a b k => some (.rr 0x1#6 g.bits d a b (0x7#4 ++ k))
  | .addi d a imm => some (.ri 0x2#6 d a imm)
  | .andi d a imm => some (.ri 0x3#6 d a imm)
  | .ori d a imm => some (.ri 0x4#6 d a imm)
  | .xori d a imm => some (.ri 0x5#6 d a imm)
  | .li d imm => some (.rl 0x6#6 d imm)
  | .lih d h imm => some (.ri 0x7#6 d (0#3 ++ h) imm)
  | .lia d imm => some (.rl 0x8#6 d imm)
  | .bfx d a pos len1 => some (.bf 0x9#6 d a pos len1 0x0#4)
  | .bfxI d a pos len1 => some (.bf 0x9#6 d a pos len1 0x1#4)
  | .bfi d a pos len1 => some (.bf 0x9#6 d a pos len1 0x2#4)
  | .shli d a n => some (.bf 0x9#6 d a n 0#6 0x3#4)
  | .shriI d a n => some (.bf 0x9#6 d a n 0#6 0x4#4)
  | .shriN d a n => some (.bf 0x9#6 d a n 0#6 0x5#4)
  | .b off => some (.j 0xa#6 off)
  | .call off => some (.j 0xb#6 off)
  | .bcCc cc a off => some (.bc 0xc#6 a cc.bits off)
  | .bcmpCc cc a b off => some (.bx 0xd#6 a b cc.bits off)
  | .callr a => some (.sc 0xe#6 0#5 a 0#5 0#5 0x0#6)
  | .ret => some (.sc 0xe#6 0#5 0#5 0#5 0#5 0x1#6)
  | .jr a => some (.sc 0xe#6 0#5 a 0#5 0#5 0x2#6)
  | .tend => some (.sc 0xe#6 0#5 0#5 0#5 0#5 0x3#6)
  | .tyield => some (.sc 0xe#6 0#5 0#5 0#5 0#5 0x4#6)
  | .trap n => some (.sc 0xe#6 0#5 0#5 (n.extractLsb' 5 5) (n.extractLsb' 0 5) 0x5#6)
  | .brk n => some (.sc 0xe#6 0#5 0#5 (n.extractLsb' 5 5) (n.extractLsb' 0 5) 0x6#6)
  | .sysc n => some (.sc 0xe#6 0#5 0#5 (n.extractLsb' 5 5) (n.extractLsb' 0 5) 0x7#6)
  | .loop lvl rot cnt len => some (.lp 0xf#6 lvl (bit rot) cnt len)
  | .loopr lvl rot a len => some (.lp 0x10#6 lvl (bit rot) (a ++ 0#6) len)
  | .lbrk lvl => some (.sc 0x11#6 0#5 0#5 0#5 (0#3 ++ lvl) 0x0#6)
  | .lbrkl lvl k => some (.sc 0x11#6 0#5 0#5 (0#2 ++ k) (0#3 ++ lvl) 0x1#6)
  | .lnext lvl => some (.sc 0x11#6 0#5 0#5 0#5 (0#3 ++ lvl) 0x2#6)
  | .qallot d a => some (.sc 0x11#6 d a 0#5 0#5 0x3#6)
  | .qfree d a => some (.sc 0x11#6 d a 0#5 0#5 0x4#6)
  | .lsave a => some (.sc 0x11#6 0#5 a 0#5 0#5 0x5#6)
  | .lrest a => some (.sc 0x11#6 0#5 a 0#5 0#5 0x6#6)
  | .ldI8 g d a off => some (.mr 0x12#6 g.bits d a 0x0#3 off)
  | .ldN8 g d a off => some (.mr 0x12#6 g.bits d a 0x1#3 off)
  | .ldI16 g d a off => some (.mr 0x12#6 g.bits d a 0x2#3 off)
  | .ldN16 g d a off => some (.mr 0x12#6 g.bits d a 0x3#3 off)
  | .ldI32 g d a off => some (.mr 0x12#6 g.bits d a 0x4#3 off)
  | .ldN32 g d a off => some (.mr 0x12#6 g.bits d a 0x5#3 off)
  | .ldD g d a off => some (.mr 0x12#6 g.bits d a 0x6#3 off)
  | .stB g d a off => some (.mr 0x13#6 g.bits d a 0x0#3 off)
  | .stH g d a off => some (.mr 0x13#6 g.bits d a 0x1#3 off)
  | .stW g d a off => some (.mr 0x13#6 g.bits d a 0x2#3 off)
  | .stD g d a off => some (.mr 0x13#6 g.bits d a 0x3#3 off)
  | .ldAcq s d a => some (.sc 0x14#6 d a 0#5 (0#3 ++ s.bits) 0x0#6)
  | .stRel s a b => some (.sc 0x14#6 0#5 a b (0#3 ++ s.bits) 0x1#6)
  | .fenceS s => some (.sc 0x14#6 0#5 0#5 0#5 (0#3 ++ s.bits) 0x2#6)
  | .pref a => some (.sc 0x14#6 0#5 a 0#5 0#5 0x3#6)
  | .seal d a b => some (.sc 0x14#6 d a b 0#5 0x4#6)
  | .unseal d a b => some (.sc 0x14#6 d a b 0#5 0x5#6)
  | .amoAdd o s w d a b => some (.sc 0x15#6 d a b (o.bits ++ s.bits ++ bit w) 0x0#6)
  | .amoAnd o s w d a b => some (.sc 0x15#6 d a b (o.bits ++ s.bits ++ bit w) 0x1#6)
  | .amoOr o s w d a b => some (.sc 0x15#6 d a b (o.bits ++ s.bits ++ bit w) 0x2#6)
  | .amoXor o s w d a b => some (.sc 0x15#6 d a b (o.bits ++ s.bits ++ bit w) 0x3#6)
  | .amoMinI o s w d a b => some (.sc 0x15#6 d a b (o.bits ++ s.bits ++ bit w) 0x4#6)
  | .amoMaxI o s w d a b => some (.sc 0x15#6 d a b (o.bits ++ s.bits ++ bit w) 0x5#6)
  | .amoMinN o s w d a b => some (.sc 0x15#6 d a b (o.bits ++ s.bits ++ bit w) 0x6#6)
  | .amoMaxN o s w d a b => some (.sc 0x15#6 d a b (o.bits ++ s.bits ++ bit w) 0x7#6)
  | .amoSwap o s w d a b => some (.sc 0x15#6 d a b (o.bits ++ s.bits ++ bit w) 0x8#6)
  | .amoCas o s w d a b => some (.sc 0x15#6 d a b (o.bits ++ s.bits ++ bit w) 0x9#6)
  | .amoAddfx o s d a b => some (.sc 0x15#6 d a b (o.bits ++ s.bits ++ 0x1#1) 0xa#6)
  | .amoAddf o s d a b => some (.sc 0x15#6 d a b (o.bits ++ s.bits ++ 0x0#1) 0xb#6)
  | .spawn d a b => some (.sc 0x16#6 d a b 0#5 0x0#6)
  | .push d a => some (.sc 0x16#6 d a 0#5 0#5 0x1#6)
  | .pushts d a b => some (.sc 0x16#6 d a b 0#5 0x2#6)
  | .twait a b => some (.sc 0x16#6 0#5 a b 0#5 0x3#6)
  | .commitIrr => some (.sc 0x16#6 0#5 0#5 0#5 0#5 0x4#6)
  | .sarm d a b => some (.sc 0x16#6 d a b 0#5 0x5#6)
  | .swait a b => some (.sc 0x16#6 0#5 a b 0#5 0x6#6)
  | .sadd s a b => some (.sc 0x16#6 0#5 a b (0#3 ++ s.bits) 0x7#6)
  | .xbarArr s a b => some (.sc 0x16#6 0#5 a b (0#3 ++ s.bits) 0x8#6)
  | .barArr a => some (.sc 0x16#6 0#5 a 0#5 0#5 0x9#6)
  | .barWait a => some (.sc 0x16#6 0#5 a 0#5 0#5 0xa#6)
  | .lpatch d a b => some (.sc 0x16#6 d a b 0#5 0xb#6)
  | .larm d a => some (.sc 0x16#6 d a 0#5 0#5 0xc#6)
  | .wpost d a => some (.sc 0x16#6 d a 0#5 0#5 0xd#6)
  | .wquery d a => some (.sc 0x16#6 d a 0#5 0#5 0xe#6)
  | .cpLin a => some (.sc 0x17#6 0#5 a 0#5 0#5 0x0#6)
  | .cpBox a => some (.sc 0x17#6 0#5 a 0#5 0#5 0x1#6)
  | .cpGather a => some (.sc 0x17#6 0#5 a 0#5 0#5 0x2#6)
  | .cpScatter a => some (.sc 0x17#6 0#5 a 0#5 0#5 0x3#6)
  | .cpRemote a => some (.sc 0x17#6 0#5 a 0#5 0#5 0x4#6)
  | .cpCancel a => some (.sc 0x17#6 0#5 a 0#5 0#5 0x5#6)
  | .krd d n => some (.sc 0x3f#6 d 0#5 (n.extractLsb' 5 5) (n.extractLsb' 0 5) 0x0#6)
  | .kwr a n => some (.sc 0x3f#6 0#5 a (n.extractLsb' 5 5) (n.extractLsb' 0 5) 0x1#6)
  | .eret => some (.sc 0x3f#6 0#5 0#5 0#5 0#5 0x2#6)
  | .idle => some (.sc 0x3f#6 0#5 0#5 0#5 0#5 0x3#6)
  | .ovl a b => some (.sc 0x3f#6 0#5 a b 0#5 0x4#6)
  | .tlbiVa a b => some (.sc 0x3f#6 0#5 a b 0x0#5 0x5#6)
  | .tlbiAsid a => some (.sc 0x3f#6 0#5 a 0#5 0x1#5 0x5#6)
  | .tlbiAll => some (.sc 0x3f#6 0#5 0#5 0#5 0x2#5 0x5#6)
  | .vaddF32 g u d a b => some (.vv 0x20#6 g.bits d.n a.n b.n d.q a.q b.q (bit u) 0x0#3)
  | .vsubF32 g u d a b => some (.vv 0x20#6 g.bits d.n a.n b.n d.q a.q b.q (bit u) 0x1#3)
  | .vmulF32 g u d a b => some (.vv 0x20#6 g.bits d.n a.n b.n d.q a.q b.q (bit u) 0x2#3)
  | .vminF32 g u d a b => some (.vv 0x20#6 g.bits d.n a.n b.n d.q a.q b.q (bit u) 0x3#3)
  | .vmaxF32 g u d a b => some (.vv 0x20#6 g.bits d.n a.n b.n d.q a.q b.q (bit u) 0x4#3)
  | .vdivF32 g u d a b => some (.vv 0x20#6 g.bits d.n a.n b.n d.q a.q b.q (bit u) 0x5#3)
  | .vfmaF32 g u d a b => some (.vv 0x20#6 g.bits d.n a.n b.n d.q a.q b.q (bit u) 0x6#3)
  | .vfmsF32 g u d a b => some (.vv 0x20#6 g.bits d.n a.n b.n d.q a.q b.q (bit u) 0x7#3)
  | .vfnmaF32 g u d a b => some (.vv 0x21#6 g.bits d.n a.n b.n d.q a.q b.q (bit u) 0x0#3)
  | .vabsF32 g u d a => some (.vv 0x21#6 g.bits d.n a.n 0#5 d.q a.q 0#1 (bit u) 0x1#3)
  | .vnegF32 g u d a => some (.vv 0x21#6 g.bits d.n a.n 0#5 d.q a.q 0#1 (bit u) 0x2#3)
  | .vsqrtF32 g u d a => some (.vv 0x21#6 g.bits d.n a.n 0#5 d.q a.q 0#1 (bit u) 0x3#3)
  | .vrsqrtF32 g u d a => some (.vv 0x21#6 g.bits d.n a.n 0#5 d.q a.q 0#1 (bit u) 0x4#3)
  | .vexp2F32 g u d a => some (.vv 0x21#6 g.bits d.n a.n 0#5 d.q a.q 0#1 (bit u) 0x5#3)
  | .vlog2F32 g u d a => some (.vv 0x21#6 g.bits d.n a.n 0#5 d.q a.q 0#1 (bit u) 0x6#3)
  | .vaddF16 g u d a b => some (.vv 0x22#6 g.bits d.n a.n b.n d.q a.q b.q (bit u) 0x0#3)
  | .vsubF16 g u d a b => some (.vv 0x22#6 g.bits d.n a.n b.n d.q a.q b.q (bit u) 0x1#3)
  | .vmulF16 g u d a b => some (.vv 0x22#6 g.bits d.n a.n b.n d.q a.q b.q (bit u) 0x2#3)
  | .vminF16 g u d a b => some (.vv 0x22#6 g.bits d.n a.n b.n d.q a.q b.q (bit u) 0x3#3)
  | .vmaxF16 g u d a b => some (.vv 0x22#6 g.bits d.n a.n b.n d.q a.q b.q (bit u) 0x4#3)
  | .vdivF16 g u d a b => some (.vv 0x22#6 g.bits d.n a.n b.n d.q a.q b.q (bit u) 0x5#3)
  | .vfmaF16 g u d a b => some (.vv 0x22#6 g.bits d.n a.n b.n d.q a.q b.q (bit u) 0x6#3)
  | .vfmsF16 g u d a b => some (.vv 0x22#6 g.bits d.n a.n b.n d.q a.q b.q (bit u) 0x7#3)
  | .vfnmaF16 g u d a b => some (.vv 0x23#6 g.bits d.n a.n b.n d.q a.q b.q (bit u) 0x0#3)
  | .vabsF16 g u d a => some (.vv 0x23#6 g.bits d.n a.n 0#5 d.q a.q 0#1 (bit u) 0x1#3)
  | .vnegF16 g u d a => some (.vv 0x23#6 g.bits d.n a.n 0#5 d.q a.q 0#1 (bit u) 0x2#3)
  | .vsqrtF16 g u d a => some (.vv 0x23#6 g.bits d.n a.n 0#5 d.q a.q 0#1 (bit u) 0x3#3)
  | .vrsqrtF16 g u d a => some (.vv 0x23#6 g.bits d.n a.n 0#5 d.q a.q 0#1 (bit u) 0x4#3)
  | .vexp2F16 g u d a => some (.vv 0x23#6 g.bits d.n a.n 0#5 d.q a.q 0#1 (bit u) 0x5#3)
  | .vlog2F16 g u d a => some (.vv 0x23#6 g.bits d.n a.n 0#5 d.q a.q 0#1 (bit u) 0x6#3)
  | .vaddBf16 g u d a b => some (.vv 0x24#6 g.bits d.n a.n b.n d.q a.q b.q (bit u) 0x0#3)
  | .vsubBf16 g u d a b => some (.vv 0x24#6 g.bits d.n a.n b.n d.q a.q b.q (bit u) 0x1#3)
  | .vmulBf16 g u d a b => some (.vv 0x24#6 g.bits d.n a.n b.n d.q a.q b.q (bit u) 0x2#3)
  | .vminBf16 g u d a b => some (.vv 0x24#6 g.bits d.n a.n b.n d.q a.q b.q (bit u) 0x3#3)
  | .vmaxBf16 g u d a b => some (.vv 0x24#6 g.bits d.n a.n b.n d.q a.q b.q (bit u) 0x4#3)
  | .vdivBf16 g u d a b => some (.vv 0x24#6 g.bits d.n a.n b.n d.q a.q b.q (bit u) 0x5#3)
  | .vfmaBf16 g u d a b => some (.vv 0x24#6 g.bits d.n a.n b.n d.q a.q b.q (bit u) 0x6#3)
  | .vfmsBf16 g u d a b => some (.vv 0x24#6 g.bits d.n a.n b.n d.q a.q b.q (bit u) 0x7#3)
  | .vfnmaBf16 g u d a b => some (.vv 0x25#6 g.bits d.n a.n b.n d.q a.q b.q (bit u) 0x0#3)
  | .vabsBf16 g u d a => some (.vv 0x25#6 g.bits d.n a.n 0#5 d.q a.q 0#1 (bit u) 0x1#3)
  | .vnegBf16 g u d a => some (.vv 0x25#6 g.bits d.n a.n 0#5 d.q a.q 0#1 (bit u) 0x2#3)
  | .vsqrtBf16 g u d a => some (.vv 0x25#6 g.bits d.n a.n 0#5 d.q a.q 0#1 (bit u) 0x3#3)
  | .vrsqrtBf16 g u d a => some (.vv 0x25#6 g.bits d.n a.n 0#5 d.q a.q 0#1 (bit u) 0x4#3)
  | .vexp2Bf16 g u d a => some (.vv 0x25#6 g.bits d.n a.n 0#5 d.q a.q 0#1 (bit u) 0x5#3)
  | .vlog2Bf16 g u d a => some (.vv 0x25#6 g.bits d.n a.n 0#5 d.q a.q 0#1 (bit u) 0x6#3)
  | .vaddI32 g u d a b => some (.vv 0x26#6 g.bits d.n a.n b.n d.q a.q b.q (bit u) 0x0#3)
  | .vsubI32 g u d a b => some (.vv 0x26#6 g.bits d.n a.n b.n d.q a.q b.q (bit u) 0x1#3)
  | .vmulI32 g u d a b => some (.vv 0x26#6 g.bits d.n a.n b.n d.q a.q b.q (bit u) 0x2#3)
  | .vminI32 g u d a b => some (.vv 0x26#6 g.bits d.n a.n b.n d.q a.q b.q (bit u) 0x3#3)
  | .vmaxI32 g u d a b => some (.vv 0x26#6 g.bits d.n a.n b.n d.q a.q b.q (bit u) 0x4#3)
  | .vminN32 g u d a b => some (.vv 0x26#6 g.bits d.n a.n b.n d.q a.q b.q (bit u) 0x5#3)
  | .vmaxN32 g u d a b => some (.vv 0x26#6 g.bits d.n a.n b.n d.q a.q b.q (bit u) 0x6#3)
  | .vabsI32 g u d a => some (.vv 0x26#6 g.bits d.n a.n 0#5 d.q a.q 0#1 (bit u) 0x7#3)
  | .vaddI64 g u d a b => some (.vv 0x27#6 g.bits d.n a.n b.n d.q a.q b.q (bit u) 0x0#3)
  | .vsubI64 g u d a b => some (.vv 0x27#6 g.bits d.n a.n b.n d.q a.q b.q (bit u) 0x1#3)
  | .vmulI64 g u d a b => some (.vv 0x27#6 g.bits d.n a.n b.n d.q a.q b.q (bit u) 0x2#3)
  | .vminI64 g u d a b => some (.vv 0x27#6 g.bits d.n a.n b.n d.q a.q b.q (bit u) 0x3#3)
  | .vmaxI64 g u d a b => some (.vv 0x27#6 g.bits d.n a.n b.n d.q a.q b.q (bit u) 0x4#3)
  | .vminN64 g u d a b => some (.vv 0x27#6 g.bits d.n a.n b.n d.q a.q b.q (bit u) 0x5#3)
  | .vmaxN64 g u d a b => some (.vv 0x27#6 g.bits d.n a.n b.n d.q a.q b.q (bit u) 0x6#3)
  | .vabsI64 g u d a => some (.vv 0x27#6 g.bits d.n a.n 0#5 d.q a.q 0#1 (bit u) 0x7#3)
  | .vnegI32 g u d a => some (.vv 0x28#6 g.bits d.n a.n 0#5 d.q a.q 0#1 (bit u) 0x0#3)
  | .vshlI32 g u d a b => some (.vv 0x28#6 g.bits d.n a.n b.n d.q a.q b.q (bit u) 0x1#3)
  | .vshrI32 g u d a b => some (.vv 0x28#6 g.bits d.n a.n b.n d.q a.q b.q (bit u) 0x2#3)
  | .vshrN32 g u d a b => some (.vv 0x28#6 g.bits d.n a.n b.n d.q a.q b.q (bit u) 0x3#3)
  | .vnegI64 g u d a => some (.vv 0x28#6 g.bits d.n a.n 0#5 d.q a.q 0#1 (bit u) 0x4#3)
  | .vshlI64 g u d a b => some (.vv 0x28#6 g.bits d.n a.n b.n d.q a.q b.q (bit u) 0x5#3)
  | .vshrI64 g u d a b => some (.vv 0x28#6 g.bits d.n a.n b.n d.q a.q b.q (bit u) 0x6#3)
  | .vshrN64 g u d a b => some (.vv 0x28#6 g.bits d.n a.n b.n d.q a.q b.q (bit u) 0x7#3)
  | .vand g u d a b => some (.vv 0x29#6 g.bits d.n a.n b.n d.q a.q b.q (bit u) 0x0#3)
  | .vor g u d a b => some (.vv 0x29#6 g.bits d.n a.n b.n d.q a.q b.q (bit u) 0x1#3)
  | .vxor g u d a b => some (.vv 0x29#6 g.bits d.n a.n b.n d.q a.q b.q (bit u) 0x2#3)
  | .vnot g u d a => some (.vv 0x29#6 g.bits d.n a.n 0#5 d.q a.q 0#1 (bit u) 0x3#3)
  | .vmov g u d a => some (.vv 0x29#6 g.bits d.n a.n 0#5 d.q a.q 0#1 (bit u) 0x4#3)
  | .vperm g u d a b => some (.vv 0x29#6 g.bits d.n a.n b.n d.q a.q b.q (bit u) 0x5#3)
  | .vshuf g u d a b => some (.vv 0x29#6 g.bits d.n a.n b.n d.q a.q b.q (bit u) 0x6#3)
  | .vbcast g d a => some (.vv 0x29#6 g.bits d.n a 0#5 d.q 0#1 0#1 0#1 0x7#3)
  | .vsel u d a b k => some (.vv 0x2a#6 (0#1 ++ k) d.n a.n b.n d.q a.q b.q (bit u) 0x0#3)
  | .vcmp g cc t u pd a b => some (.vc 0x2b#6 g.bits pd a.n b.n a.q b.q (Cc.low3 cc) t.bits (bit u))
  | .vredsum g t u d a => some (.vr 0x2c#6 g.bits d a.n 0#1 a.q (bit u) t.bits 0x0#3 0#3)
  | .vredmax g t u d a => some (.vr 0x2c#6 g.bits d a.n 0#1 a.q (bit u) t.bits 0x1#3 0#3)
  | .vredmin g t u d a => some (.vr 0x2c#6 g.bits d a.n 0#1 a.q (bit u) t.bits 0x2#3 0#3)
  | .vscan g t u d a => some (.vr 0x2c#6 g.bits d.n a.n d.q a.q (bit u) t.bits 0x3#3 0#3)
  | .vhist g u d a => some (.vr 0x2c#6 g.bits d.n a.n d.q a.q (bit u) 0x5#3 0x4#3 0#3)
  | .vflip g t u d a => some (.vr 0x2c#6 g.bits d.n a.n d.q a.q (bit u) t.bits 0x5#3 0#3)
  | .vld g d a off => some (.vm 0x2d#6 g.bits d.n a d.q 0#1 off)
  | .vst g d a off => some (.vm 0x2d#6 g.bits d.n a d.q 1#1 off)
  | .vldx g e d a b => some (.vx 0x2e#6 g.bits d.n a b.n d.q b.q e.bits 0x0#3)
  | .vstx g e d a b => some (.vx 0x2e#6 g.bits d.n a b.n d.q b.q e.bits 0x1#3)
  | .vldb g e d a => some (.vx 0x2e#6 g.bits d.n a 0#5 d.q 0#1 e.bits 0x2#3)
  | .vcvtNarrowFp g tgt rnd sat d a c => some (.cn 0x2f#6 g.bits d.n a.n c (bit sat) d.q a.q rnd.bits tgt.bits)
  | .vcvtNarrowInt g tgt rnd sat d a c => some (.cn 0x30#6 g.bits d.n a.n c (bit sat) d.q a.q rnd.bits tgt.bits)
  | .vcvtWiden g fr rnd d a => some (.cw 0x31#6 g.bits d.n a.n d.q a.q fr.bits rnd.bits 0#4)
  | .vcvtFxToFx128 g rnd d a => some (.fx 0x32#6 g.bits d.n a.n d.q a.q 0#1 rnd.bits 0#6)
  | .vcvtFxFromFx128 g d a => some (.fx 0x32#6 g.bits d.n a.n d.q a.q 1#1 0#3 0#6)
  | .vqMx g blk rnd d a c => some (.qx 0x33#6 g.bits d a.n c a.q blk.bits rnd.bits)
  | .vdqMx g blk d a c => some (.dq 0x34#6 g.bits d.n a c d.q blk.bits 0#3)
  | .tload idx a off => some (.tl 0x35#6 idx a off)
  | .tx idx sel val => some (.tx 0x36#6 idx sel val)
  | .tgang idx sel a => some (.tg 0x37#6 idx sel a 0#11)
  | .tfetch a b => some (.sc 0x38#6 0#5 a b 0#5 0x0#6)
  | .tstream a b => some (.sc 0x38#6 0#5 a b 0#5 0x1#6)
  | .tgather a b => some (.sc 0x38#6 0#5 a b 0#5 0x2#6)
  | .tdrain a b => some (.sc 0x38#6 0#5 a b 0#5 0x3#6)
  | .tred a b => some (.sc 0x38#6 0#5 a b 0#5 0x4#6)
  | .prowGet d a => some (.sc 0x39#6 d a 0#5 0#5 0x0#6)
  | .prowSet a b => some (.sc 0x39#6 0#5 a b 0#5 0x1#6)
  | .prowClr a b => some (.sc 0x39#6 0#5 a b 0#5 0x2#6)
  | .xsync => some (.sc 0x3a#6 0#5 0#5 0#5 0#5 0x0#6)
  | .xsend a b => some (.sc 0x3a#6 0#5 a b 0#5 0x1#6)
  | .xmux a => some (.sc 0x3a#6 0#5 a 0#5 0#5 0x2#6)
  | .xrecv a b => some (.sc 0x3a#6 0#5 a b 0#5 0x3#6)
  | .xvote d a => some (.sc 0x3a#6 d a 0#5 0#5 0x4#6)
  | .xred a b => some (.sc 0x3a#6 0#5 a b 0#5 0x5#6)
  | .xdom d a => some (.sc 0x3a#6 d a 0#5 0#5 0x6#6)
  | .xarmAt a b => some (.sc 0x3a#6 0#5 a b 0#5 0x7#6)
  | .wtake d a => some (.sc 0x3a#6 d a 0#5 0#5 0x8#6)
  | .tyieldTimeout => none
  | .idleTimeout => none
  | .armedIssue => none
  | .packageReset => none
  | .recoveryImageLoad => none
  | .svnRaise => none
  | .spdmRequest => none
  | .queueDescriptorWrite => none
  | .notify => none
  | .launch => none
  | .launchClaim => none
  | .poolLaunch => none
  | .poolWrite => none
  | .fence => none
  | .faultAnswer => none
  | .suspend => none
  | .resume => none
  | .registerWrite => none
  | .clmapWrite => none
  | .domainStart => none
  | .launchEnd => none
  | .launchFaultEnd => none
  | .taskStart => none
  | .stealRequest => none
  | .stealReply => none
  | .spawnArrival => none
  | .commit => none
  | .commitFrontMessage => none
  | .starvedFrontTimeout => none
  | .budgetOverrun => none
  | .preemptionRequest => none
  | .userInterruptEntry => none
  | .checkerPass => none
  | .checkerMismatch => none
  | .checkerRetry => none
  | .copyPiece => none
  | .piecePush => none
  | .syncUpdate => none
  | .armEntryPush => none
  | .updateAcknowledgment => none
  | .copyCompletion => none
  | .sliceRequest => none
  | .requestRetry => none
  | .l2Fill => none
  | .transactionBarrierUpdate => none
  | .swaitPoll => none
  | .twaitRetry => none
  | .remotePaletteAccess => none
  | .eccUncorrectable => none
  | .invalidationRequest => none
  | .invalidationDrainEnd => none
  | .invalidationAcknowledge => none
  | .pageWalk => none
  | .walkRetry => none
  | .birsp => none
  | .bisnp => none
  | .hostSnoop => none
  | .cxlMemWrite => none
  | .meshRouterFailure => none
  | .meshReroute => none
  | .hbmTimedSlot => none
  | .hbmDynamicSlot => none
  | .tstreamLineArrival => none
  | .landingBufferWrite => none
  | .windowPortServe => none
  | .ringSlotDeparture => none
  | .ringSlotArrival => none
  | .timedWriteAccept => none
  | .xsendWord => none
  | .exchangeReceive => none
  | .barrierRelease => none
  | .promotion => none
  | .windowOpen => none
  | .windowClose => none
  | .windowPostArrival => none
  | .windowTimeout => none
  | .gangQueueEntry => none
  | .matrixOpComplete => none
  | .drainDelivery => none
  | .collectiveComplete => none
  | .collectiveMemberLost => none
  | .tileFaultHandling => none
  | .rollback => none
  | .linkSlot => none
  | .idleFlit => none
  | .data => none
  | .arrive => none
  | .release => none
  | .crossPackageRelease => none
  | .hold => none
  | .go => none
  | .phaseClockResume => none
  | .time => none
  | .timeMeasurement => none
  | .retry => none
  | .alarm => none
  | .control => none
  | .update => none
  | .reservedFlit => none
  | .portFailure => none
  | .uetPacketTransmit => none
  | .uetPacketReceive => none
  | .uetAck => none
  | .uetReplayTimeout => none
  | .uetGiveUp => none
  | .laneLoss => none
  | .powerLimit => none
  | .cxlMemRead => none
  | .responseArrival => none
  | .resumption => none
  | .retrainingEnd => none

/-- Major 0x01 (R253, R254). -/
def ofMajor01 (g : BitVec 4) (d : BitVec 5) (a : BitVec 5) (b : BitVec 5) (fn : BitVec 7) : Option Instr :=
  match fn.toNat with
  | 0x00 => some (.add (.ofBits g) d a b)
  | 0x01 => some (.sub (.ofBits g) d a b)
  | 0x02 => some (.mul (.ofBits g) d a b)
  | 0x03 => some (.mulhI (.ofBits g) d a b)
  | 0x04 => some (.mulhN (.ofBits g) d a b)
  | 0x05 => some (.divI (.ofBits g) d a b)
  | 0x06 => some (.divN (.ofBits g) d a b)
  | 0x07 => some (.remI (.ofBits g) d a b)
  | 0x08 => some (.remN (.ofBits g) d a b)
  | 0x09 => some (.madd (.ofBits g) d a b)
  | 0x0a => some (.and (.ofBits g) d a b)
  | 0x0b => some (.or (.ofBits g) d a b)
  | 0x0c => some (.xor (.ofBits g) d a b)
  | 0x0d => some (.shl (.ofBits g) d a b)
  | 0x0e => some (.shrI (.ofBits g) d a b)
  | 0x0f => some (.shrN (.ofBits g) d a b)
  | 0x10 => some (.rot (.ofBits g) d a b)
  | 0x11 => some (.clz (.ofBits g) d a)
  | 0x12 => some (.ctz (.ofBits g) d a)
  | 0x13 => some (.popc (.ofBits g) d a)
  | 0x14 => some (.minI (.ofBits g) d a b)
  | 0x15 => some (.maxI (.ofBits g) d a b)
  | 0x16 => some (.minN (.ofBits g) d a b)
  | 0x17 => some (.maxN (.ofBits g) d a b)
  | _ =>
    if fn.extractLsb' 4 3 = 2#3 then (Cc.ofBits (fn.extractLsb' 0 4)).bind fun cc => some (.setCc (.ofBits g) cc d a b)
    else if fn.extractLsb' 3 4 = 7#4 then some (.sel (.ofBits g) d a b (fn.extractLsb' 0 3))
    else none

/-- Major 0x02 (R253, R254). -/
def ofMajor02 (d : BitVec 5) (a : BitVec 5) (imm : BitVec 16) : Option Instr :=
  some (.addi d a imm)

/-- Major 0x03 (R253, R254). -/
def ofMajor03 (d : BitVec 5) (a : BitVec 5) (imm : BitVec 16) : Option Instr :=
  some (.andi d a imm)

/-- Major 0x04 (R253, R254). -/
def ofMajor04 (d : BitVec 5) (a : BitVec 5) (imm : BitVec 16) : Option Instr :=
  some (.ori d a imm)

/-- Major 0x05 (R253, R254). -/
def ofMajor05 (d : BitVec 5) (a : BitVec 5) (imm : BitVec 16) : Option Instr :=
  some (.xori d a imm)

/-- Major 0x06 (R253, R254). -/
def ofMajor06 (d : BitVec 5) (imm : BitVec 21) : Option Instr :=
  some (.li d imm)

/-- Major 0x07 (R253, R254). -/
def ofMajor07 (d : BitVec 5) (a : BitVec 5) (imm : BitVec 16) : Option Instr :=
  some (.lih d (a.extractLsb' 0 2) imm)

/-- Major 0x08 (R253, R254). -/
def ofMajor08 (d : BitVec 5) (imm : BitVec 21) : Option Instr :=
  some (.lia d imm)

/-- Major 0x09 (R253, R254). -/
def ofMajor09 (d : BitVec 5) (a : BitVec 5) (pos : BitVec 6) (len : BitVec 6) (fn : BitVec 4) : Option Instr :=
  match fn.toNat with
  | 0x0 => some (.bfx d a pos len)
  | 0x1 => some (.bfxI d a pos len)
  | 0x2 => some (.bfi d a pos len)
  | 0x3 => some (.shli d a pos)
  | 0x4 => some (.shriI d a pos)
  | 0x5 => some (.shriN d a pos)
  | _ => none

/-- Major 0x0a (R253, R254). -/
def ofMajor0A (off : BitVec 26) : Option Instr :=
  some (.b off)

/-- Major 0x0b (R253, R254). -/
def ofMajor0B (off : BitVec 26) : Option Instr :=
  some (.call off)

/-- Major 0x0c (R253, R254). -/
def ofMajor0C (a : BitVec 5) (cc : BitVec 4) (off : BitVec 17) : Option Instr :=
  (Cc.ofBits cc).bind fun cc => some (.bcCc cc a off)

/-- Major 0x0d (R253, R254). -/
def ofMajor0D (a : BitVec 5) (b : BitVec 5) (cc : BitVec 4) (off : BitVec 12) : Option Instr :=
  (Cc.ofBits cc).bind fun cc => some (.bcmpCc cc a b off)

/-- Major 0x0e (R253, R254). -/
def ofMajor0E (_d : BitVec 5) (a : BitVec 5) (b : BitVec 5) (x : BitVec 5) (fn : BitVec 6) : Option Instr :=
  match fn.toNat with
  | 0x0 => some (.callr a)
  | 0x1 => some (.ret)
  | 0x2 => some (.jr a)
  | 0x3 => some (.tend)
  | 0x4 => some (.tyield)
  | 0x5 => some (.trap (b ++ x))
  | 0x6 => some (.brk (b ++ x))
  | 0x7 => some (.sysc (b ++ x))
  | _ => none

/-- Major 0x0f (R253, R254). -/
def ofMajor0F (lvl : BitVec 2) (rot : BitVec 1) (cnt : BitVec 11) (len : BitVec 12) : Option Instr :=
  some (.loop lvl (rot == 1#1) cnt len)

/-- Major 0x10 (R253, R254). -/
def ofMajor10 (lvl : BitVec 2) (rot : BitVec 1) (cnt : BitVec 11) (len : BitVec 12) : Option Instr :=
  some (.loopr lvl (rot == 1#1) (cnt.extractLsb' 6 5) len)

/-- Major 0x11 (R253, R254). -/
def ofMajor11 (d : BitVec 5) (a : BitVec 5) (b : BitVec 5) (x : BitVec 5) (fn : BitVec 6) : Option Instr :=
  match fn.toNat with
  | 0x0 => some (.lbrk (x.extractLsb' 0 2))
  | 0x1 => some (.lbrkl (x.extractLsb' 0 2) (b.extractLsb' 0 3))
  | 0x2 => some (.lnext (x.extractLsb' 0 2))
  | 0x3 => some (.qallot d a)
  | 0x4 => some (.qfree d a)
  | 0x5 => some (.lsave a)
  | 0x6 => some (.lrest a)
  | _ => none

/-- Major 0x12 (R253, R254). -/
def ofMajor12 (g : BitVec 4) (d : BitVec 5) (a : BitVec 5) (fn : BitVec 3) (off : BitVec 9) : Option Instr :=
  match fn.toNat with
  | 0x0 => some (.ldI8 (.ofBits g) d a off)
  | 0x1 => some (.ldN8 (.ofBits g) d a off)
  | 0x2 => some (.ldI16 (.ofBits g) d a off)
  | 0x3 => some (.ldN16 (.ofBits g) d a off)
  | 0x4 => some (.ldI32 (.ofBits g) d a off)
  | 0x5 => some (.ldN32 (.ofBits g) d a off)
  | 0x6 => some (.ldD (.ofBits g) d a off)
  | _ => none

/-- Major 0x13 (R253, R254). -/
def ofMajor13 (g : BitVec 4) (d : BitVec 5) (a : BitVec 5) (fn : BitVec 3) (off : BitVec 9) : Option Instr :=
  match fn.toNat with
  | 0x0 => some (.stB (.ofBits g) d a off)
  | 0x1 => some (.stH (.ofBits g) d a off)
  | 0x2 => some (.stW (.ofBits g) d a off)
  | 0x3 => some (.stD (.ofBits g) d a off)
  | _ => none

/-- Major 0x14 (R253, R254). -/
def ofMajor14 (d : BitVec 5) (a : BitVec 5) (b : BitVec 5) (x : BitVec 5) (fn : BitVec 6) : Option Instr :=
  match fn.toNat with
  | 0x0 => (Scope.ofBits (x.extractLsb' 0 2)).bind fun s => some (.ldAcq s d a)
  | 0x1 => (Scope.ofBits (x.extractLsb' 0 2)).bind fun s => some (.stRel s a b)
  | 0x2 => (Scope.ofBits (x.extractLsb' 0 2)).bind fun s => some (.fenceS s)
  | 0x3 => some (.pref a)
  | 0x4 => some (.seal d a b)
  | 0x5 => some (.unseal d a b)
  | _ => none

/-- Major 0x15 (R253, R254). -/
def ofMajor15 (d : BitVec 5) (a : BitVec 5) (b : BitVec 5) (x : BitVec 5) (fn : BitVec 6) : Option Instr :=
  match fn.toNat with
  | 0x0 => (Order.ofBits (x.extractLsb' 3 2)).bind fun o => (Scope.ofBits (x.extractLsb' 1 2)).bind fun s => some (.amoAdd o s (x.extractLsb' 0 1 == 1#1) d a b)
  | 0x1 => (Order.ofBits (x.extractLsb' 3 2)).bind fun o => (Scope.ofBits (x.extractLsb' 1 2)).bind fun s => some (.amoAnd o s (x.extractLsb' 0 1 == 1#1) d a b)
  | 0x2 => (Order.ofBits (x.extractLsb' 3 2)).bind fun o => (Scope.ofBits (x.extractLsb' 1 2)).bind fun s => some (.amoOr o s (x.extractLsb' 0 1 == 1#1) d a b)
  | 0x3 => (Order.ofBits (x.extractLsb' 3 2)).bind fun o => (Scope.ofBits (x.extractLsb' 1 2)).bind fun s => some (.amoXor o s (x.extractLsb' 0 1 == 1#1) d a b)
  | 0x4 => (Order.ofBits (x.extractLsb' 3 2)).bind fun o => (Scope.ofBits (x.extractLsb' 1 2)).bind fun s => some (.amoMinI o s (x.extractLsb' 0 1 == 1#1) d a b)
  | 0x5 => (Order.ofBits (x.extractLsb' 3 2)).bind fun o => (Scope.ofBits (x.extractLsb' 1 2)).bind fun s => some (.amoMaxI o s (x.extractLsb' 0 1 == 1#1) d a b)
  | 0x6 => (Order.ofBits (x.extractLsb' 3 2)).bind fun o => (Scope.ofBits (x.extractLsb' 1 2)).bind fun s => some (.amoMinN o s (x.extractLsb' 0 1 == 1#1) d a b)
  | 0x7 => (Order.ofBits (x.extractLsb' 3 2)).bind fun o => (Scope.ofBits (x.extractLsb' 1 2)).bind fun s => some (.amoMaxN o s (x.extractLsb' 0 1 == 1#1) d a b)
  | 0x8 => (Order.ofBits (x.extractLsb' 3 2)).bind fun o => (Scope.ofBits (x.extractLsb' 1 2)).bind fun s => some (.amoSwap o s (x.extractLsb' 0 1 == 1#1) d a b)
  | 0x9 => (Order.ofBits (x.extractLsb' 3 2)).bind fun o => (Scope.ofBits (x.extractLsb' 1 2)).bind fun s => some (.amoCas o s (x.extractLsb' 0 1 == 1#1) d a b)
  | 0xa => (Order.ofBits (x.extractLsb' 3 2)).bind fun o => (Scope.ofBits (x.extractLsb' 1 2)).bind fun s => some (.amoAddfx o s d a b)
  | 0xb => (Order.ofBits (x.extractLsb' 3 2)).bind fun o => (Scope.ofBits (x.extractLsb' 1 2)).bind fun s => some (.amoAddf o s d a b)
  | _ => none

/-- Major 0x16 (R253, R254). -/
def ofMajor16 (d : BitVec 5) (a : BitVec 5) (b : BitVec 5) (x : BitVec 5) (fn : BitVec 6) : Option Instr :=
  match fn.toNat with
  | 0x0 => some (.spawn d a b)
  | 0x1 => some (.push d a)
  | 0x2 => some (.pushts d a b)
  | 0x3 => some (.twait a b)
  | 0x4 => some (.commitIrr)
  | 0x5 => some (.sarm d a b)
  | 0x6 => some (.swait a b)
  | 0x7 => (Scope.ofBits (x.extractLsb' 0 2)).bind fun s => some (.sadd s a b)
  | 0x8 => (Scope.ofBits (x.extractLsb' 0 2)).bind fun s => some (.xbarArr s a b)
  | 0x9 => some (.barArr a)
  | 0xa => some (.barWait a)
  | 0xb => some (.lpatch d a b)
  | 0xc => some (.larm d a)
  | 0xd => some (.wpost d a)
  | 0xe => some (.wquery d a)
  | _ => none

/-- Major 0x17 (R253, R254). -/
def ofMajor17 (_d : BitVec 5) (a : BitVec 5) (_b : BitVec 5) (_x : BitVec 5) (fn : BitVec 6) : Option Instr :=
  match fn.toNat with
  | 0x0 => some (.cpLin a)
  | 0x1 => some (.cpBox a)
  | 0x2 => some (.cpGather a)
  | 0x3 => some (.cpScatter a)
  | 0x4 => some (.cpRemote a)
  | 0x5 => some (.cpCancel a)
  | _ => none

/-- Major 0x20 (R253, R254). -/
def ofMajor20 (g : BitVec 4) (d : BitVec 5) (a : BitVec 5) (b : BitVec 5) (qd : BitVec 1) (qa : BitVec 1) (qb : BitVec 1) (u : BitVec 1) (fn : BitVec 3) : Option Instr :=
  match fn.toNat with
  | 0x0 => some (.vaddF32 (.ofBits g) (u == 1#1) ⟨qd, d⟩ ⟨qa, a⟩ ⟨qb, b⟩)
  | 0x1 => some (.vsubF32 (.ofBits g) (u == 1#1) ⟨qd, d⟩ ⟨qa, a⟩ ⟨qb, b⟩)
  | 0x2 => some (.vmulF32 (.ofBits g) (u == 1#1) ⟨qd, d⟩ ⟨qa, a⟩ ⟨qb, b⟩)
  | 0x3 => some (.vminF32 (.ofBits g) (u == 1#1) ⟨qd, d⟩ ⟨qa, a⟩ ⟨qb, b⟩)
  | 0x4 => some (.vmaxF32 (.ofBits g) (u == 1#1) ⟨qd, d⟩ ⟨qa, a⟩ ⟨qb, b⟩)
  | 0x5 => some (.vdivF32 (.ofBits g) (u == 1#1) ⟨qd, d⟩ ⟨qa, a⟩ ⟨qb, b⟩)
  | 0x6 => some (.vfmaF32 (.ofBits g) (u == 1#1) ⟨qd, d⟩ ⟨qa, a⟩ ⟨qb, b⟩)
  | 0x7 => some (.vfmsF32 (.ofBits g) (u == 1#1) ⟨qd, d⟩ ⟨qa, a⟩ ⟨qb, b⟩)
  | _ => none

/-- Major 0x21 (R253, R254). -/
def ofMajor21 (g : BitVec 4) (d : BitVec 5) (a : BitVec 5) (b : BitVec 5) (qd : BitVec 1) (qa : BitVec 1) (qb : BitVec 1) (u : BitVec 1) (fn : BitVec 3) : Option Instr :=
  match fn.toNat with
  | 0x0 => some (.vfnmaF32 (.ofBits g) (u == 1#1) ⟨qd, d⟩ ⟨qa, a⟩ ⟨qb, b⟩)
  | 0x1 => some (.vabsF32 (.ofBits g) (u == 1#1) ⟨qd, d⟩ ⟨qa, a⟩)
  | 0x2 => some (.vnegF32 (.ofBits g) (u == 1#1) ⟨qd, d⟩ ⟨qa, a⟩)
  | 0x3 => some (.vsqrtF32 (.ofBits g) (u == 1#1) ⟨qd, d⟩ ⟨qa, a⟩)
  | 0x4 => some (.vrsqrtF32 (.ofBits g) (u == 1#1) ⟨qd, d⟩ ⟨qa, a⟩)
  | 0x5 => some (.vexp2F32 (.ofBits g) (u == 1#1) ⟨qd, d⟩ ⟨qa, a⟩)
  | 0x6 => some (.vlog2F32 (.ofBits g) (u == 1#1) ⟨qd, d⟩ ⟨qa, a⟩)
  | _ => none

/-- Major 0x22 (R253, R254). -/
def ofMajor22 (g : BitVec 4) (d : BitVec 5) (a : BitVec 5) (b : BitVec 5) (qd : BitVec 1) (qa : BitVec 1) (qb : BitVec 1) (u : BitVec 1) (fn : BitVec 3) : Option Instr :=
  match fn.toNat with
  | 0x0 => some (.vaddF16 (.ofBits g) (u == 1#1) ⟨qd, d⟩ ⟨qa, a⟩ ⟨qb, b⟩)
  | 0x1 => some (.vsubF16 (.ofBits g) (u == 1#1) ⟨qd, d⟩ ⟨qa, a⟩ ⟨qb, b⟩)
  | 0x2 => some (.vmulF16 (.ofBits g) (u == 1#1) ⟨qd, d⟩ ⟨qa, a⟩ ⟨qb, b⟩)
  | 0x3 => some (.vminF16 (.ofBits g) (u == 1#1) ⟨qd, d⟩ ⟨qa, a⟩ ⟨qb, b⟩)
  | 0x4 => some (.vmaxF16 (.ofBits g) (u == 1#1) ⟨qd, d⟩ ⟨qa, a⟩ ⟨qb, b⟩)
  | 0x5 => some (.vdivF16 (.ofBits g) (u == 1#1) ⟨qd, d⟩ ⟨qa, a⟩ ⟨qb, b⟩)
  | 0x6 => some (.vfmaF16 (.ofBits g) (u == 1#1) ⟨qd, d⟩ ⟨qa, a⟩ ⟨qb, b⟩)
  | 0x7 => some (.vfmsF16 (.ofBits g) (u == 1#1) ⟨qd, d⟩ ⟨qa, a⟩ ⟨qb, b⟩)
  | _ => none

/-- Major 0x23 (R253, R254). -/
def ofMajor23 (g : BitVec 4) (d : BitVec 5) (a : BitVec 5) (b : BitVec 5) (qd : BitVec 1) (qa : BitVec 1) (qb : BitVec 1) (u : BitVec 1) (fn : BitVec 3) : Option Instr :=
  match fn.toNat with
  | 0x0 => some (.vfnmaF16 (.ofBits g) (u == 1#1) ⟨qd, d⟩ ⟨qa, a⟩ ⟨qb, b⟩)
  | 0x1 => some (.vabsF16 (.ofBits g) (u == 1#1) ⟨qd, d⟩ ⟨qa, a⟩)
  | 0x2 => some (.vnegF16 (.ofBits g) (u == 1#1) ⟨qd, d⟩ ⟨qa, a⟩)
  | 0x3 => some (.vsqrtF16 (.ofBits g) (u == 1#1) ⟨qd, d⟩ ⟨qa, a⟩)
  | 0x4 => some (.vrsqrtF16 (.ofBits g) (u == 1#1) ⟨qd, d⟩ ⟨qa, a⟩)
  | 0x5 => some (.vexp2F16 (.ofBits g) (u == 1#1) ⟨qd, d⟩ ⟨qa, a⟩)
  | 0x6 => some (.vlog2F16 (.ofBits g) (u == 1#1) ⟨qd, d⟩ ⟨qa, a⟩)
  | _ => none

/-- Major 0x24 (R253, R254). -/
def ofMajor24 (g : BitVec 4) (d : BitVec 5) (a : BitVec 5) (b : BitVec 5) (qd : BitVec 1) (qa : BitVec 1) (qb : BitVec 1) (u : BitVec 1) (fn : BitVec 3) : Option Instr :=
  match fn.toNat with
  | 0x0 => some (.vaddBf16 (.ofBits g) (u == 1#1) ⟨qd, d⟩ ⟨qa, a⟩ ⟨qb, b⟩)
  | 0x1 => some (.vsubBf16 (.ofBits g) (u == 1#1) ⟨qd, d⟩ ⟨qa, a⟩ ⟨qb, b⟩)
  | 0x2 => some (.vmulBf16 (.ofBits g) (u == 1#1) ⟨qd, d⟩ ⟨qa, a⟩ ⟨qb, b⟩)
  | 0x3 => some (.vminBf16 (.ofBits g) (u == 1#1) ⟨qd, d⟩ ⟨qa, a⟩ ⟨qb, b⟩)
  | 0x4 => some (.vmaxBf16 (.ofBits g) (u == 1#1) ⟨qd, d⟩ ⟨qa, a⟩ ⟨qb, b⟩)
  | 0x5 => some (.vdivBf16 (.ofBits g) (u == 1#1) ⟨qd, d⟩ ⟨qa, a⟩ ⟨qb, b⟩)
  | 0x6 => some (.vfmaBf16 (.ofBits g) (u == 1#1) ⟨qd, d⟩ ⟨qa, a⟩ ⟨qb, b⟩)
  | 0x7 => some (.vfmsBf16 (.ofBits g) (u == 1#1) ⟨qd, d⟩ ⟨qa, a⟩ ⟨qb, b⟩)
  | _ => none

/-- Major 0x25 (R253, R254). -/
def ofMajor25 (g : BitVec 4) (d : BitVec 5) (a : BitVec 5) (b : BitVec 5) (qd : BitVec 1) (qa : BitVec 1) (qb : BitVec 1) (u : BitVec 1) (fn : BitVec 3) : Option Instr :=
  match fn.toNat with
  | 0x0 => some (.vfnmaBf16 (.ofBits g) (u == 1#1) ⟨qd, d⟩ ⟨qa, a⟩ ⟨qb, b⟩)
  | 0x1 => some (.vabsBf16 (.ofBits g) (u == 1#1) ⟨qd, d⟩ ⟨qa, a⟩)
  | 0x2 => some (.vnegBf16 (.ofBits g) (u == 1#1) ⟨qd, d⟩ ⟨qa, a⟩)
  | 0x3 => some (.vsqrtBf16 (.ofBits g) (u == 1#1) ⟨qd, d⟩ ⟨qa, a⟩)
  | 0x4 => some (.vrsqrtBf16 (.ofBits g) (u == 1#1) ⟨qd, d⟩ ⟨qa, a⟩)
  | 0x5 => some (.vexp2Bf16 (.ofBits g) (u == 1#1) ⟨qd, d⟩ ⟨qa, a⟩)
  | 0x6 => some (.vlog2Bf16 (.ofBits g) (u == 1#1) ⟨qd, d⟩ ⟨qa, a⟩)
  | _ => none

/-- Major 0x26 (R253, R254). -/
def ofMajor26 (g : BitVec 4) (d : BitVec 5) (a : BitVec 5) (b : BitVec 5) (qd : BitVec 1) (qa : BitVec 1) (qb : BitVec 1) (u : BitVec 1) (fn : BitVec 3) : Option Instr :=
  match fn.toNat with
  | 0x0 => some (.vaddI32 (.ofBits g) (u == 1#1) ⟨qd, d⟩ ⟨qa, a⟩ ⟨qb, b⟩)
  | 0x1 => some (.vsubI32 (.ofBits g) (u == 1#1) ⟨qd, d⟩ ⟨qa, a⟩ ⟨qb, b⟩)
  | 0x2 => some (.vmulI32 (.ofBits g) (u == 1#1) ⟨qd, d⟩ ⟨qa, a⟩ ⟨qb, b⟩)
  | 0x3 => some (.vminI32 (.ofBits g) (u == 1#1) ⟨qd, d⟩ ⟨qa, a⟩ ⟨qb, b⟩)
  | 0x4 => some (.vmaxI32 (.ofBits g) (u == 1#1) ⟨qd, d⟩ ⟨qa, a⟩ ⟨qb, b⟩)
  | 0x5 => some (.vminN32 (.ofBits g) (u == 1#1) ⟨qd, d⟩ ⟨qa, a⟩ ⟨qb, b⟩)
  | 0x6 => some (.vmaxN32 (.ofBits g) (u == 1#1) ⟨qd, d⟩ ⟨qa, a⟩ ⟨qb, b⟩)
  | 0x7 => some (.vabsI32 (.ofBits g) (u == 1#1) ⟨qd, d⟩ ⟨qa, a⟩)
  | _ => none

/-- Major 0x27 (R253, R254). -/
def ofMajor27 (g : BitVec 4) (d : BitVec 5) (a : BitVec 5) (b : BitVec 5) (qd : BitVec 1) (qa : BitVec 1) (qb : BitVec 1) (u : BitVec 1) (fn : BitVec 3) : Option Instr :=
  match fn.toNat with
  | 0x0 => some (.vaddI64 (.ofBits g) (u == 1#1) ⟨qd, d⟩ ⟨qa, a⟩ ⟨qb, b⟩)
  | 0x1 => some (.vsubI64 (.ofBits g) (u == 1#1) ⟨qd, d⟩ ⟨qa, a⟩ ⟨qb, b⟩)
  | 0x2 => some (.vmulI64 (.ofBits g) (u == 1#1) ⟨qd, d⟩ ⟨qa, a⟩ ⟨qb, b⟩)
  | 0x3 => some (.vminI64 (.ofBits g) (u == 1#1) ⟨qd, d⟩ ⟨qa, a⟩ ⟨qb, b⟩)
  | 0x4 => some (.vmaxI64 (.ofBits g) (u == 1#1) ⟨qd, d⟩ ⟨qa, a⟩ ⟨qb, b⟩)
  | 0x5 => some (.vminN64 (.ofBits g) (u == 1#1) ⟨qd, d⟩ ⟨qa, a⟩ ⟨qb, b⟩)
  | 0x6 => some (.vmaxN64 (.ofBits g) (u == 1#1) ⟨qd, d⟩ ⟨qa, a⟩ ⟨qb, b⟩)
  | 0x7 => some (.vabsI64 (.ofBits g) (u == 1#1) ⟨qd, d⟩ ⟨qa, a⟩)
  | _ => none

/-- Major 0x28 (R253, R254). -/
def ofMajor28 (g : BitVec 4) (d : BitVec 5) (a : BitVec 5) (b : BitVec 5) (qd : BitVec 1) (qa : BitVec 1) (qb : BitVec 1) (u : BitVec 1) (fn : BitVec 3) : Option Instr :=
  match fn.toNat with
  | 0x0 => some (.vnegI32 (.ofBits g) (u == 1#1) ⟨qd, d⟩ ⟨qa, a⟩)
  | 0x1 => some (.vshlI32 (.ofBits g) (u == 1#1) ⟨qd, d⟩ ⟨qa, a⟩ ⟨qb, b⟩)
  | 0x2 => some (.vshrI32 (.ofBits g) (u == 1#1) ⟨qd, d⟩ ⟨qa, a⟩ ⟨qb, b⟩)
  | 0x3 => some (.vshrN32 (.ofBits g) (u == 1#1) ⟨qd, d⟩ ⟨qa, a⟩ ⟨qb, b⟩)
  | 0x4 => some (.vnegI64 (.ofBits g) (u == 1#1) ⟨qd, d⟩ ⟨qa, a⟩)
  | 0x5 => some (.vshlI64 (.ofBits g) (u == 1#1) ⟨qd, d⟩ ⟨qa, a⟩ ⟨qb, b⟩)
  | 0x6 => some (.vshrI64 (.ofBits g) (u == 1#1) ⟨qd, d⟩ ⟨qa, a⟩ ⟨qb, b⟩)
  | 0x7 => some (.vshrN64 (.ofBits g) (u == 1#1) ⟨qd, d⟩ ⟨qa, a⟩ ⟨qb, b⟩)
  | _ => none

/-- Major 0x29 (R253, R254). -/
def ofMajor29 (g : BitVec 4) (d : BitVec 5) (a : BitVec 5) (b : BitVec 5) (qd : BitVec 1) (qa : BitVec 1) (qb : BitVec 1) (u : BitVec 1) (fn : BitVec 3) : Option Instr :=
  match fn.toNat with
  | 0x0 => some (.vand (.ofBits g) (u == 1#1) ⟨qd, d⟩ ⟨qa, a⟩ ⟨qb, b⟩)
  | 0x1 => some (.vor (.ofBits g) (u == 1#1) ⟨qd, d⟩ ⟨qa, a⟩ ⟨qb, b⟩)
  | 0x2 => some (.vxor (.ofBits g) (u == 1#1) ⟨qd, d⟩ ⟨qa, a⟩ ⟨qb, b⟩)
  | 0x3 => some (.vnot (.ofBits g) (u == 1#1) ⟨qd, d⟩ ⟨qa, a⟩)
  | 0x4 => some (.vmov (.ofBits g) (u == 1#1) ⟨qd, d⟩ ⟨qa, a⟩)
  | 0x5 => some (.vperm (.ofBits g) (u == 1#1) ⟨qd, d⟩ ⟨qa, a⟩ ⟨qb, b⟩)
  | 0x6 => some (.vshuf (.ofBits g) (u == 1#1) ⟨qd, d⟩ ⟨qa, a⟩ ⟨qb, b⟩)
  | 0x7 => some (.vbcast (.ofBits g) ⟨qd, d⟩ a)
  | _ => none

/-- Major 0x2a (R253, R254). -/
def ofMajor2A (g : BitVec 4) (d : BitVec 5) (a : BitVec 5) (b : BitVec 5) (qd : BitVec 1) (qa : BitVec 1) (qb : BitVec 1) (u : BitVec 1) (fn : BitVec 3) : Option Instr :=
  match fn.toNat with
  | 0x0 => some (.vsel (u == 1#1) ⟨qd, d⟩ ⟨qa, a⟩ ⟨qb, b⟩ (g.extractLsb' 0 3))
  | _ => none

/-- Major 0x2b (R253, R254). -/
def ofMajor2B (g : BitVec 4) (pd : BitVec 3) (a : BitVec 5) (b : BitVec 5) (qa : BitVec 1) (qb : BitVec 1) (cc : BitVec 3) (t : BitVec 3) (u : BitVec 1) : Option Instr :=
  (Cc.ofBits (0#1 ++ cc)).bind fun cc => (VType.ofBits t).bind fun t => some (.vcmp (.ofBits g) cc t (u == 1#1) pd ⟨qa, a⟩ ⟨qb, b⟩)

/-- Major 0x2c (R253, R254). -/
def ofMajor2C (g : BitVec 4) (d : BitVec 5) (a : BitVec 5) (qd : BitVec 1) (qa : BitVec 1) (u : BitVec 1) (t : BitVec 3) (fn : BitVec 3) (_z : BitVec 3) : Option Instr :=
  match fn.toNat with
  | 0x0 => (VType.ofBits t).bind fun t => some (.vredsum (.ofBits g) t (u == 1#1) d ⟨qa, a⟩)
  | 0x1 => (VType.ofBits t).bind fun t => some (.vredmax (.ofBits g) t (u == 1#1) d ⟨qa, a⟩)
  | 0x2 => (VType.ofBits t).bind fun t => some (.vredmin (.ofBits g) t (u == 1#1) d ⟨qa, a⟩)
  | 0x3 => (VType.ofBits t).bind fun t => some (.vscan (.ofBits g) t (u == 1#1) ⟨qd, d⟩ ⟨qa, a⟩)
  | 0x4 => some (.vhist (.ofBits g) (u == 1#1) ⟨qd, d⟩ ⟨qa, a⟩)
  | 0x5 => (VType.ofBits t).bind fun t => some (.vflip (.ofBits g) t (u == 1#1) ⟨qd, d⟩ ⟨qa, a⟩)
  | _ => none

/-- Major 0x2d (R253, R254). -/
def ofMajor2D (g : BitVec 4) (d : BitVec 5) (a : BitVec 5) (qd : BitVec 1) (s : BitVec 1) (off : BitVec 10) : Option Instr :=
  if s = 0#1 then some (.vld (.ofBits g) ⟨qd, d⟩ a off) else some (.vst (.ofBits g) ⟨qd, d⟩ a off)

/-- Major 0x2e (R253, R254). -/
def ofMajor2E (g : BitVec 4) (d : BitVec 5) (a : BitVec 5) (b : BitVec 5) (qd : BitVec 1) (qb : BitVec 1) (esz : BitVec 2) (fn : BitVec 3) : Option Instr :=
  match fn.toNat with
  | 0x0 => (Esz.ofBits esz).bind fun e => some (.vldx (.ofBits g) e ⟨qd, d⟩ a ⟨qb, b⟩)
  | 0x1 => (Esz.ofBits esz).bind fun e => some (.vstx (.ofBits g) e ⟨qd, d⟩ a ⟨qb, b⟩)
  | 0x2 => (Esz.ofBits esz).bind fun e => some (.vldb (.ofBits g) e ⟨qd, d⟩ a)
  | _ => none

/-- Major 0x2f (R253, R254). -/
def ofMajor2F (g : BitVec 4) (d : BitVec 5) (a : BitVec 5) (c : BitVec 4) (sat : BitVec 1) (qd : BitVec 1) (qa : BitVec 1) (rnd : BitVec 3) (tgt : BitVec 2) : Option Instr :=
  (NarrowFp.ofBits tgt).bind fun tgt => (Rnd.ofBits rnd).bind fun rnd => some (.vcvtNarrowFp (.ofBits g) tgt rnd (sat == 1#1) ⟨qd, d⟩ ⟨qa, a⟩ c)

/-- Major 0x30 (R253, R254). -/
def ofMajor30 (g : BitVec 4) (d : BitVec 5) (a : BitVec 5) (c : BitVec 4) (sat : BitVec 1) (qd : BitVec 1) (qa : BitVec 1) (rnd : BitVec 3) (tgt : BitVec 2) : Option Instr :=
  (NarrowInt.ofBits tgt).bind fun tgt => (Rnd.ofBits rnd).bind fun rnd => some (.vcvtNarrowInt (.ofBits g) tgt rnd (sat == 1#1) ⟨qd, d⟩ ⟨qa, a⟩ c)

/-- Major 0x31 (R253, R254). -/
def ofMajor31 (g : BitVec 4) (d : BitVec 5) (a : BitVec 5) (qd : BitVec 1) (qa : BitVec 1) (fr : BitVec 3) (rnd : BitVec 3) (_z : BitVec 4) : Option Instr :=
  (WidenFrom.ofBits fr).bind fun fr => (Rnd.ofBits rnd).bind fun rnd => some (.vcvtWiden (.ofBits g) fr rnd ⟨qd, d⟩ ⟨qa, a⟩)

/-- Major 0x32 (R253, R254). -/
def ofMajor32 (g : BitVec 4) (d : BitVec 5) (a : BitVec 5) (qd : BitVec 1) (qa : BitVec 1) (dir : BitVec 1) (rnd : BitVec 3) (_z : BitVec 6) : Option Instr :=
  if dir = 0#1 then (Rnd.ofBits rnd).bind fun rnd => some (.vcvtFxToFx128 (.ofBits g) rnd ⟨qd, d⟩ ⟨qa, a⟩) else some (.vcvtFxFromFx128 (.ofBits g) ⟨qd, d⟩ ⟨qa, a⟩)

/-- Major 0x33 (R253, R254). -/
def ofMajor33 (g : BitVec 4) (d : BitVec 5) (a : BitVec 5) (c : BitVec 5) (qa : BitVec 1) (blk : BitVec 3) (rnd : BitVec 3) : Option Instr :=
  (Blk.ofBits blk).bind fun blk => (Rnd.ofBits rnd).bind fun rnd => some (.vqMx (.ofBits g) blk rnd d ⟨qa, a⟩ c)

/-- Major 0x34 (R253, R254). -/
def ofMajor34 (g : BitVec 4) (d : BitVec 5) (a : BitVec 5) (c : BitVec 5) (qd : BitVec 1) (blk : BitVec 3) (_z : BitVec 3) : Option Instr :=
  (Blk.ofBits blk).bind fun blk => some (.vdqMx (.ofBits g) blk ⟨qd, d⟩ a c)

/-- Major 0x35 (R253, R254). -/
def ofMajor35 (idx : BitVec 6) (a : BitVec 5) (off : BitVec 15) : Option Instr :=
  some (.tload idx a off)

/-- Major 0x36 (R253, R254). -/
def ofMajor36 (idx : BitVec 6) (sel : BitVec 4) (val : BitVec 16) : Option Instr :=
  some (.tx idx sel val)

/-- Major 0x37 (R253, R254). -/
def ofMajor37 (idx : BitVec 6) (sel : BitVec 4) (a : BitVec 5) (_z : BitVec 11) : Option Instr :=
  some (.tgang idx sel a)

/-- Major 0x38 (R253, R254). -/
def ofMajor38 (_d : BitVec 5) (a : BitVec 5) (b : BitVec 5) (_x : BitVec 5) (fn : BitVec 6) : Option Instr :=
  match fn.toNat with
  | 0x0 => some (.tfetch a b)
  | 0x1 => some (.tstream a b)
  | 0x2 => some (.tgather a b)
  | 0x3 => some (.tdrain a b)
  | 0x4 => some (.tred a b)
  | _ => none

/-- Major 0x39 (R253, R254). -/
def ofMajor39 (d : BitVec 5) (a : BitVec 5) (b : BitVec 5) (_x : BitVec 5) (fn : BitVec 6) : Option Instr :=
  match fn.toNat with
  | 0x0 => some (.prowGet d a)
  | 0x1 => some (.prowSet a b)
  | 0x2 => some (.prowClr a b)
  | _ => none

/-- Major 0x3a (R253, R254). -/
def ofMajor3A (d : BitVec 5) (a : BitVec 5) (b : BitVec 5) (_x : BitVec 5) (fn : BitVec 6) : Option Instr :=
  match fn.toNat with
  | 0x0 => some (.xsync)
  | 0x1 => some (.xsend a b)
  | 0x2 => some (.xmux a)
  | 0x3 => some (.xrecv a b)
  | 0x4 => some (.xvote d a)
  | 0x5 => some (.xred a b)
  | 0x6 => some (.xdom d a)
  | 0x7 => some (.xarmAt a b)
  | 0x8 => some (.wtake d a)
  | _ => none

/-- Major 0x3f (R253, R254). -/
def ofMajor3F (d : BitVec 5) (a : BitVec 5) (b : BitVec 5) (x : BitVec 5) (fn : BitVec 6) : Option Instr :=
  match fn.toNat with
  | 0x0 => some (.krd d (b ++ x))
  | 0x1 => some (.kwr a (b ++ x))
  | 0x2 => some (.eret)
  | 0x3 => some (.idle)
  | 0x4 => some (.ovl a b)
  | 0x5 =>
    match x.toNat with
    | 0 => some (.tlbiVa a b)
    | 1 => some (.tlbiAsid a)
    | 2 => some (.tlbiAll)
    | _ => none
  | _ => none

/-- The instruction of a word's fields; none where a sub-opcode or a code is reserved (R251, R254). -/
def Fields.instr : Fields → Option Instr
  | .rr _ g d a b fn => ofMajor01 g d a b fn
  | .mr maj g d a fn off =>
    match maj.toNat with
    | 0x12 => ofMajor12 g d a fn off
    | 0x13 => ofMajor13 g d a fn off
    | _ => none
  | .ri maj d a imm =>
    match maj.toNat with
    | 0x02 => ofMajor02 d a imm
    | 0x03 => ofMajor03 d a imm
    | 0x04 => ofMajor04 d a imm
    | 0x05 => ofMajor05 d a imm
    | 0x07 => ofMajor07 d a imm
    | _ => none
  | .rl maj d imm =>
    match maj.toNat with
    | 0x06 => ofMajor06 d imm
    | 0x08 => ofMajor08 d imm
    | _ => none
  | .bf _ d a pos len fn => ofMajor09 d a pos len fn
  | .j maj off =>
    match maj.toNat with
    | 0x0a => ofMajor0A off
    | 0x0b => ofMajor0B off
    | _ => none
  | .bc _ a cc off => ofMajor0C a cc off
  | .bx _ a b cc off => ofMajor0D a b cc off
  | .lp maj lvl rot cnt len =>
    match maj.toNat with
    | 0x0f => ofMajor0F lvl rot cnt len
    | 0x10 => ofMajor10 lvl rot cnt len
    | _ => none
  | .sc maj d a b x fn =>
    match maj.toNat with
    | 0x0e => ofMajor0E d a b x fn
    | 0x11 => ofMajor11 d a b x fn
    | 0x14 => ofMajor14 d a b x fn
    | 0x15 => ofMajor15 d a b x fn
    | 0x16 => ofMajor16 d a b x fn
    | 0x17 => ofMajor17 d a b x fn
    | 0x38 => ofMajor38 d a b x fn
    | 0x39 => ofMajor39 d a b x fn
    | 0x3a => ofMajor3A d a b x fn
    | 0x3f => ofMajor3F d a b x fn
    | _ => none
  | .vv maj g d a b qd qa qb u fn =>
    match maj.toNat with
    | 0x20 => ofMajor20 g d a b qd qa qb u fn
    | 0x21 => ofMajor21 g d a b qd qa qb u fn
    | 0x22 => ofMajor22 g d a b qd qa qb u fn
    | 0x23 => ofMajor23 g d a b qd qa qb u fn
    | 0x24 => ofMajor24 g d a b qd qa qb u fn
    | 0x25 => ofMajor25 g d a b qd qa qb u fn
    | 0x26 => ofMajor26 g d a b qd qa qb u fn
    | 0x27 => ofMajor27 g d a b qd qa qb u fn
    | 0x28 => ofMajor28 g d a b qd qa qb u fn
    | 0x29 => ofMajor29 g d a b qd qa qb u fn
    | 0x2a => ofMajor2A g d a b qd qa qb u fn
    | _ => none
  | .vc _ g pd a b qa qb cc t u => ofMajor2B g pd a b qa qb cc t u
  | .vr _ g d a qd qa u t fn z => ofMajor2C g d a qd qa u t fn z
  | .vm _ g d a qd s off => ofMajor2D g d a qd s off
  | .vx _ g d a b qd qb esz fn => ofMajor2E g d a b qd qb esz fn
  | .cn maj g d a c sat qd qa rnd tgt =>
    match maj.toNat with
    | 0x2f => ofMajor2F g d a c sat qd qa rnd tgt
    | 0x30 => ofMajor30 g d a c sat qd qa rnd tgt
    | _ => none
  | .cw _ g d a qd qa fr rnd z => ofMajor31 g d a qd qa fr rnd z
  | .fx _ g d a qd qa dir rnd z => ofMajor32 g d a qd qa dir rnd z
  | .qx _ g d a c qa blk rnd => ofMajor33 g d a c qa blk rnd
  | .dq _ g d a c qd blk z => ofMajor34 g d a c qd blk z
  | .tl _ idx a off => ofMajor35 idx a off
  | .tx _ idx sel val => ofMajor36 idx sel val
  | .tg _ idx sel a z => ofMajor37 idx sel a z

/-- Why a word is no instruction (R247, check 1). -/
inductive DecodeError where
  /-- The word 0x0000_0000. -/
  | zeroWord
  /-- An unassigned major. -/
  | unassignedMajor
  /-- A reserved sub-opcode or code. -/
  | reservedCode
  /-- An operand outside the limits of R250 to R252. -/
  | outsideLimits
  /-- A nonzero reserved or unused field, or a Q bit on a field that names no vector operand. -/
  | reservedField
deriving DecidableEq, Repr

/-- The word of an encoded instruction (R249, R254); zero for an event, which has no word. -/
def encode (i : Instr) : BitVec 32 :=
  match fieldsOf i with
  | some f => f.pack
  | none => 0#32

/-- The instruction of a word, or why there is none (R247, check 1). -/
def decode (w : BitVec 32) : Except DecodeError Instr :=
  if w = 0#32 then .error .zeroWord
  else match unpack w with
  | none => .error .unassignedMajor
  | some f =>
    match f.instr with
    | none => .error .reservedCode
    | some i =>
      if wellFormed i = false then .error .outsideLimits
      else if encode i = w then .ok i
      else .error .reservedField

/-- The instruction of the four bytes of a little-endian word, the first byte lowest (R7). -/
def decodeBytes (b0 b1 b2 b3 : Byte) : Except DecodeError Instr :=
  decode (b3 ++ (b2 ++ (b1 ++ b0)))

/-- The instruction whose bits, numbered as spec/opcode_table.json numbers them, are `w`: bit 0 is the least
significant bit of the one word an instruction has, laid out little-endian (R7). An event has no bits, and no
number of bits but 32 is an instruction. -/
def decodeTableWord (nbits w : Nat) : Option Instr :=
  if nbits ≠ 32 then none
  else match decodeBytes (.ofNat 8 w) (.ofNat 8 (w >>> 8)) (.ofNat 8 (w >>> 16)) (.ofNat 8 (w >>> 24)) with
  | .ok i => some i
  | .error _ => none

end Sys2Proof
end

