-- ==== Sys2Proof/Config.lean ====
section
/-!
DEFINITION. What the spec leaves open, as constants without a body: nothing in Lean can evaluate them, so a theorem
holds for every value they may have. Each is applied to the counter `State.fresh`, or to the data it depends on.
-/
namespace Sys2Proof.Config

/-- The wait hint H of a refusal (spec/02_memory_hierarchy.md R78): the slice's own estimate (log 7). -/
opaque waitHint : Nat → BitVec 8
/-- The number of ck an L2 fill from the second tier or from host memory takes (R102, R494), unbounded (log 7). -/
opaque farLatency : Nat → Nat
/-- A data response of CXL that comes in a ck carries poison for a 64-byte granule (R456; log 132). -/
opaque poison : Nat → Nat → Bool
/-- The memory errors that ECC corrects in a ck, which the dump counts (R431; log 132). -/
opaque corrected : Nat → BitVec 32
/-- The syndrome of a memory error that ECC cannot correct, by its address (R432; log 34). -/
opaque eccSyndrome : Nat → Nat
/-- The memory installed at a Type 3 port, in units of 512 MiB (R13; log 92). -/
opaque tierUnits : Nat → Nat
/-- The extent of the torus in a dimension, as firmware sets it at boot (R433; log 14). -/
opaque torusExtent : Nat → Nat
/-- The place of the package in a dimension of the torus, as firmware sets it at boot (R203, R433; log 14). -/
opaque torusPlace : Nat → Nat
/-- The rank entries of the scale-out job that the host asks of firmware: the rank, its fabric address, whether it takes ROD, its
MTU (0, 1 or another for 2, 4 or 8 KiB) and the permitted ports (R450; log 92). -/
opaque jobRanks : List (Nat × Nat × Bool × Nat × BitVec 2)
/-- The rank of the package in the scale-out job (R450; log 92). -/
opaque jobPlace : Nat
/-- Which of the entries that may go makes room in a set or a translation cache (R31, R71; log 8). -/
opaque victim : Nat → Nat
/-- The ck that contention adds to a message's time on the mesh (R64, R90; log 10). -/
opaque traffic : Nat → Nat
/-- The ck that a commit-front message takes to a core, before it is taken modulo 500 (R92, R178; log 122). -/
opaque frontDelay : Nat → Nat
/-- Refresh or row management takes a dynamic slot of a pseudo-channel, given the channel and the index of the slot (R98,
R100; log 95). -/
opaque housekeeping : Nat → Nat → Bool
/-- The row of a line of HBM among the address bits 38:21 that hold its row and its column (R95, R100; log 95). -/
opaque rowOf : Nat → Nat
/-- Where the writes of a piece begin, so that of elements that name the same bytes any may be written last (R140; log
10). -/
opaque copyWinner : Nat → Nat
/-- Which of the HBM landings that reach one bank of a tile in one ck takes effect first, by their numbers (R69; log 62). -/
opaque landTurn : Nat → Nat
/-- Whether the core preloads at a decoded `tend` (R218: it may; log 18). -/
opaque preloads : Nat → Bool
/-- What a load of the replica region reads (R16, R159; log 31). -/
opaque replica : Nat → Nat
/-- The set of the replica region in which a sealed line of an ASID stands, before it is taken modulo the number of sets (R159;
log 31). -/
opaque replicaSet : Nat → Nat → Nat

/-- The palette bank of the place where the replication engine keeps a sealed line, modulo 16 (R62, R159; log 31). -/
opaque replicaBank : Nat → Nat → Nat
/-- The bytes of save area that a launch needs, from its clusters and its tiles (R415, R461; log 32). -/
opaque saveSize : Nat → Nat → BitVec 64
/-- A byte that the 9200 writes into memory and whose value the spec does not state: of a save area, a dump record, or an
SPDM response (R415, R431, R467; log 32). -/
opaque byteAt : Nat → Nat → BitVec 8
/-- The records of a fatal dump of a TYPE from 0x0004 to 0x0008, over the data that the spec says they hold: how many, the
WHERE of each, and its body, whose layout the spec does not state (R432; log 34). -/
opaque dumpExtra : Nat → List Nat → Nat → List (BitVec 64 × List (BitVec 8))
/-- The check of an RSASSA-PSS signature: key, message and signature (R466; log 12). -/
opaque rsaValid : List (BitVec 8) → List (BitVec 8) → List (BitVec 8) → Bool
/-- The check of an SLH-DSA signature: key, message and signature (R466; log 12). -/
opaque slhValid : List (BitVec 8) → List (BitVec 8) → List (BitVec 8) → Bool
/-- SHA-384 (R466, R467; log 12). -/
opaque sha384 : List (BitVec 8) → BitVec 384
/-- The body of a response of SPDM to a request over the measurement blocks (R467; log 12). -/
opaque spdm : List (BitVec 8) → List (List (BitVec 8)) → List (BitVec 8)
/-- The digest of the boot ROM (R467; log 12). -/
opaque romDigest : BitVec 384
/-- The alias key of an algorithm (0 RSASSA-PSS 3072, 1 SLH-DSA), which derives at boot from a device secret and block 1 (R467; log
12). -/
opaque aliasKey : Nat → BitVec 384 → List (BitVec 8)
/-- A signature of an algorithm with a key (R467; log 12). -/
opaque sign : Nat → List (BitVec 8) → List (BitVec 8) → List (BitVec 8)

end Sys2Proof.Config
end

