-- ==== Sys2Proof/Machine/State.lean ====
section
/-!
DEFINITION. The state of the Abatos 9200 as plain data: the registers of every core slot and tile, the memory of the
package, the L2 slices, translation caches, copies, launches, barrier domains, links and queues, with the value each
has after reset. Every field cites the rule of spec/ that names it. Tables are lists of key and value pairs with
rising keys; an unlisted key reads as that table's default.
-/
namespace Sys2Proof.Machine

/-- A table from numbers to values, its keys strictly rising. -/
abbrev Tbl (α : Type) := List (Nat × α)

/-! ### The registers of one instruction stream -/

/-- One loop level: `lcnt`, `lbeg` and `lend` (R277). -/
structure Level where
  cnt : Word
  lcd : BitVec 16
  act : Bool
  rot : Bool
  sm1 : BitVec 3
  beg : BitVec 23
  fin : BitVec 23
deriving DecidableEq, Repr

/-- A level after reset and at task start (R277, R207). -/
def Level.zero : Level := ⟨0, 0, false, false, 0, 0, 0⟩

/-- The loop state that trap entry and user-interrupt entry save (R292). -/
structure LoopSave where
  lv : Vector Level 4
  qrb : BitVec 8
  stg : BitVec 8
  lam : Word
  cdep : BitVec 16
  ild : BitVec 16
deriving DecidableEq, Repr

/-- The registers of a core thread slot or a tile sequencer (R241, R272, R274, R289, R403, R404, R116, R246). -/
structure Hart where
  /-- `g0` to `g31`; `g0` reads zero (R242). -/
  g : Vector Word 32
  /-- `v0` to `v31`; a core slot uses bits 511:0. -/
  v : Vector VWord 32
  /-- `p0` to `p7`; `p0` reads all ones (R242). -/
  p : Vector Word 8
  pc : BitVec 23
  lv : Vector Level 4
  qrb : BitVec 8
  qa : BitVec 9
  /-- ABASE (R289). -/
  abase : BitVec 9
  stg : BitVec 8
  lam : Word
  cdep : BitVec 16
  ild : BitVec 16
  /-- `k.nst` bits 6:0 (R116). -/
  nst : BitVec 7
  /-- `k.cause` (R403). -/
  cause : Word
  /-- `k.epc` bits 22:0 (R404). -/
  epc : BitVec 23
  /-- The register that the reuse latch is tagged with: a `v` register, or a physical q register (R246). -/
  latch : Option (Bool × Nat)
deriving DecidableEq, Repr

/-- The registers after reset (R277, R116, R403; the rest log 1). -/
def Hart.reset : Hart :=
  { g := Vector.replicate 32 0, v := Vector.replicate 32 0, p := Vector.replicate 8 0, pc := 0,
    lv := Vector.replicate 4 Level.zero, qrb := 0, qa := 0, abase := 0, stg := 0, lam := 0, cdep := 0, ild := 0,
    nst := 0, cause := 0, epc := 0, latch := none }

/-- The saved loop state after reset (log 1). -/
def LoopSave.reset : LoopSave := ⟨Vector.replicate 4 Level.zero, 0, 0, 0, 0, 0⟩

/-! ### Tasks and thread slots -/

/-- The state of a thread slot (R208). -/
inductive SlotSt where
  | idle | running | waiting | committing | suspended
deriving DecidableEq, Repr

/-- When a wait of a tile raises the hold line of its domain (R361). -/
inductive Hold where
  | never | exchange | always
deriving DecidableEq, Repr

/-- What a waiting slot or tile waits for (R208, R361). On the event it waits for, the slot runs again and its instruction is
issued anew, unless the event completes it. -/
inductive Wait where
  /-- Nothing. -/
  | none
  /-- A request in `State.reqs`. -/
  | request (id : Nat)
  /-- A walk of the page with this virtual address. -/
  | walk (va : Nat)
  /-- `tyield`, until the slots of the core with these numbers have issued. -/
  | yield (others : List Nat)
  /-- `idle`. -/
  | idle
  /-- A phase of the sync word at this physical address. -/
  | sync (pa : Nat)
  /-- A phase of the transaction barrier at this physical address, with or without a watch. -/
  | txn (pa : Nat) (watched : Bool)
  /-- A barrier of a domain. -/
  | barrier (dom : Nat) (target : Nat)
  /-- Commit of the task: at its end, at an overflow, before an instruction that performs `commit.irr` first, or before
  a run that starts irrevocable (R189). -/
  | commit
  /-- `commit.irr` itself. -/
  | irr
  /-- The answer to a `spawn`, which writes this register. -/
  | spawn (d : Reg)
  /-- The acknowledgment of a posted window record. -/
  | post (dom wid : Nat)
  /-- The acknowledgment of an invalidation; a lookup that it holds back names its address and access kind. -/
  | inval (id va kind : Nat)
  /-- Room in a deque for a record that a create instruction has checked, with its result register and the status of an
  inline run (R212). -/
  | deque (d : Reg) (r : TaskRec) (status : Nat)
  /-- Room in the copy unit of the core (R133). -/
  | copyUnit
  /-- The end of a change of the cluster map. -/
  | change
  /-- The updates that the slot has sent, until their places have applied them (R168, R169, R309). -/
  | updates
  /-- A palette bank that another access uses in this ck (R62); the slot tries again in the next. -/
  | bank
  /-- A retry of a request outside the slices, at the given ck. -/
  | retry (at_ : Nat)
  /-- The tile tries its instruction again in the next ck; whether the wait raises the hold line (R361). -/
  | stall (hold : Hold)
  /-- `wtake`, until the delivery of a window of a domain (R401). -/
  | window (dom wid : Nat)
  /-- Nothing any more: a fault that could not be entered stopped the slot (R407). -/
  | stopped
deriving DecidableEq, Repr

/-- Whether the running task is free, speculative or irrevocable (R174, R175, R186). -/
inductive Spec where
  | free | speculative | irrevocable
deriving DecidableEq, Repr

/-- The page a buffered store translated through: its virtual page, ASID and G bit (R58). -/
structure PageTag where
  va : Nat
  bits : Nat
  asid : BitVec 16
  glob : Bool
deriving DecidableEq, Repr

/-- The operation of an atomic (R254). -/
inductive AmoOp where
  | add | and | or | xor | minI | maxI | minN | maxN | swap | cas | addfx | addf
deriving DecidableEq, Repr

/-- One buffered effect of a speculative task, in program order (R58, R175). -/
inductive BufOp where
  /-- A store of bytes from `pa`; `none` is a byte that its mask leaves out. -/
  | store (pa : Nat) (bytes : List (Option Byte)) (page : Option PageTag)
  /-- A deferred atomic with destination `g0`. -/
  | atom (pa : Nat) (op : AmoOp) (w : Bool) (a b : Word) (page : Option PageTag)
deriving DecidableEq, Repr

/-- A held operation: its instruction, its operand values, and the record that a `sarm` copied (R175, R304). -/
structure Held where
  ins : Instr
  a : Word
  b : Word
  c : Word
  rcd : Option TaskRec
  /-- The page that its address translated through (R36; log 104). -/
  page : Option PageTag
deriving DecidableEq, Repr

/-- An event that a slot takes at its next boundary (R406). -/
inductive Due where
  | budget | queueOverflow | preempt
deriving DecidableEq, Repr

/-- What a slot held before an event that it took at a boundary in a ck (R406): the ck, the bytes of its trap frame, `k.cause`,
the events due, `k.xfer` and the queued user interrupts. -/
structure Undo where
  ck : Nat
  frame : List Byte
  cause : Word
  due : List Due
  xfer : Word
  uiq : List (Word × Word)
deriving DecidableEq, Repr

/-- A core thread slot besides its `Hart` (R208 and the rules cited). -/
structure Slot where
  h : Hart
  st : SlotSt
  wait : Wait
  /-- `k.tid` TID and LC (R207). -/
  tid : BitVec 16
  lc : Bool
  /-- `k.ts` and `k.dom` (R174). -/
  ts : BitVec 32
  dom : BitVec 4
  /-- `k.budget` and the ck counted within a unit (R220). -/
  budEn : Bool
  budLeft : BitVec 32
  budCk : Nat
  /-- `k.xfer`, `k.uih` (R153, R154) and the user-interrupt queue (R152). -/
  xfer : Word
  uih : Word
  uiq : List (Word × Word)
  /-- `k.ovh` (R298). -/
  ovh : Word
  /-- The barrier pair (R328). -/
  pair : Option (Nat × Nat)
  /-- Trap save area and user-interrupt save area (R292, R414). -/
  trapSave : LoopSave
  uiSave : LoopSave
  /-- The record of the task that runs, its run serial, and its launch (R205, R207). -/
  task : Option TaskRec
  ser : BitVec 32
  spec : Spec
  /-- Consecutive aborts (R189), and whether the last was a data error (R188). -/
  aborts : Nat
  dataAborted : Bool
  /-- The read signature, low and high half (R176). -/
  sigLo : BitVec 1024
  sigHi : BitVec 1024
  /-- Buffered effects and held operations, oldest first (R58, R175). -/
  buf : List BufOp
  held : List Held
  /-- The preload buffer (R218). -/
  preload : Option TaskRec
  due : List Due
  /-- The result registers and statuses of the creates whose children run inline, innermost first (R217). -/
  inl : List (Reg × Nat)
  /-- The updates that the slot has sent and no place has applied (R169, R309). -/
  out : Nat
  /-- A taken transfer leaves the next ck without issue (R273, R286). -/
  gap : Bool
  /-- The offset of the second instruction of the issue group whose first has issued (R244). -/
  second : Option (BitVec 23)
  /-- What the last event taken at a boundary replaced, which an abort in the same ck brings back (R406). -/
  undo : Option Undo
  /-- The domain time and the ck of the fault that stopped the slot (R431). -/
  raised : Nat × Nat
deriving DecidableEq, Repr

/-- A slot after reset (R403, R277, R220, R153, R298; log 1). -/
def Slot.reset : Slot :=
  { h := Hart.reset, st := .idle, wait := .none, tid := 0, lc := false, ts := 0, dom := 0, budEn := false,
    budLeft := 0, budCk := 0, xfer := 0, uih := 0, uiq := [], ovh := 0, pair := none, trapSave := .reset,
    uiSave := .reset, task := none, ser := 0, spec := .free, aborts := 0, dataAborted := false, sigLo := 0,
    sigHi := 0, buf := [], held := [], preload := none, due := [], inl := [], out := 0, gap := false,
    second := none, undo := none, raised := (0, 0) }

/-! ### Cores -/

/-- An entry of a translation cache: the page at `va` of 2^bits bytes, its ASID, its leaf, and the level of the leaf
(R21, R23, R31). `blocked` entries serve their domain until its next closing barrier (R38). -/
structure TlbEntry where
  va : Nat
  bits : Nat
  asid : BitVec 16
  leaf : Word
  level : Nat
deriving DecidableEq, Repr

/-- An arm entry: the sync word and generation it waits for, and its record (R151). -/
structure Arm where
  sync : Nat
  gen : BitVec 16
  task : TaskRec
  /-- Its word has released it, and the record waits for a deque entry. -/
  due : Bool
deriving DecidableEq, Repr

/-- A line of a replica region (R159): ASID, virtual address / 64, and its bytes. -/
structure Replica where
  asid : Nat
  line : Nat
  data : List Byte
deriving DecidableEq, Repr

/-- A core besides its slots (R51, R204, R211, R213, R178, R300 and the rules cited). -/
structure Core where
  /-- `k.part` (R51). -/
  part : Word
  /-- `k.stage` (R204). -/
  stage : Word
  /-- `k.dqspill` (R211). -/
  dqspill : Word
  /-- OVTAB of the launch's code image (R263, R300). -/
  ovtab : Word
  /-- The launch that holds the core's cluster. -/
  lid : Option Nat
  /-- The hardware part of the deque, newest record (the head) first (R211). -/
  deque : List TaskRec
  /-- The arm entries (R151). -/
  arms : List Arm
  /-- Run serial of the last task start (R205). -/
  starts : BitVec 32
  /-- The slot that issued last (R209). -/
  rr : Nat
  /-- Sweep position, whether a steal request is in flight, the requests of thieves with the ck of their arrival, in order,
  and the ck from which the next may be served (R213, R214). -/
  sweep : Nat
  stealing : Bool
  thieves : List (Nat × Nat)
  serveAt : Nat
  /-- The ck until which an access of the deque controller to its spill waits (R42, R43). -/
  tryAt : Nat
  /-- Views V(1) to V(15) (R178). -/
  views : Vector Nat 15
  /-- The core micro-TLB (R31). -/
  utlb : List TlbEntry
  /-- The sealed lines in the replica region, the last used first (R159). -/
  reps : List Replica
  /-- The slots whose checker mismatch waits for its retry (R417), and the stop of R418. -/
  checking : List Nat
  stopped : Bool
deriving DecidableEq, Repr

/-- A core after reset (R51, R211; the rest log 1). -/
def Core.reset : Core :=
  { part := 0, stage := 0, dqspill := 0, ovtab := 0, lid := none, deque := [], arms := [], starts := 0, rr := 3,
    sweep := 0, stealing := false, thieves := [], serveAt := 0, tryAt := 0, views := Vector.replicate 15 (2 ^ 32), utlb := [], reps := [],
    checking := [], stopped := false }

/-! ### Slices -/

/-- Why a line of a slice is not ready, if it is not (R77). -/
inductive LineSt where
  | ready | filling | birsp | promoting | writing
deriving DecidableEq, Repr

/-- A line present in the cache ways of its slice (R71, R77, R82, R43). The bytes themselves are in `State.mem`. -/
structure Line where
  st : LineSt
  dirty : Bool
  /-- The four host-held bits (R43). -/
  hostHeld : BitVec 4
  /-- The 64-byte lines for which a BISnpInv awaits its BIRsp (R43). -/
  asked : BitVec 4
  /-- Pins of `tfetch` (R82). -/
  pins : Nat
  /-- A line of host memory: RdOwn has been sent for it (R456). -/
  own : Bool := false
deriving DecidableEq, Repr

/-- A message to the host or to a Type 3 memory, by the address of its 64-byte line (R43 to R45, R456): a read or an ownership
read of host memory, a clean or a dirty eviction, the data of a snooped line, a write-back to the second tier, and the data of a
CXL.mem read; the last four with their bytes and whether they carry poison. -/
inductive CxlMsg where
  | rdShared (pa : Nat)
  | rdOwn (pa : Nat)
  | cleanEvict (pa : Nat)
  | dirtyEvict (pa : Nat) (data : List Byte) (poison : Bool)
  | snoopData (pa : Nat) (data : List Byte) (poison : Bool)
  | memWrite (pa : Nat) (data : List Byte) (poison : Bool)
  | memData (pa : Nat) (data : List Byte) (poison : Bool)
deriving DecidableEq, Repr

/-- A tentative line: the domain that wrote it and its tentative bytes (R80). -/
structure Tent where
  dom : Nat
  bytes : List Byte
  marks : BitVec 4
  page : Option PageTag
deriving DecidableEq, Repr

/-- What a refused request asks for (R77, R306, R315). -/
inductive ReqOp where
  /-- The instruction is issued again when the slice serves the line. -/
  | again
  /-- A load into `g` register `d`. -/
  | load (d : Reg) (size : Nat) (signed : Bool)
  /-- A store of these bytes. -/
  | store (bytes : List Byte)
  /-- An atomic. -/
  | atom (op : AmoOp) (w : Bool) (d : Reg) (a b : Word)
deriving DecidableEq, Repr

/-- Who made a request: an agent, an event that comes again (a piece at its agent, an update, a landing, a host access), or
the copy unit for the index of a copy (R78). -/
inductive Requester where
  | agent (ag : Agent)
  | event (e : Event)
  | unit (copy : Nat)
  /-- The replication engine of a core (R62). -/
  | engine (core : CoreId)
deriving DecidableEq, Repr

/-- A request that has lost at a palette bank: the bank (16 × physical core + bank), the requester, the consecutive ck, and
the last of them (R62). -/
structure BankWait where
  bank : Nat
  who : Requester
  lost : Nat
  last : Nat
deriving DecidableEq, Repr

/-- A request that a slice, a window or a changing cluster refused (R78, R79). -/
structure Req where
  who : Requester
  pa : Nat
  va : Nat
  op : ReqOp
  /-- Refusals received, at most 16. -/
  count : Nat
  /-- The slice granted a reservation, or holds a claim. -/
  reserved : Bool
  claimed : Bool
  /-- The reserved request has arrived again and is kept at its slice. -/
  kept : Bool
  /-- The page that it translated through (R36), and its place in the order of grants and claims (R79). -/
  page : Option PageTag
  turn : Nat
deriving DecidableEq, Repr

/-- A pseudo-channel (R95, R100): the lines in its read and write queues, oldest first, those that wait for a place in
one, the open row of each bank, and whether writes go first. -/
structure Pch where
  reads : List Nat
  writes : List Nat
  waits : List (Nat × Bool)
  rows : Tbl Nat
  drain : Bool
deriving DecidableEq, Repr

/-- A pseudo-channel after reset (log 1). -/
def Pch.reset : Pch := { reads := [], writes := [], waits := [], rows := [], drain := false }

/-- A lookup of a copy unit or a copy agent in the die TLB: the die, the context and the page, the ck of its answer, and
whether it misses there and walks (R31, R494). -/
structure UnitWalk where
  die : Nat
  ctx : Nat
  page : Nat
  ready : Nat
  walk : Bool
deriving DecidableEq, Repr

/-! ### Copies, seals, invalidations -/

/-- The kind of a copy (R137). -/
inductive CopyKind where
  | lin | box | gather | scatter | remote
deriving DecidableEq, Repr

/-- Where and how a copy stops (R144 to R146): code, cause, syndrome, side, and the first byte not delivered. -/
structure CopyStop where
  code : Nat
  cause : Nat
  synd : Nat
  side : Nat
  prog : Nat
deriving DecidableEq, Repr

/-- A copy held or in flight in a core's copy unit (R133 to R147, R451 to R453). -/
structure Copy where
  kind : CopyKind
  /-- Local-window address of the parameter block, its palette offset, and its eight words (R134, R136, R334). -/
  va : Nat
  block : Nat
  blk : Vector Word 8
  /-- The slot that issued it, and whether it is held until that slot's task commits (R135). -/
  slot : SlotId
  held : Bool
  /-- The core and palette offset of the sync word, if any (R134). -/
  sync : Option (Nat × Nat)
  /-- Bytes in copy order already sent, and the pieces or packets not yet acknowledged by their first byte (R141). -/
  sent : Nat
  opn : List Nat
  stop : Option CopyStop
  /-- A granule with an uncorrectable mark was written (R144). -/
  marked : Bool
  /-- Its completion is under way; STAT is written and the arrival at its sync word is on its way (R143, R146). -/
  closing : Bool
  done : Bool
  /-- Remote: the port and the PDC that it took at issue, the PSN of its first packet, the payloads kept (R451), and the packets
  whose update of the sync word is not acknowledged (R147). -/
  port : Nat
  pdc : Option Nat
  psn : Nat
  kept : List (Nat × List Byte)
  upd : List Nat
  /-- A refused read of its index array waits for its retry, or a translation until a ck (R42, R78). -/
  refused : Bool
  tryAt : Nat
deriving DecidableEq, Repr

/-- A run of a piece: where it begins in the source line, its destination address, and its length (R141). -/
abbrev SrcRun := Nat × Nat × Nat

/-- A write of a piece at its destination: its address, the core and offset of a palette or the physical address, the
page that it translated through, and its bytes (R141). -/
structure DstRun where
  va : Nat
  pal : Option (CoreId × Nat)
  pa : Nat
  page : Option PageTag
  bytes : List Byte
deriving DecidableEq, Repr

/-- A piece in flight (R141, R142): its copy, the first of its bytes in copy order, its agent by slice, its source line
with the page that it translated through and its runs, the bytes it moves, the marked bytes by destination address, and
the writes still to be made once the source has been read, and whether one has been made. -/
structure Piece where
  copy : Nat
  first : Nat
  agent : Nat
  line : Nat
  page : Option PageTag
  runs : List SrcRun
  len : Nat
  marks : List (Nat × Nat)
  /-- The agent holds it, among its 16; its source has been read; every destination has been translated. -/
  arrived : Bool
  todo : Option (List DstRun)
  aimed : Bool
  begun : Bool
deriving DecidableEq, Repr

/-- An entry of the seal table (R157, R160). -/
structure Seal where
  asid : BitVec 16
  base : Nat
  len : Nat
  unsealing : Bool
  lid : Nat
deriving DecidableEq, Repr

/-- The phase of an invalidation (R36). -/
inductive InvPhase where
  | block | drain | ack
deriving DecidableEq, Repr

/-- An open invalidation (R35, R36), and the seal entry that its end makes or frees (R157, R160). -/
structure Inval where
  who : Option SlotId
  asid : BitVec 16
  scope : InvScope
  phase : InvPhase
  entry : Option Seal
  opening : Bool
  /-- The result register of the instruction that waits, and the ck at which the phase began. -/
  dest : Reg
  since : Nat
deriving DecidableEq, Repr

/-! ### Tiles -/

/-- What an entry of the matrix-array queue does (R366, R375, R379): an amended template with the rank and the number
of the members of its gang, or a `tred` with its descriptor and source 0. -/
inductive TKind where
  | tmpl (t : BitVec 256) (gang : Option (Nat × Nat))
  | red (w : Vector Word 4) (src : Nat)
deriving DecidableEq, Repr

/-- An entry of the matrix-array queue (R366), with its place in the tile's issue order, the ck of its completion once it has
started, the operand lines that it has still to read, in order, and those that it has read with their marks (R69). -/
structure TOp where
  kind : TKind
  seq : Nat
  left : Option Nat
  todo : List Nat
  got : List (Nat × VWord × BitVec 4)
deriving DecidableEq, Repr

/-- A drain (R377, R378): its target, its lines, those read so far with their marks, and how many the palette has taken. -/
structure Drain where
  core : CoreId
  off : Nat
  acc : Nat
  nl : Nat
  swo : Nat
  seq : Nat
  got : List (VWord × BitVec 4)
  put : Nat
deriving DecidableEq, Repr

/-- How a pending line comes to the tile (R382, R386, R388). -/
inductive LandKind where
  | fetch | stream
deriving DecidableEq, Repr

/-- A pending line of `tfetch`, `tstream` or `tgather` (R384, R387): its source and destination, the ck of its request,
the timed slot it is assigned, and its bytes once they have left their source (R69). -/
structure Landing where
  id : Nat
  /-- Its place in the tile's issue order. -/
  seq : Nat
  kind : LandKind
  pa : Nat
  off : Nat
  asked : Nat
  slotCk : Option Nat
  pinned : Bool
  page : Option PageTag
  held : Option (VWord × BitVec 4)
  /-- The ck of its arrival at the tile, once a bank has held it back, and whether it stands in the bank's landing buffer or still
  in the landing store (R69); its pin is on a tentative line of the tile's own domain (R82). -/
  since : Option Nat
  buf : Bool
  own : Bool
deriving DecidableEq, Repr

/-- A line of a timed global write that waits for its slot, or that its slot has taken (R385). -/
structure WLine where
  off : Nat
  pa : Nat
  seq : Nat
  gone : Bool
  page : Option PageTag
deriving DecidableEq, Repr

/-- An `xsend` or an `xrecv` span: its first phase offset, its words, its tile-memory offset, and the words done
(R393, R394). -/
structure Span where
  seq : Nat
  start : Nat
  words : Nat
  off : Nat
  fin : Nat
deriving DecidableEq, Repr

/-- An `xred` of the current superstep (R396, R397). -/
structure Xred where
  seq : Nat
  desc : Vector Word 4
  tag : BitVec 16
  /-- What the engine took at issue: source bytes, mask bits by row, scale bytes, and rows with marked data (R398). -/
  src : List Byte
  smsk : List Bool
  ssc : List Byte
  bad : List Bool
  fin : Bool
deriving DecidableEq, Repr

/-- A shadow line: its place (accumulator bank or tile memory), its line number, and its prior contents (R67). -/
structure Shadow where
  acc : Bool
  line : Nat
  bytes : VWord
  marks : BitVec 4
deriving DecidableEq, Repr

/-- A line journaled at a window's close (R423). -/
structure Journal where
  wid : Nat
  line : Nat
  bytes : VWord
  marks : BitVec 4
deriving DecidableEq, Repr

/-- The sequencer state of a checkpoint (R422). -/
structure TileRegs where
  h : Hart
  q : Tbl VWord
  tmpl : Tbl (BitVec 256)
  gprog : Word
  late : Bool
  voted : Bool
  vote : BitVec 4
  tap : Option Nat
deriving DecidableEq, Repr

/-- A tile (R241, R256, R156, R68, R390 to R400 and the rules cited). -/
structure Tile where
  r : TileRegs
  /-- The launch that holds the tile, and whether its sequencer runs or has executed `tend` (R223, R274). -/
  lid : Option Nat
  running : Bool
  ended : Bool
  wait : Wait
  /-- `k.stage` and TCLEN (R204, R263). -/
  stage : Word
  tclen : Nat
  /-- The faulting address that the command processor records (R410). -/
  faddr : Nat
  /-- The domain time and the ck of the fault that stopped the tile (R431). -/
  raised : Nat × Nat
  /-- Accumulator lines and their marks by granule (R68, R419). -/
  acc : Tbl VWord
  accMarks : List Nat
  /-- THR (R391) and the armed issue: the clock and T (R399). -/
  thr : Bool
  armed : Option (Bool × Nat)
  /-- The engines (R360), the issue order, and the next landing number. -/
  seq : Nat
  queue : List TOp
  /-- Gang operations that the tile has issued and that have not entered the queues yet (R375). -/
  gangs : List TOp
  drains : List Drain
  lands : List Landing
  nextLand : Nat
  writes : List WLine
  sends : List Span
  recvs : List Span
  xreds : List Xred
  /-- Blocks that the `tgather` under way has translated (R156). -/
  gath : Option (Nat × Nat)
  /-- Words on the tile's lane, by 64 + the phase offset at which they leave (R93, R395), with their marks. -/
  lane : Tbl (BitVec 512 × Bool)
  /-- Cross-package: the sequencer offset, the taps that wait for their phase offset, the phase offset of the tile's
  barrier arrival, and the offsets whose HOLD still lacks its GO (R446, R447). On one package the sequencer offset is the
  phase clock. -/
  so : Nat
  taps : List (Nat × Option Nat)
  arrive : Option Nat
  holds : List Nat
  /-- The banks that an access of this ck has used (R65, R69), and the flags that operations have set in `k.nst` in this
  ck (R117). -/
  banks : List Nat
  flagged : BitVec 7
  /-- The accesses of the indexed instruction at issue that have had each bank (R63, R352). -/
  turn : Nat
  /-- Held window accesses (R70). -/
  port : List Nat
  shadow : List Shadow
  journal : List Journal
  checkpoint : Option TileRegs
  /-- A taken transfer leaves the next ck without issue (R273, R286). -/
  gap : Bool
  /-- The ring-station micro-TLB; blocked entries serve until the next closing barrier (R31, R38). -/
  rtlb : List TlbEntry
deriving DecidableEq, Repr

/-- The registers of the sequencer. -/
def Tile.h (x : Tile) : Hart := x.r.h

/-- Sequencer registers after reset (R256, R156; log 1). -/
def TileRegs.reset : TileRegs :=
  { h := Hart.reset, q := [], tmpl := [], gprog := 0, late := false, voted := false, vote := 0, tap := none }

/-- A tile after reset (R392; log 1). -/
def Tile.reset : Tile :=
  { r := .reset, lid := none, running := false, ended := false, wait := .none, stage := 0, tclen := 0, faddr := 0, raised := (0, 0),
    acc := [], accMarks := [], thr := false, armed := none, seq := 0, queue := [], gangs := [], drains := [], lands := [],
    nextLand := 0, writes := [], sends := [], recvs := [], xreds := [], gath := none, lane := [], so := 0, taps := [],
    arrive := none, holds := [], banks := [], flagged := 0, turn := 0,
    port := [], shadow := [], journal := [], checkpoint := none, gap := false, rtlb := [] }

/-! ### Barrier domains and windows -/

/-- A window table entry and the state of its window (R232 to R234). -/
structure Window where
  wid : Nat
  hold : Bool
  every : Nat
  first : Nat
  opn : Nat
  close : Nat
  rbase : Nat
  rlen : Nat
  /-- The default post record, read at launch. -/
  defpost : Vector Word 8
  isOpen : Bool
  /-- The accepted post of the current opening. -/
  posted : Option (Vector Word 8)
  /-- The ck, without those of a freeze, for which a hold window has stopped the phase clock at its close, or the release
  of a barrier (R234, R410). -/
  stopped : Option Nat
  /-- The record delivered last, and the superstep of that delivery (R401). -/
  delivered : Option (Vector Word 8 × Nat)
  /-- The record delivered before it, which a repeat of that superstep goes back to (R401, R422). -/
  prior : Option (Vector Word 8 × Nat)
  /-- A post of a first run that a repeat keeps (R423). -/
  kept : Bool
  /-- Lines that cores and copy agents wrote in this opening: tile × 2^16 + line (R423). -/
  wrote : List Nat
deriving DecidableEq, Repr

/-- A barrier domain: its table entry (R229) and its superstep (R230). -/
structure Domain where
  lid : Nat
  /-- The four words of the table entry. -/
  ent : Vector Word 4
  /-- Superstep s: barriers 0 to s − 1 have been released. -/
  step : Nat
  /-- The phase clock (R230), and the ck until it reaches 0: HLEAD at a release (R446). -/
  off : Nat
  lead : Nat
  /-- The exchange pattern of the phase (R231). -/
  pattern : Nat
  /-- Member tiles that have arrived by `xsync`, and core arrivals for barriers s, s + 1, … (R230, R328). -/
  arrived : List Nat
  coreArr : List Nat
  windows : List Window
  /-- The phase clock does not advance at the next ck: a member raised the hold line in this ck, or the superstep has just
  begun; and the held ck of the superstep (R361, R391). -/
  held : Bool
  heldCk : Nat
  /-- Frozen by a fault (R410); rollbacks of this superstep (R424); unprotected (R425). -/
  frozen : Bool
  rollbacks : Nat
  unprot : Bool
  /-- Every condition of barrier s holds since this ck, and its release is under way (R230). -/
  releasing : Bool
  /-- The members of the superstep's collectives, and the collectives completed (R397). -/
  colTiles : List Nat
  colDone : Nat
  /-- A pre-emption of the domain is requested, or the domain is saved (R239, R413). -/
  preempt : Bool
  saved : Bool
  /-- The command processor has reported its frozen domain for service (R411), and its fault is answered by the host. -/
  service : Bool
  /-- The phase clock runs; a cross-package domain waits for its common start (R443). -/
  started : Bool
  /-- Cross-package: packages whose domain record has matched, or that are ready, and the agreed start (R413, R443). -/
  xrec : List Nat
  xready : List Nat
  startAt : Option Nat
  /-- The largest domain time at which a member reported that it is ready (R413, R443). -/
  xwhen : Nat
  /-- Children whose ARRIVE has come for a superstep, the largest vote, the arrival sent, TREL, and the vote of the
  release (R444). -/
  xarr : List (Nat × Nat)
  xvote : Nat
  xsent : Bool
  trel : Option Nat
  xresult : Nat
  /-- HLEAD (R446); HOLDs received or sent as package and offset, and GOs as package, offset and TGO (R447). -/
  hlead : Nat
  xheld : List (Nat × Nat)
  xgo : List (Nat × Nat × Nat)
  /-- Collective data of other packages: package, tag, element position and bytes (R436). -/
  xdata : List (Nat × Nat × Nat × List Byte)
deriving DecidableEq, Repr

/-- PENT (R229). -/
def Domain.pent (d : Domain) : Bool := d.ent[0].getLsbD 62
/-- STRICT (R229). -/
def Domain.strict (d : Domain) : Bool := d.ent[0].getLsbD 61
/-- XPKG (R229). -/
def Domain.xpkg (d : Domain) : Bool := d.ent[0].getLsbD 60
/-- NTHR (R229). -/
def Domain.nthr (d : Domain) : Bool := d.ent[0].getLsbD 59
/-- WTO (R229). -/
def Domain.wto (d : Domain) : Nat := d.ent[0].toNat / 2 ^ 32 % 2 ^ 16
/-- CARR (R229). -/
def Domain.carr (d : Domain) : Nat := d.ent[0].toNat / 2 ^ 16 % 2 ^ 16
/-- Tile t is a member (R229). -/
def Domain.member (d : Domain) (t : Nat) : Bool :=
  if t < 64 then d.ent[1].getLsbD t else d.ent[2].getLsbD (t - 64)

/-! ### Launches -/

/-- Where a launch stands (R223, R225, R415). -/
inductive LaunchSt where
  /-- Checked, and waiting for its claims. -/
  | claiming
  /-- Loaded as far as step 5 of R223, and waiting for the domain records of other packages (R443). -/
  | loading
  | running
  /-- A freeze, a switch-out or an end is under way. -/
  | leaving
  | suspended
deriving DecidableEq, Repr

/-- What a switched-out launch keeps in its save area (R415): the cores and slots of its clusters, its tiles, its domains,
and the bytes and marks of its palettes and tile memories by place (a core's number, or 1,024 + a tile's) and offset. -/
structure Saved where
  cores : Tbl Core
  slots : Tbl Slot
  tiles : Tbl Tile
  domains : Tbl Domain
  bytes : List (Nat × Nat × Byte)
  marks : List (Nat × Nat)
deriving DecidableEq, Repr

/-- A launch: its record (R221), and what started it. -/
structure Launch where
  rcd : Vector Word 16
  st : LaunchSt
  /-- The pool record that it came from (R227, R459). -/
  pool : Option Nat
  /-- The launch that armed it (R225). -/
  parent : Option Nat
  /-- The queue and the packet index of its dispatch packet (R459). -/
  queue : Option (Nat × Nat)
  /-- The queue whose context, fault ring and dump buffer it uses (R460, R464). -/
  home : Nat
  /-- ck of step 1 of R223, and of its step 7, from which ring cycles are counted (R84, R461). -/
  began : Nat
  start : Nat
  /-- The ck and the queue of the submission that its claims wait for, by which they are granted in order (R460). -/
  asked : Nat × Nat
  /-- The slot tables of the dies whose rings it claims: die, RLAPS and entries (R85, R224). -/
  rings : List (Nat × Nat × List Word)
  /-- The exchange timetable (R231). -/
  timetable : List Word
  /-- The HBM slot pattern word of its cartoon (R97). -/
  pattern : Option (BitVec 32)
  /-- Locked translations, by die; one that an invalidation covers serves the listed domains until their next barriers
(R31, R34, R38). -/
  locked : List (Nat × TlbEntry × Option (List Nat))
  /-- Initial records not yet pushed, with their cores (step 8 of R223). -/
  toPush : List (Nat × TaskRec)
  /-- The first fault that ends it, with the reason of R431, the domain time and the ck, and the slots to stop (R430). -/
  fault : Option (Agent × FaultInfo × Nat × Nat × Nat)
  /-- The status it ends with, once a fault ended it (R430, R461). -/
  status : Option Nat
  saved : Option Saved
deriving DecidableEq, Repr

/-- The address-space context of a launch record (R221). -/
def Launch.ctx (l : Launch) : Nat := (l.rcd[0]).toNat / 2 ^ 48 % 256

/-! ### Queues (R457 to R464) -/

/-- A packet that has been consumed and has not completed: its number in its queue, its words, whether it has been submitted,
and its launch (R458, R460). -/
structure Packet where
  idx : Nat
  w : Vector Word 8
  started : Bool
  lid : Option Nat
  /-- The status, cause, LID and detail of its completion, whose writes wait until a ck (R42, R43, R461, R462). -/
  fin : Option (Nat × Nat × Nat × Nat)
  tryAt : Nat
deriving DecidableEq, Repr

/-- A user-mode queue: its descriptor (R457), its incomplete packets, oldest first, the packets consumed since reset, which
number them, and its unanswered fault records (R463). -/
structure Queue where
  desc : Vector Word 8
  packets : List Packet
  count : Nat
  unanswered : Nat
deriving DecidableEq, Repr

/-! ### Links (R433 to R442) and ports (R448 to R453) -/

/-- A timed-link port (R433 to R439): whether it has failed, the flits to send by class, the SEQ of the next new flit,
the flits kept until they are acknowledged, the flits to resend, the SEQ expected next and whether flits are discarded
until it comes, the retries of one SEQ, the acknowledgment to send, and the reserved flits counted. -/
structure LinkPort where
  failed : Bool
  outq : Vector (List Flit) 4
  nextSeq : Nat
  kept : List Flit
  resend : List Flit
  expect : Nat
  discarding : Bool
  retries : Nat × Nat
  counted : Nat
deriving DecidableEq, Repr

/-- A port after reset (log 1). -/
def LinkPort.reset : LinkPort :=
  { failed := false, outq := Vector.replicate 4 [], nextSeq := 0, kept := [], resend := [], expect := 0,
    discarding := false, retries := (0, 0), counted := 0 }

/-- The payload of a packet of a job (R449): 2, 4 or 8 KiB. -/
inductive Mtu where
  | k2
  | k4
  | k8
deriving DecidableEq, Repr

/-- A rank of the scale-out job (R450): fabric address, ROD, MTU, and permitted ports A and B. -/
structure Rank where
  addr : Nat
  rod : Bool
  size : Mtu
  ports : BitVec 2
deriving DecidableEq, Repr

/-- An Ultra Ethernet port (R448, R452): its lost lanes, the links in use (0 and 1), and whether it retrains. -/
structure UePort where
  lost : List Nat
  links : List Nat
  training : Bool
deriving DecidableEq, Repr

/-- A PDC (R449, R451, R453): its rank, port and mode, the next PSN, the lowest PSN not acknowledged, those above it that
are, the packets in flight as PSN, copy and packet number, the retransmissions of the lowest, and the ck of its last
progress and of its last resending. -/
structure Pdc where
  rank : Nat
  port : Nat
  rod : Bool
  next : Nat
  cum : Nat
  acked : List Nat
  pkts : List (Nat × Nat × Nat)
  tries : Nat
  since : Nat
  sentAt : Nat
deriving DecidableEq, Repr

/-- A remote copy at its destination, by the PSN of its first packet: whether it was refused before any byte of it, the
packets accepted, and whether one carried a mark (R147). -/
structure RxCopy where
  first : Nat
  refused : Bool
  count : Nat
  bad : Bool
deriving DecidableEq, Repr

/-- The receiving side of a PDC of a rank (R453, R489): the PSNs accepted, the packets that wait for their turn under ROD,
and the copies that have begun. -/
structure Rx where
  src : Nat
  pdc : Nat
  taken : List Nat
  early : List RPacket
  copies : List RxCopy
deriving DecidableEq, Repr

/-! ### Boot (R465 to R467) -/

/-- What the boot ROM came to (R465, R466). -/
inductive BootSt where
  | rom | running | recovery
deriving DecidableEq, Repr

/-- A response of the DOE mailbox (R467): its bytes, their RSASSA-PSS signature, and the SLH-DSA signature of the same transcript
in a vendor-defined response. -/
structure SpdmResponse where
  body : List Byte
  rsaSig : List Byte
  slhSig : List Byte
deriving DecidableEq, Repr

/-- Flash, fuses and mailbox (R465 to R467): the fuse hashes of the two public keys, the fused counter, the fuse
configuration, the failing check that the mailbox reports, the digest of the ROM, the measurement of the image that runs, the
alias keys of the two algorithms, and the response of the DOE mailbox. -/
structure Boot where
  st : BootSt
  flash : List Byte
  rsaHash : BitVec 384
  slhHash : BitVec 384
  svnFuse : Nat
  fuses : Word
  failing : Nat
  svn : Nat
  romDigest : BitVec 384
  measure : BitVec 384
  aliasRsa : List Byte
  aliasSlh : List Byte
  response : Option SpdmResponse
deriving DecidableEq, Repr

/-! ### The package -/

/-- The state of the package. -/
structure State where
  /-- ck since reset (R3, R431). -/
  ck : Nat
  /-- Memory by 52-bit physical address (R12); an unlisted byte reads 0 (log 2). -/
  mem : List Host.Cell
  /-- 64-byte granules with an uncorrectable mark (R419), rising. -/
  marks : List Nat
  /-- ASCTX 0 to 255 (R20). -/
  asctx : Tbl Word
  /-- CLMAP 0 to 127 (R46); an unlisted entry has its reset value. -/
  clmap : Tbl (BitVec 32)
  /-- The assigned second-tier ranges: base and size (R13). -/
  tier2 : List (Nat × Nat)
  /-- Lines present in the slices, by line number pa / 256 (R71). -/
  lines : Tbl Line
  /-- Victims that the host may have held: the 64-byte lines whose BIRsp is awaited (R43). -/
  gone : Tbl (BitVec 4)
  /-- What the package has sent over CXL, oldest first (R456). -/
  cxlOut : List CxlMsg
  /-- Tentative lines, by 64 × line number + domain (R80). -/
  tent : Tbl Tent
  /-- The sequence counters of the slices, and the stamps that the last write of each slot has received from the slices of
  its lines (R74). -/
  seqs : Tbl (BitVec 48)
  acks : Tbl (List (Nat × BitVec 48))
  /-- Requests refused and not yet served, by number (R78). -/
  reqs : Tbl Req
  nextReq : Nat
  /-- The grants and claims made so far (R79). -/
  grants : Nat
  /-- The palette banks that this ck's accesses use and who uses them, and the requests that have lost at one, oldest first
  (R62). -/
  banks : List (Nat × Requester)
  bankWaits : List BankWait
  /-- The 64-byte blocks that the commits of slots have claimed (R180). -/
  claims : List (Nat × Nat)
  /-- Scratch ways in force (R73). -/
  scw : Nat
  /-- The HBM slot pattern word, and the launch that claims the pattern (R97, R224). -/
  pattern : BitVec 32
  patOwner : Option Nat
  /-- The pseudo-channels with requests (R100). -/
  hbmQ : Tbl Pch
  /-- Die TLBs, and the walks in flight with their die (R31). -/
  dtlb : Tbl (List TlbEntry)
  walks : List (Nat × Agent)
  /-- Lookups of units that miss their micro-TLB: they are answered from a ck on (R31, R494). -/
  unitWalks : List UnitWalk
  seals : List Seal
  invals : Tbl Inval
  nextInval : Nat
  /-- Runs of tasks that were aborted: creator's core and run serial (R182). -/
  deadRuns : List (Nat × Nat)
  /-- Consecutive aborts of tasks whose records an abort has returned to a deque, and whether the last was a data error
  (R188, R189). -/
  aborted : List (TaskRec × Nat × Bool)
  slots : Tbl Slot
  cores : Tbl Core
  tiles : Tbl Tile
  /-- Barrier domains in use (R229). -/
  domains : Tbl Domain
  /-- Launches by number, and the next number (R223, R460). -/
  launches : Tbl Launch
  nextLid : Nat
  /-- Copies by number, oldest first (R133). -/
  copies : Tbl Copy
  nextCopy : Nat
  /-- Pieces in flight by number (R141, R142). -/
  pieces : Tbl Piece
  nextPiece : Nat
  /-- Arrivals on their way to the DONE barriers of launches: context, address, error flag, and the ck from which a walk that
  waits is tried again (R42, R225). -/
  arrivals : List (Nat × Nat × Bool × Nat)
  /-- The pool of launch records (R226). -/
  pool : Tbl (Vector Word 16)
  /-- The 2,048 queues (R457), and the queue that each command processor served last (R460). -/
  queues : Tbl Queue
  turns : Vector Nat 4
  /-- Domain time (R440), the offset that slewing still corrects and the units since its last step (R441), the skew alarm
  and the good measurements in a row (R442). -/
  time : Nat
  slew : Int
  slewAt : Nat
  skew : Bool
  good : Nat
  /-- PX, PY and PZ, and the torus extents; extents of 0 outside any torus (R203, R433). -/
  pos : Nat × Nat × Nat
  extents : Nat × Nat × Nat
  /-- Timed-link ports (R433), packages lost (R439), and links lost as package and direction. -/
  ports : Vector LinkPort 12
  lostPkgs : List Nat
  lostLinks : List (Nat × Nat)
  /-- The scale-out job: its ranks and this package's rank (R450); ports A and B (R448), PDCs and receivers (R451, R453). -/
  job : Tbl Rank
  myRank : Nat
  ue : Vector UePort 2
  pdcs : Tbl Pdc
  rx : List Rx
  /-- CONTROL flits of other packages that came before their domain: package, domain and payload (R443); and the late
  releases counted (R444). -/
  early : List (Nat × Nat × FlitBody)
  lateReleases : Nat
  /-- Failed routers, whether injection is refused for a reroute, the generation of the routing tables (R91, R428, R429),
  and whether the package accepts no launch (R428). -/
  routers : List Nat
  rerouting : Bool
  /-- Entries of the routing tables that firmware has rewritten, by 128 × router + destination (R91). -/
  routes : Tbl Nat
  /-- The ck at which the last message of a class from one router to another arrives (R91). -/
  channels : Tbl Nat
  generation : Nat
  closed : Bool
  /-- Issue opportunities withheld of four, and the domains throttled: 0 none, 1 those with NTHR = 0, 2 all (R469). -/
  duty : Nat
  throttle : Nat
  /-- Memory errors logged: the tile of an accumulator bank or none, and the address or the granule (R419, R432); the copies that
  ended on a transport error (cause 0x1C), by slot, package and PROG (R432); and the counters of R431. -/
  errors : List (Option TileId × Nat)
  transport : List (Nat × Nat × Nat)
  ncorr : BitVec 32
  nretry : BitVec 32
  /-- The cross-package slot in which the ports have last begun to send (R434). -/
  slotSent : Option Nat
  boot : Boot
  /-- The model's own: events due now, the event that happens, events due at a later ck, agents that still issue in
  this ck, the part of the ck that comes next, the agent that issues, and the counter of the free values (log 9). -/
  agenda : List Event
  event : Option Event
  timers : List (Nat × Event)
  round : List Agent
  mid : Nat
  cur : Agent
  fresh : Nat
deriving DecidableEq, Repr

/-- Boot state at reset: the ROM is about to read the flash; flash and fuses are as the package holds them, here empty
(R465; log 14). -/
def Boot.reset : Boot :=
  { st := .rom, flash := [], rsaHash := 0, slhHash := 0, svnFuse := 0, fuses := 0, failing := 0, svn := 0, romDigest := 0, measure := 0,
    aliasRsa := [], aliasSlh := [], response := none }

/-- The package right after reset (R3, R20, R46, R73, R97, R440, R457, R465; the rest log 1, log 2, log 14): nothing is
launched, and the boot ROM reads the flash first. -/
def State.reset : State :=
  { ck := 0
    mem := []
    marks := []
    asctx := []
    clmap := []
    tier2 := []
    lines := []
    gone := []
    cxlOut := []
    tent := []
    seqs := []
    acks := []
    reqs := []
    nextReq := 0
    grants := 0
    banks := []
    bankWaits := []
    claims := []
    scw := 0
    pattern := 0
    patOwner := none
    hbmQ := []
    dtlb := []
    walks := []
    unitWalks := []
    seals := []
    invals := []
    nextInval := 0
    deadRuns := []
    aborted := []
    slots := []
    cores := []
    tiles := []
    domains := []
    launches := []
    nextLid := 1
    copies := []
    nextCopy := 0
    pieces := []
    nextPiece := 0
    arrivals := []
    pool := []
    queues := []
    turns := Vector.replicate 4 2047
    time := 0
    slew := 0
    slewAt := 0
    skew := false
    good := 0
    pos := (0, 0, 0)
    extents := (0, 0, 0)
    ports := Vector.replicate 12 LinkPort.reset
    lostPkgs := []
    lostLinks := []
    job := []
    myRank := 0
    ue := Vector.replicate 2 { lost := [], links := [0, 1], training := false }
    pdcs := []
    rx := []
    early := []
    lateReleases := 0
    routers := []
    rerouting := false
    routes := []
    channels := []
    generation := 0
    closed := false
    duty := 0
    throttle := 0
    errors := []
    transport := []
    ncorr := 0
    nretry := 0
    slotSent := none
    boot := Boot.reset
    agenda := [.packageReset]
    event := none
    timers := []
    round := []
    mid := 0
    cur := .slot 0
    fresh := 0 }

/-! ### Faults and refusals of the model -/

/-- Why the model stops with a fault. Every fault that the spec describes is TAKEN (a next state): these are the
accesses for which the spec gives no effect. -/
inductive Fault where
  /-- An access reached a device register whose behaviour the spec does not give (log 16). Raised by loads, stores
  and register writes that reach physical 0x3000_0000_0000 to 0x3000_FFFF_FFFF outside ASCTX and CLMAP. Safe: the
  model stops where the hardware does something the spec does not say. -/
  | deviceRegister (pa : Nat)
deriving DecidableEq, Repr

/-- Why the model refuses an instruction. -/
inductive Refusal where
  /-- The instruction has no meaning in the model yet. Raised by the refused arms of `exec`. Safe. -/
  | notModelled (mnemonic : String)
deriving DecidableEq, Repr

end Sys2Proof.Machine
end

