-- ==== Sys2Proof/Machine/Ops.lean ====
section
/-!
DEFINITION. The named operations over tables, memory and registers: bit fields and byte order (R7), the canonical
memory, the registers of an agent with their hard-wired values (R241, R242), and the small updates of slots, cores
and scheduling data that the meanings share.
-/
namespace Sys2Proof.Machine

/-! ### Tables -/

/-- The value of a key. -/
def Tbl.find {α : Type} : Tbl α → Nat → Option α
  | [], _ => none
  | (j, x) :: t, k => if k = j then some x else if k < j then none else Tbl.find t k

/-- The table with a key set to a value. -/
def Tbl.put {α : Type} : Tbl α → Nat → α → Tbl α
  | [], k, v => [(k, v)]
  | (j, x) :: t, k, v =>
    if k = j then (k, v) :: t else if k < j then (k, v) :: (j, x) :: t else (j, x) :: Tbl.put t k v

/-- The table without a key. -/
def Tbl.del {α : Type} : Tbl α → Nat → Tbl α
  | [], _ => []
  | (j, x) :: t, k => if k = j then t else if k < j then (j, x) :: t else (j, x) :: Tbl.del t k

/-- A rising list of numbers with a number added. -/
def insertNat (n : Nat) : List Nat → List Nat
  | [] => [n]
  | m :: t => if n = m then m :: t else if n < m then n :: m :: t else m :: insertNat n t

/-! ### Bytes (R7) -/

/-- The bits `lo + n - 1` to `lo` of a word, as a number. -/
def bitsAt {w : Nat} (x : BitVec w) (lo n : Nat) : Nat := x.toNat / 2 ^ lo % 2 ^ n

/-- A bit field of a word replaced. -/
def setBits (x : Word) (p n v : Nat) : Word :=
  BitVec.ofNat 64 (x.toNat - bitsAt x p n * 2 ^ p + v % 2 ^ n * 2 ^ p)

/-- The little-endian number of a list of bytes. -/
def natOfBytes : List Byte → Nat
  | [] => 0
  | b :: t => b.toNat + 256 * natOfBytes t

/-- The `n` little-endian bytes of a number. -/
def bytesOfNat : Nat → Nat → List Byte
  | 0, _ => []
  | n + 1, v => BitVec.ofNat 8 v :: bytesOfNat n (v / 256)

/-- The sign-extension of the low `n` bits of a number to 64 bits. -/
def sext64 (n v : Nat) : Word :=
  if v % 2 ^ n < 2 ^ (n - 1) then BitVec.ofNat 64 (v % 2 ^ n)
  else BitVec.ofNat 64 (v % 2 ^ n + (2 ^ 64 - 2 ^ n))

/-! ### Memory -/

/-- What a byte that is not listed reads as (DESIGN CHOICE, log 2). -/
def memDefault : Byte := 0#8

/-- The byte at a physical address. -/
def memRead : List Host.Cell → Nat → Byte
  | [], _ => memDefault
  | (b, x) :: t, a => if a = b then x else if a < b then memDefault else memRead t a

/-- The memory with the byte at a physical address set; it keeps the canonical form. -/
def memWrite : List Host.Cell → Nat → Byte → List Host.Cell
  | [], a, v => if v = memDefault then [] else [(a, v)]
  | (b, x) :: t, a, v =>
    if a = b then (if v = memDefault then t else (a, v) :: t)
    else if a < b then (if v = memDefault then (b, x) :: t else (a, v) :: (b, x) :: t)
    else (b, x) :: memWrite t a v

/-- The addresses rise strictly from above `lo`, and no entry equals the default. -/
def memSorted : Nat → List Host.Cell → Bool
  | _, [] => true
  | lo, (a, v) :: t => decide (lo ≤ a) && v != memDefault && memSorted (a + 1) t

/-- The canonical form of a memory. -/
def Memory.wf (m : List Host.Cell) : Bool := memSorted 0 m

/-- `n` bytes from a physical address. -/
def memBytes (m : List Host.Cell) : Nat → Nat → List Byte
  | _, 0 => []
  | a, n + 1 => memRead m a :: memBytes m (a + 1) n

/-- The memory with bytes written from a physical address. -/
def memPut (m : List Host.Cell) : Nat → List Byte → List Host.Cell
  | _, [] => m
  | a, b :: t => memPut (memWrite m a b) (a + 1) t

/-- The memory with the bytes of a masked write: `none` leaves its byte as it was. -/
def memPutMask (m : List Host.Cell) : Nat → List (Option Byte) → List Host.Cell
  | _, [] => m
  | a, none :: t => memPutMask m (a + 1) t
  | a, some b :: t => memPutMask (memWrite m a b) (a + 1) t

/-- The little-endian number of `n` bytes at a physical address. -/
def memNat (m : List Host.Cell) (a n : Nat) : Nat := natOfBytes (memBytes m a n)

/-! ### Slots, cores and the registers of an agent -/

/-- A thread slot; one that nothing has changed is as after reset. -/
def State.slot (s : State) (i : SlotId) : Slot := (s.slots.find i.val).getD Slot.reset
/-- The state with a thread slot replaced. -/
def State.setSlot (s : State) (i : SlotId) (x : Slot) : State := { s with slots := s.slots.put i.val x }
/-- A core. -/
def State.core (s : State) (c : CoreId) : Core := (s.cores.find c.val).getD Core.reset
/-- The state with a core replaced. -/
def State.setCore (s : State) (c : CoreId) (x : Core) : State := { s with cores := s.cores.put c.val x }

/-- The core of a slot. -/
def coreOf (i : SlotId) : CoreId := ⟨i.val / 4, by have := i.isLt; omega⟩
/-- The number of a slot in its core. -/
def numOf (i : SlotId) : Nat := i.val % 4
/-- Slot `k` of a core. -/
def slotOf (c : CoreId) (k : Nat) : SlotId := ⟨c.val * 4 + k % 4, by have := c.isLt; omega⟩

/-- An event put on the agenda, after those that are due. -/
def State.post (s : State) (e : Event) : State := { s with agenda := s.agenda ++ [e] }

/-- A timer list with an event added, in order of ck and after the events of the same ck. -/
def insertTimer (t : Nat) (e : Event) : List (Nat × Event) → List (Nat × Event)
  | [] => [(t, e)]
  | (u, x) :: r => if t < u then (t, e) :: (u, x) :: r else (u, x) :: insertTimer t e r

/-- An event that falls due `d` ck from now; with `d = 0` it is due at once. -/
def State.after (s : State) (d : Nat) (e : Event) : State :=
  if d = 0 then s.post e else { s with timers := insertTimer (s.ck + d) e s.timers }

/-- An event that falls due `d` ck from now, in place of the same event that was due earlier or later. -/
def State.rearm (s : State) (d : Nat) (e : Event) : State :=
  ({ s with timers := s.timers.filter (fun p => p.2 != e) } : State).after d e

/-- The next free value: the state with the counter advanced, and the counter's value. -/
def State.draw (s : State) : State × Nat := ({ s with fresh := s.fresh + 1 }, s.fresh)

/-- A tile. -/
def State.tile (s : State) (t : TileId) : Tile := (s.tiles.find t.val).getD Tile.reset
/-- The state with a tile replaced. -/
def State.setTile (s : State) (t : TileId) (x : Tile) : State := { s with tiles := s.tiles.put t.val x }

/-- The registers of an agent. -/
def State.hart (s : State) : Agent → Hart
  | .slot i => (s.slot i).h
  | .tile t => (s.tile t).h

/-- The state with the registers of an agent replaced. -/
def State.setHart (s : State) (ag : Agent) (h : Hart) : State :=
  match ag with
  | .slot i => s.setSlot i { s.slot i with h := h }
  | .tile t => let x := s.tile t; s.setTile t { x with r := { x.r with h := h } }

/-- Control has moved: the next ck has no issue (R273, R286). -/
def State.moved (s : State) (ag : Agent) : State :=
  match ag with
  | .slot i => s.setSlot i { s.slot i with gap := true }
  | .tile t => s.setTile t { s.tile t with gap := true }

/-- The agent is a tile: it runs the tile profile. -/
def isTile : Agent → Bool
  | .slot _ => false
  | .tile _ => true

/-- The 32-bit lanes of a vector register, L (R335). -/
def lanesOf (ag : Agent) : Nat := if isTile ag then 64 else 16
/-- The vector size in bytes, VB (R335). -/
def vbOf (ag : Agent) : Nat := 4 * lanesOf ag

/-! ### `g` and `p` registers (R241, R242) -/

/-- The value of a `g` register; `g0` reads zero. -/
def Hart.rg (h : Hart) (r : Reg) : Word :=
  if r = 0#5 then 0#64 else h.g[r.toNat]'(by have := r.isLt; omega)

/-- The registers with a `g` register written; a write to `g0` is discarded. -/
def Hart.wg (h : Hart) (r : Reg) (x : Word) : Hart :=
  if r = 0#5 then h else { h with g := h.g.set r.toNat x (by have := r.isLt; omega) }

/-- The value of a `p` register; `p0` reads all ones. -/
def Hart.rp (h : Hart) (k : PReg) : Word :=
  if k = 0#3 then BitVec.allOnes 64 else h.p[k.toNat]'(by have := k.isLt; omega)

/-- The registers with a `p` register written; a write to `p0` is discarded. -/
def Hart.wp (h : Hart) (k : PReg) (x : Word) : Hart :=
  if k = 0#3 then h else { h with p := h.p.set k.toNat x (by have := k.isLt; omega) }

/-- A `g` register of an agent. -/
def State.rg (s : State) (ag : Agent) (r : Reg) : Word := (s.hart ag).rg r
/-- The state with a `g` register of an agent written. -/
def State.wg (s : State) (ag : Agent) (r : Reg) (x : Word) : State := s.setHart ag ((s.hart ag).wg r x)
/-- The state with sticky flags set in an agent's `k.nst` (R116). -/
def State.raise (s : State) (ag : Agent) (n : BitVec 7) : State :=
  let h := s.hart ag
  s.setHart ag { h with nst := h.nst ||| n }

/-! ### The cluster map and the palettes (R15, R46, R53) -/

/-- A cluster-map entry; at reset logical cluster n is physical cluster n (R46). -/
def State.clmapAt (s : State) (n : Nat) : BitVec 32 := (s.clmap.find n).getD (0x80000000#32 ||| BitVec.ofNat 32 (n % 128))
/-- The physical cluster that an entry names: DIE × 64 + PCL (R46). -/
def clmapPhys (e : BitVec 32) : Nat := bitsAt e 0 7
/-- V of an entry (R46). -/
def clmapV (e : BitVec 32) : Bool := bitsAt e 31 1 == 1
/-- CHG of an entry (R46). -/
def clmapChg (e : BitVec 32) : Bool := bitsAt e 30 1 == 1
/-- A lower-numbered entry with V = 1 names the same physical cluster (R46). -/
def clmapShadowed (s : State) (phys : Nat) : Nat → Bool
  | 0 => false
  | n + 1 => (clmapV (s.clmapAt n) && clmapPhys (s.clmapAt n) == phys) || clmapShadowed s phys n
/-- The logical cluster is present: V = 1, and it holds its physical cluster (R46). -/
def State.clusterPresent (s : State) (n : Nat) : Bool :=
  let e := s.clmapAt n
  clmapV e && !clmapShadowed s (clmapPhys e) n
/-- The physical core of a logical core (R15, R47). -/
def State.physCore (s : State) (c : CoreId) : Nat := clmapPhys (s.clmapAt (c.val / 8)) * 8 + c.val % 8
/-- The physical address of a core's palette (R12). -/
def State.palette (s : State) (c : CoreId) : Nat := 0x200000000000 + s.physCore c * 0x40000
/-- The physical address of a tile's memory (R12). -/
def tileBase (t : TileId) : Nat := 0x200040000000 + t.val * 0x800000

/-- V of a partition word (R51). -/
def partV (p : Word) : Bool := bitsAt p 63 1 == 1
/-- The execute-only boundary XB (R53). -/
def partXB (p : Word) : Nat := bitsAt p 0 6 * 0x1000
/-- The base of the rotating register region (R53). -/
def partROTB (p : Word) : Nat := partXB p + 0x4000
/-- The base of the commit buffer (R53). -/
def partCMTB (p : Word) : Nat := partROTB p + bitsAt p 6 4 * 0x1000
/-- The base of the replica region (R53). -/
def partREPB (p : Word) : Nat := partCMTB p + bitsAt p 10 5 * 0x1000
/-- The base of the accumulator region (R53). -/
def partACCB (p : Word) : Nat := partREPB p + bitsAt p 15 6 * 0x1000
/-- The base of scratch (R53). -/
def partSCRB (p : Word) : Nat := partACCB p + bitsAt p 21 6 * 0x1000

/-! ### Vector registers (R241, R243) -/

/-- The physical q register of q name k (R243), for k below qa. -/
def Hart.physQ (h : Hart) (k : BitVec 5) : Nat := (h.qrb.toNat + k.toNat) % h.qa.toNat

/-- Where physical q register j of a core slot lies (R243, R57). -/
def State.qAddr (s : State) (i : SlotId) (j : Nat) : Nat :=
  s.palette (coreOf i) + partROTB (s.core (coreOf i)).part + 64 * ((s.slot i).h.abase.toNat + j)

/-- The value of a vector operand: a `v` register, or a q register of the palette or of the tile (R241, R243). -/
def State.rv (s : State) (ag : Agent) (o : VOp) : VWord :=
  let h := s.hart ag
  if o.q = 0#1 then h.v[o.n.toNat]'(by have := o.n.isLt; omega)
  else match ag with
  | .slot i => BitVec.ofNat 2048 (memNat s.mem (s.qAddr i (h.physQ o.n)) 64)
  | .tile t => ((s.tile t).r.q.find (h.physQ o.n)).getD 0#2048

/-- The reuse latch after a write to a register (R246): cleared when it is tagged with that register. -/
def Hart.unlatch (h : Hart) (tag : Bool × Nat) : Hart := if h.latch = some tag then { h with latch := none } else h

/-- The tag of a vector operand: its class and its physical number (R246). -/
def Hart.tagOf (h : Hart) (o : VOp) : Bool × Nat := if o.q = 0#1 then (false, o.n.toNat) else (true, h.physQ o.n)

/-- The state with a vector operand written; a core register keeps 512 bits, and a q register of a core is the
64-byte granule of its palette, whose mark the write clears (R241, R243, R419). -/
def State.wv (s : State) (ag : Agent) (o : VOp) (x : VWord) : State :=
  let h := s.hart ag
  let y : VWord := if isTile ag then x else BitVec.ofNat 2048 (x.toNat % 2 ^ 512)
  let h' := h.unlatch (h.tagOf o)
  if o.q = 0#1 then s.setHart ag { h' with v := h'.v.set o.n.toNat y (by have := o.n.isLt; omega) }
  else match ag with
  | .slot i =>
    let pa := s.qAddr i (h.physQ o.n)
    { s with mem := memPut s.mem pa (bytesOfNat 64 y.toNat), marks := s.marks.filter (fun g => g != pa / 64) }.setHart ag h'
  | .tile t =>
    let z := s.tile t
    s.setTile t { z with r := { z.r with h := h', q := z.r.q.put (h.physQ o.n) y } }

/-- Element `e` of width `w` of a register (R335). -/
def elemAt (x : VWord) (w e : Nat) : Nat := x.toNat / 2 ^ (w * e) % 2 ^ w

/-- The number whose elements of width `w` are those of the list, element 0 first. -/
def ofElems (w : Nat) : List Nat → Nat
  | [] => 0
  | x :: t => x % 2 ^ w + 2 ^ w * ofElems w t

/-- The first `n` elements of width `w` of a number. -/
def elemsOf (w : Nat) : Nat → Nat → List Nat
  | 0, _ => []
  | n + 1, x => x % 2 ^ w :: elemsOf w n (x / 2 ^ w)

/-! ### Results of the parts of an instruction -/

/-- What a part of an instruction comes to: a value and the state after it, a fault that it raises, a wait of its
agent, or a stop of the model. -/
inductive Res (α : Type) where
  | ok (x : α) (s : State)
  | fault (f : FaultInfo) (s : State)
  | wait (w : Wait) (s : State)
  | stop (f : Fault)

/-- One part after another. -/
def Res.bind {α β : Type} : Res α → (α → State → Res β) → Res β
  | .ok x s, k => k x s
  | .fault f s, _ => .fault f s
  | .wait w s, _ => .wait w s
  | .stop f, _ => .stop f

/-! ### Loop levels (R280, R281, R288) -/

/-- The number of active levels. -/
def activeLevels (lv : Vector Level 4) : Nat := (lv.toList.filter Level.act).length

/-- A level by number. -/
def Hart.level (h : Hart) (l : Nat) : Level := h.lv.getD l Level.zero

/-- The loop registers with a level replaced. -/
def Hart.setLevel (h : Hart) (l : Nat) (x : Level) : Hart := { h with lv := h.lv.setIfInBounds l x }

/-- The loop registers without level `l` and every level above it (R281). -/
def Hart.deactivate (h : Hart) (l : Nat) : Hart :=
  let clears := (lv h).any (fun p => decide (l ≤ p.1) && p.2.act && p.2.rot)
  let lv' := h.lv.mapIdx (fun j x => if l ≤ j then { x with act := false } else x)
  { h with lv := lv', stg := if clears then 0 else h.stg,
           lam := if lv'.toList.any Level.act then h.lam else 0 }
where
  /-- The levels with their numbers. -/
  lv (h : Hart) : List (Nat × Level) := h.lv.toList.zipIdx.map (fun p => (p.2, p.1))

/-- One level's end processing, and whether it leaves at END (R281). -/
def Hart.passOne (h : Hart) (l : Nat) : Hart × Bool :=
  let x := h.level l
  if !x.rot then
    if x.cnt.toNat ≤ 1 then
      ({ (h.setLevel l { x with cnt := 0 }).deactivate l with pc := x.fin }, true)
    else ({ h.setLevel l { x with cnt := x.cnt - 1 } with pc := x.beg }, false)
  else
    let cnt := if x.cnt = 0 then x.cnt else x.cnt - 1
    let new0 := if cnt = 0 then 0 else 1
    let stg := BitVec.ofNat 8 ((h.stg.toNat * 2 + new0) % 2 ^ (x.sm1.toNat + 1))
    let qrb := if h.qa = 0 then h.qrb else BitVec.ofNat 8 ((h.qrb.toNat + h.qa.toNat - 1) % h.qa.toNat)
    let h1 := { h.setLevel l { x with cnt := cnt } with stg := stg, qrb := qrb }
    if stg = 0 then ({ h1.deactivate l with pc := x.fin }, true) else ({ h1 with pc := x.beg }, false)

/-- End processing of level `l` (R281); a shared end goes on with the level below. -/
def Hart.passEnd (h : Hart) : Nat → Hart
  | 0 => (h.passOne 0).1
  | l + 1 =>
    let r := h.passOne (l + 1)
    let below := r.1.level l
    if r.2 && below.act && below.lcd == r.1.cdep && below.fin == (h.level (l + 1)).fin then r.1.passEnd l else r.1

/-- The innermost active level, if any. -/
def Hart.innermost (h : Hart) : Option Nat :=
  if (h.level 3).act then some 3 else if (h.level 2).act then some 2
  else if (h.level 1).act then some 1 else if (h.level 0).act then some 0 else none

/-- The innermost active level whose LCD is CDEP (R280). -/
def Hart.innermostHere (h : Hart) : Option Nat :=
  let ok (l : Nat) := (h.level l).act && (h.level l).lcd == h.cdep
  if ok 3 then some 3 else if ok 2 then some 2 else if ok 1 then some 1 else if ok 0 then some 0 else none

/-- An instruction completed without a taken transfer: the next offset, or end processing (R265, R280). -/
def Hart.advance (h : Hart) : Hart :=
  let n := h.pc + 4
  match h.innermostHere with
  | some l => if (h.level l).fin = n then h.passEnd l else { h with pc := n }
  | none => { h with pc := n }

/-- A taken transfer out of the bodies of active levels of the same depth deactivates them (R288). -/
def Hart.leave (h : Hart) (target : BitVec 23) : Nat → Hart
  | 0 => h
  | l + 1 =>
    let h' := h.leave target l
    let x := h'.level l
    if x.act && x.lcd == h'.cdep && !(decide (x.beg ≤ target) && decide (target < x.fin)) then h'.deactivate l else h'

/-- The loop state that entry to a handler saves (R292). -/
def Hart.saveLoops (h : Hart) : LoopSave := ⟨h.lv, h.qrb, h.stg, h.lam, h.cdep, h.ild⟩

/-- Every level deactivated, `stg`, `lam` and CDEP zero (R292). -/
def Hart.clearLoops (h : Hart) : Hart :=
  { h with lv := h.lv.map (fun x => { x with act := false }), stg := 0, lam := 0, cdep := 0 }

/-- The registers with a saved loop state restored (R292, R408). -/
def Hart.restoreLoops (h : Hart) (x : LoopSave) : Hart :=
  { h with lv := x.lv, qrb := x.qrb, stg := x.stg, lam := x.lam, cdep := x.cdep, ild := x.ild }

/-! ### Taking an exception on a core (R403 to R407) -/

/-- TEN of `k.cause` (R403). -/
def causeTEN (c : Word) : Bool := bitsAt c 63 1 == 1
/-- ACT of `k.cause` (R403). -/
def causeACT (c : Word) : Bool := bitsAt c 62 1 == 1
/-- TVEC of `k.cause` (R403). -/
def causeTVEC (c : Word) : Nat := bitsAt c 42 18

/-- `k.cause` as fault entry writes it: its RO fields from the fault, TEN, ACT and TVEC as given (R403, R407). -/
def causeWord (ten act : Bool) (tvec : Nat) (f : FaultInfo) : Word :=
  BitVec.ofNat 64 ((if ten then 2 ^ 63 else 0) + (if act then 2 ^ 62 else 0) + (if f.imp then 2 ^ 61 else 0)
    + (if f.asy then 2 ^ 60 else 0) + tvec % 2 ^ 18 * 2 ^ 42 + f.num % 2 ^ 10 * 2 ^ 32 + f.kind % 8 * 2 ^ 29
    + f.lvl % 4 * 2 ^ 27 + f.synd % 16 * 2 ^ 23 + f.cause % 256)

/-- The self address of a palette or tile-memory offset (R14, R269). -/
def selfAddr (off : Nat) : Word := BitVec.ofNat 64 (0x007F000000000000 + off)

/-- The physical address of a slot's trap frame (R405). -/
def State.frameAddr (s : State) (i : SlotId) : Nat :=
  s.palette (coreOf i) + partSCRB (s.core (coreOf i)).part + 64 * numOf i

/-- The preloaded record returns to the head of its deque (R219). -/
def State.returnPreload (s : State) (i : SlotId) : State :=
  match (s.slot i).preload with
  | none => s
  | some r =>
    let c := s.core (coreOf i)
    (s.setCore (coreOf i) { c with deque := r :: c.deque }).setSlot i { s.slot i with preload := none }

/-- A slot may enter its trap handler: TEN = 1, ACT = 0, and TVEC 4-byte aligned and below XB (R407). -/
def State.mayTrap (s : State) (i : SlotId) : Bool :=
  let c := (s.slot i).h.cause
  causeTEN c && !causeACT c && causeTVEC c % 4 == 0 && decide (causeTVEC c < partXB (s.core (coreOf i)).part)

/-- The bytes of a task's own buffered stores over the bytes of memory (R177). -/
def overlay (buf : List BufOp) (pa : Nat) (bytes : List Byte) : List Byte :=
  buf.foldl (fun l op =>
    match op with
    | .store a bs _ => l.mapIdx (fun k b => if a ≤ pa + k then (bs.getD (pa + k - a) none).getD b else b)
    | .atom .. => l) bytes

/-- A buffered store with the bytes at `pa` to `pa + n - 1` left to a later write. -/
def BufOp.under (o : BufOp) (pa n : Nat) : BufOp :=
  match o with
  | .store a bs page => .store a (bs.mapIdx (fun k b => if pa ≤ a + k ∧ a + k < pa + n then none else b)) page
  | .atom .. => o

/-- A slot notes what an event at its boundary is about to replace, once in a ck (R406). -/
def State.noteUndo (s : State) (i : SlotId) : State :=
  let x := s.slot i
  if (x.undo.map (fun u => u.ck == s.ck)).getD false then s
  else s.setSlot i { x with undo := some ⟨s.ck, memBytes s.mem (s.frameAddr i) 32, x.h.cause, x.due, x.xfer, x.uiq⟩ }

/-- The events that a slot took at its boundary in this ck have not been taken (R406): a fault that was not entered ends no
launch. -/
def State.untake (s : State) (i : SlotId) : State :=
  let x := s.slot i
  match x.undo with
  | none => s
  | some u =>
    if u.ck != s.ck then s
    else
      let kept (e : Event) : Bool := match e with
        | .launchFaultEnd _ (.slot j) _ => j != i
        | _ => true
      { s with mem := memPut s.mem (s.frameAddr i) u.frame, timers := s.timers.filter (fun p => kept p.2) }.setSlot i
        { x with h := { x.h with cause := u.cause }, due := u.due, xfer := u.xfer, uiq := u.uiq, undo := none }

/-- Trap entry of a core slot (R407), resuming at `resume`. -/
def State.trapEntry (s : State) (i : SlotId) (f : FaultInfo) (resume : BitVec 23) : State :=
  let s1 := s.returnPreload i
  let x := s1.slot i
  let h := x.h
  let tvec := causeTVEC h.cause
  let cause := causeWord true true tvec f
  let frame := bytesOfNat 8 cause.toNat ++ bytesOfNat 8 f.faddr ++ bytesOfNat 8 resume.toNat
    ++ bytesOfNat 8 (h.rg 31#5).toNat
  let off := partSCRB (s1.core (coreOf i)).part + 64 * numOf i
  let h' := { (h.clearLoops.wg 31#5 (selfAddr off)) with
    cause := cause, epc := resume, latch := none, pc := BitVec.ofNat 23 tvec }
  { s1 with mem := memPut s1.mem (s1.frameAddr i) frame }.setSlot i
    { x with h := h', trapSave := h.saveLoops, st := .running, wait := .none, second := none,
             buf := x.buf.map (fun (o : BufOp) => o.under (s1.frameAddr i) 32) }

/-- A fault that cannot be entered stops the slot, and its launch ends on the fault (R407, R430), unless the task is aborted in
this ck (R406). -/
def State.escalate (s : State) (i : SlotId) (f : FaultInfo) (resume : BitVec 23) : State :=
  let x := s.slot i
  let c := causeWord (causeTEN x.h.cause) (causeACT x.h.cause) (causeTVEC x.h.cause) f
  let s1 := (s.returnPreload i)
  let y := s1.slot i
  let s2 := s1.setSlot i { y with h := { y.h with cause := c, epc := resume }, st := .waiting, wait := .stopped, raised := (s.time, s.ck) }
  match (s.core (coreOf i)).lid with
  | some lid => s2.after 1 (.launchFaultEnd lid (.slot i) f)
  | none => s2

/-- The return from a trap handler (R408): `g31` from SG31 of the frame as its task reads it (R177), the saved loop state, and
`k.epc`. -/
def State.trapReturn (s : State) (i : SlotId) : State :=
  let x := s.slot i
  let pa := s.frameAddr i + 24
  let g31 := BitVec.ofNat 64 (natOfBytes (overlay x.buf pa (memBytes s.mem pa 8)))
  let h := (x.h.restoreLoops x.trapSave).wg 31#5 g31
  s.setSlot i { x with h := { h with cause := h.cause &&& ~~~(1#64 <<< 62), latch := none, pc := h.epc } }

end Sys2Proof.Machine
end

