-- ==== Sys2Proof/Machine/Mesh.lean ====
section
/-!
DEFINITION. The core mesh and the steal network (spec/02_memory_hierarchy.md R64, R89 to R92; spec/12_faults_and_recovery.md
R429): the places of routers, the routes between them, and the times of messages.
-/
namespace Sys2Proof.Machine

/-! ### Routers (R89) -/

/-- Column of a router in the mesh's global coordinates, by package id (R89). -/
def routerX (r : Nat) : Nat := r / 64 * 8 + r % 8
/-- Row of a router (R89). -/
def routerY (r : Nat) : Nat := r % 64 / 8
/-- The router at a column and a row. -/
def routerAt (x y : Nat) : Nat := x / 8 * 64 + 8 * y + x % 8
/-- The router carries a slice (R89). -/
def routerHasSlice (r : Nat) : Bool := (routerX r + routerY r) % 2 == 0
/-- The slice that a router carries: 32d + c div 2 (R89). -/
def routerSlice (r : Nat) : Option Nat := if routerHasSlice r then some (32 * (r / 64) + r % 64 / 2) else none
/-- The router that carries a slice (R89). -/
def sliceRouter (k : Nat) : Nat :=
  let r := k / 32 * 64 + 2 * (k % 32)
  if routerHasSlice r then r else r + 1
/-- The router of a core's physical cluster (R89). -/
def State.coreRouter (s : State) (c : CoreId) : Nat := s.physCore c / 8
/-- The router at which a tile's traffic enters and leaves the mesh (R64). -/
def tileRouter (t : Nat) : Nat := sliceRouter (t / 2)
/-- The walker of a die: router (3, 3) of die 0 and (11, 3) of die 1 (R494). -/
def walkerRouter (die : Nat) : Nat := routerAt (3 + 8 * (die % 2)) 3

/-! ### Routes (R90, R91, R429) -/

/-- The distance of two numbers. -/
def apart (a b : Nat) : Nat := (a - b) + (b - a)

/-- H (R90). -/
def hops (a b : Nat) : Nat := apart (routerX a) (routerX b) + apart (routerY a) (routerY b)

/-- The routers of a straight run of columns along a row, from the one after `x` to `x'`. -/
def rowRun (y x x' : Nat) : List Nat :=
  (List.range (apart x x')).map (fun k => routerAt (if x ≤ x' then x + k + 1 else x - k - 1) y)
/-- The routers of a straight run of rows along a column. -/
def colRun (x y y' : Nat) : List Nat :=
  (List.range (apart y y')).map (fun k => routerAt x (if y ≤ y' then y + k + 1 else y - k - 1))

/-- The routers after `a` on the route that goes X first and then Y (R91). -/
def xyRoute (a b : Nat) : List Nat :=
  rowRun (routerY a) (routerX a) (routerX b) ++ colRun (routerX b) (routerY a) (routerY b)

/-- The router on the far side of an output port (R91): 0 local, 1 and 2 along X up and down, 3 and 4 along Y up and down. -/
def portFrom (r : Nat) : Nat → Nat
  | 1 => routerAt (routerX r + 1) (routerY r)
  | 2 => routerAt (routerX r - 1) (routerY r)
  | 3 => routerAt (routerX r) (routerY r + 1)
  | 4 => routerAt (routerX r) (routerY r - 1)
  | _ => r

/-- The nearest row, of those with live routers at columns 7 and 8, for a bridge crossing (R429). -/
def State.bridgeRow (s : State) (y : Nat) : Nat :=
  let alive (k : Nat) : Bool := !s.routers.contains (routerAt 7 k) && !s.routers.contains (routerAt 8 k)
  let order := (List.range 16).map (fun k => if k % 2 = 0 then y + k / 2 else y - (k + 1) / 2)
  (order.find? (fun k => decide (k < 8) && alive k)).getD y

/-- The routers after `a` on the route to `b` that firmware chooses around failed routers (R429). -/
def State.route (s : State) (a b : Nat) : List Nat :=
  let xy := xyRoute a b
  if !xy.any (fun r => s.routers.contains r && r != b) then xy
  else
    let (xa, ya, xb, yb) := (routerX a, routerY a, routerX b, routerY b)
    let blocked := s.routers.contains (routerAt 7 ya) || s.routers.contains (routerAt 8 ya)
    if xa / 8 != xb / 8 && blocked then
      let y := s.bridgeRow ya
      colRun xa ya y ++ rowRun y xa xb ++ colRun xb y yb
    else if ya != yb then colRun xa ya yb ++ rowRun yb xa xb
    else
      let y := if ya < 4 then ya + 1 else ya - 1
      colRun xa ya y ++ rowRun y xa xb ++ colRun xb y yb

/-- An output port: 0 local, 1 and 2 along X up and down, 3 and 4 along Y up and down (R91). -/
def portTo (a b : Nat) : Nat :=
  if a = b then 0
  else if routerX a < routerX b then 1
  else if routerX b < routerX a then 2
  else if routerY a < routerY b then 3
  else 4

/-- The entry of router `r` for destination `d`: as firmware has rewritten it, or X first and then Y (R91). -/
def State.routePort (s : State) (r d : Nat) : Nat :=
  (s.routes.find (128 * r + d)).getD (portTo r ((xyRoute r d).headD r))

/-- The tables rewritten around the failed routers: the entries whose route meets one (R429). -/
def State.rewriteRoutes (s : State) : State :=
  let pairs := (List.range 128).flatMap (fun a => ((List.range 128).filter (fun b =>
    (xyRoute a b).any (fun r => s.routers.contains r && r != b))).map (fun b => (a, b)))
  { s with routes := pairs.foldl (fun l p => l.put (128 * p.1 + p.2) (portTo p.1 ((s.route p.1 p.2).headD p.1))) s.routes }

/-- The routers after `a` on the way that the tables lead a message to `b`, at most so many (R91). -/
def State.pathFrom (s : State) (b : Nat) : Nat → Nat → List Nat
  | 0, _ => []
  | n + 1, a => if a = b then [] else let c := portFrom a (s.routePort a b); c :: s.pathFrom b n c

/-- The routers after `a` on the way of a message to `b` (R91). A route of R429 takes no more than 26 hops more than H. -/
def State.path (s : State) (a b : Nat) : List Nat := s.pathFrom b (26 + hops a b) a

/-! ### Times (R64, R90, R92) -/

/-- The time of a message from one router to another: 3 ck a hop and 4 more, and 8 for a bridge crossing (R64, R90). -/
def State.meshTime (s : State) (a b : Nat) : Nat :=
  3 * (s.path a b).length + (if a / 64 = b / 64 then 4 else 12)

/-- The time on the steal network: 2 ck a hop, and 4 for a bridge crossing (R92). -/
def State.stealTime (s : State) (a b : Nat) : Nat :=
  2 * (s.path a b).length + (if a / 64 = b / 64 then 0 else 4)

/-- What contention adds to the time of a message sent now: nothing while no other message is on the mesh, else a free
value (R64, R90; log 10). -/
def State.contention (s : State) (draw : Nat) : Nat :=
  if s.channels.any (fun p => decide (s.ck < p.2)) then Config.traffic draw else 0

/-- A message of a class (0 requests, 1 responses, 2 copy data) that has `extra` ck of its own besides the mesh: it
arrives after its time and what contention adds, and not before the last message of its class from that router to the
other (R64, R91). -/
def State.send (s : State) (cls a b extra : Nat) (e : Event) : State :=
  let r := s.draw
  let key := (128 * cls + a) * 128 + b
  let t := max (s.contention r.2 + (s.ck + s.meshTime a b + extra)) ((r.1.channels.find key).getD 0)
  ({ r.1 with channels := r.1.channels.put key t } : State).after (t - s.ck) e

/-- A message over the steal network. -/
def State.sendOnSteal (s : State) (a b extra : Nat) (e : Event) : State := s.after (s.stealTime a b + extra) e

end Sys2Proof.Machine
end

