-- ==== Sys2Proof/Machine/Translate.lean ====
section
/-!
DEFINITION. Addresses (spec/01_address_spaces.md): the physical map, the page table walk and its checks, the
translation caches, the local window, and the region rules of palettes and tile memory (R10 to R31, R46 to R48).
-/
namespace Sys2Proof.Machine

/-- The kind of an access (R26, R403). -/
inductive Kind where
  | read | write | atomic | code
deriving DecidableEq, Repr

/-- KIND of `k.cause` (R403). -/
def Kind.num : Kind → Nat
  | .read => 1 | .write => 2 | .atomic => 3 | .code => 4

/-- The kind writes. -/
def Kind.writes : Kind → Bool
  | .write | .atomic => true
  | _ => false

/-- What a physical address names (R12). -/
inductive Phys where
  | hbm | tier2 | palette (p off : Nat) | tileMem (t off : Nat) | scratch (slice off : Nat) | device | host | hole
deriving DecidableEq, Repr

/-- The contents of a physical address (R12, R13). -/
def State.phys (s : State) (pa : Nat) : Phys :=
  if pa < 0x8000000000 then .hbm
  else if pa < 0x100000000000 then .hole
  else if pa < 0x200000000000 then
    (if s.tier2.any (fun r => decide (r.1 ≤ pa) && decide (pa < r.1 + r.2)) then .tier2 else .hole)
  else if pa < 0x200010000000 then .palette ((pa - 0x200000000000) / 0x40000) (pa % 0x40000)
  else if pa < 0x200040000000 then .hole
  else if pa < 0x200080000000 then .tileMem ((pa - 0x200040000000) / 0x800000) (pa % 0x800000)
  else if pa < 0x2000A0000000 then .scratch ((pa - 0x200080000000) / 0x800000) (pa % 0x800000)
  else if pa < 0x300000000000 then .hole
  else if pa < 0x300100000000 then .device
  else if pa < 0x400000000000 then .hole
  else if pa < 0x800000000000 then .host
  else .hole

/-- The owning slice of a physical address in HBM, the second tier or host memory (R72). -/
def sliceOf (pa : Nat) : Nat :=
  let f (k : Nat) : Nat := pa / 2 ^ k % 64
  f 8 ^^^ f 14 ^^^ f 20 ^^^ f 26 ^^^ f 32 ^^^ f 38 ^^^ f 44 ^^^ (pa / 2 ^ 50 % 4)

/-- The set of a physical address within its slice (R72). -/
def setOf (pa : Nat) : Nat := pa / 2 ^ 14 % 2048

/-! ### Page-table entries (R23, R24) -/

/-- Bit `k` of an entry. -/
def pteBit (e : Word) (k : Nat) : Bool := bitsAt e k 1 == 1
/-- MT (R23). -/
def pteMT (e : Word) : Nat := bitsAt e 9 2
/-- Offset bits of a leaf at a level: 42, 29 or 16 (R22). -/
def levelBits (level : Nat) : Nat := if level = 1 then 42 else if level = 2 then 29 else 16

/-- The entry is malformed at its level (R24, syndrome 0x4). -/
def pteMalformed (e : Word) (level : Nat) : Bool :=
  bitsAt e 52 8 != 0 || bitsAt e 13 3 != 0
  || (if pteBit e 1 then (pteBit e 3 && !pteBit e 2) || decide (2 ≤ pteMT e)
      else bitsAt e 2 14 != 0 || level == 3)

/-- A table pointer lies in HBM or in an assigned part of the second tier (R24). -/
def State.tableRange (s : State) (pa : Nat) : Bool :=
  match s.phys pa with
  | .hbm | .tier2 => true
  | _ => false

/-- A leaf frame lies in HBM, the second tier, host memory or the device registers (R24). -/
def State.frameRange (s : State) (pa : Nat) : Bool :=
  match s.phys pa with
  | .hbm | .tier2 | .host | .device => true
  | _ => false

/-- A device leaf points into the device registers, and no other leaf does (R24). -/
def State.typeMismatch (s : State) (e : Word) (pa : Nat) : Bool := (pteMT e == 1) != (s.phys pa == .device)

/-- The checks of R26 on the permissions of a leaf, in their order: the syndrome of cause 0x0B that fails. -/
def permFault (e : Word) (kind : Kind) (user : Bool) : Option Nat :=
  if user && !pteBit e 5 then some 1
  else if kind == .read && !pteBit e 2 then some 2
  else if kind.writes && !pteBit e 3 then some 3
  else if kind == .atomic && !pteBit e 2 then some 2
  else if kind == .code && !pteBit e 4 then some 4
  else if kind == .atomic && pteMT e == 1 then some 5
  else none

/-- A translation fault (R28). -/
def tfault (cause synd lvl : Nat) (kind : Kind) (va : Nat) : FaultInfo :=
  { cause := cause, synd := synd, lvl := lvl, kind := kind.num, faddr := va }

/-- What a walk comes to (R26). -/
inductive Walk where
  /-- A leaf: its value, its level, the address of the entry, and the physical address. -/
  | leaf (e : Word) (level ea pa : Nat)
  /-- A leaf with MIG = 1, and the physical address of its old frame. -/
  | migrating (pa : Nat)
  | fault (f : FaultInfo)
deriving Repr

/-- The walk of the remaining levels from a table (R26); a marked entry is a data error (R420). A level-1 table that ROOT
places outside HBM and the second tier reads as the bytes there (log 114). -/
def State.walkFrom (s : State) (kind : Kind) (user : Bool) (va : Nat) : List Nat → Nat → Walk
  | [], _ => .fault (tfault 0x0A 4 3 kind va)
  | level :: rest, table =>
    let lo := levelBits level
    let ea := table + va / 2 ^ lo % 8192 * 8
    let e := BitVec.ofNat 64 (memNat s.mem ea 8)
    if s.marks.contains (ea / 64) then .fault { cause := 0x13, kind := kind.num, faddr := va }
    else if !pteBit e 0 then .fault (tfault 0x0A 3 level kind va)
    else if pteMalformed e level then .fault (tfault 0x0A 4 level kind va)
    else if !pteBit e 1 then
      let table' := bitsAt e 16 36 * 2 ^ 16
      if !s.tableRange table' then .fault (tfault 0x0A 6 level kind va)
      else s.walkFrom kind user va rest table'
    else if bitsAt e 16 (lo - 16) != 0 then .fault (tfault 0x0A 5 level kind va)
    else
      let pa := bitsAt e lo (52 - lo) * 2 ^ lo + va % 2 ^ lo
      if !s.frameRange pa then .fault (tfault 0x0A 6 level kind va)
      else if s.typeMismatch e pa then .fault (tfault 0x0A 0xA level kind va)
      else if pteBit e 12 then .migrating pa
      else match permFault e kind user with
      | some synd => .fault (tfault 0x0B synd level kind va)
      | none => .leaf e level ea pa

/-- ASCTX n (R20). -/
def State.asctxAt (s : State) (n : Nat) : Word := (s.asctx.find n).getD 0
/-- EN, AD, ROOT and ASID of a context register (R20). -/
def ctxEN (c : Word) : Bool := bitsAt c 63 1 == 1
/-- AD (R20). -/
def ctxAD (c : Word) : Bool := bitsAt c 62 1 == 1
/-- The address of the level-1 table (R20). -/
def ctxRoot (c : Word) : Nat := bitsAt c 16 36 * 2 ^ 16
/-- ASID (R20). -/
def ctxASID (c : Word) : BitVec 16 := BitVec.ofNat 16 (bitsAt c 0 16)

/-- The walk of a virtual address in a context (R26). -/
def State.walkCtx (s : State) (ctx : Nat) (kind : Kind) (user : Bool) (va : Nat) : Walk :=
  let c := s.asctxAt ctx
  if !ctxEN c then .fault (tfault 0x0A 8 0 kind va) else s.walkFrom kind user va [1, 2, 3] (ctxRoot c)

/-- The leaf with A, and for a write D, set as a walk to it sets them with AD = 1 (R26, R27). -/
def usedEntry (ad : Bool) (kind : Kind) (e : Word) : Word :=
  if !ad then e
  else
    let e1 := e ||| 0x40#64
    if kind.writes then e1 ||| 0x80#64 else e1

/-! ### Translation caches (R21, R27, R31) -/

/-- The entry serves the address for the kind: it covers the page, its ASID or G fits, and with AD = 1 an entry with
D = 0 serves no write (R21, R27). -/
def TlbEntry.serves (x : TlbEntry) (c : Word) (kind : Kind) (va : Nat) : Bool :=
  va / 2 ^ x.bits == x.va / 2 ^ x.bits && (x.asid == ctxASID c || pteBit x.leaf 8)
  && !(ctxAD c && kind.writes && !pteBit x.leaf 7)

/-- An entry added to a cache of `n` entries; when it is full, a free choice makes room (log 8). -/
def addTlb (n pick : Nat) (l : List TlbEntry) (x : TlbEntry) : List TlbEntry :=
  let l' := l.filter (fun y => !(y.va / 2 ^ y.bits == x.va / 2 ^ x.bits && y.bits == x.bits && y.asid == x.asid))
  if l'.length < n then l' ++ [x] else l'.eraseIdx (pick % n) ++ [x]

/-- An open invalidation covers the page of an address (R35, R301): by range and ASID, or by G for an entry. -/
def Inval.covers (v : Inval) (asid : BitVec 16) (glob : Bool) (va bits : Nat) : Bool :=
  match v.scope with
  | .range base len =>
    (asid == v.asid || glob) && decide (0 < len) && decide (va / 2 ^ bits * 2 ^ bits < base + len)
      && decide (base < (va / 2 ^ bits + 1) * 2 ^ bits)
  | .asid => asid == v.asid
  | .all => asid == v.asid || glob
  | .contexts => true

/-- A page of an ASID, or of every ASID, waits for an open invalidation that has not been acknowledged (R35, R36). -/
def State.pageBlocked (s : State) (asid : BitVec 16) (glob : Bool) (va bits : Nat) : Option Nat :=
  (s.invals.find? (fun p => p.2.covers asid glob va bits)).map (fun p => p.1)

/-- A lookup of the address waits for an open invalidation that has not been acknowledged (R35, R36). -/
def State.lookupBlocked (s : State) (asid : BitVec 16) (va : Nat) : Option Nat := s.pageBlocked asid false va 16

/-- A sealed range covers the address (R157, R158). -/
def State.sealedAt (s : State) (asid : BitVec 16) (va : Nat) : Bool :=
  s.seals.any (fun x => x.asid == asid && decide (x.base ≤ va) && decide (va < x.base + x.len))

/-- What a translation comes to. -/
inductive Tr where
  /-- The physical address, the leaf, and the page it translated through. -/
  | ok (pa : Nat) (e : Word) (page : PageTag)
  | fault (f : FaultInfo)
  /-- No cache holds the page. -/
  | miss
  /-- An invalidation holds the lookup back. -/
  | blocked (id : Nat)
deriving Repr

/-- A lookup in a list of entries with the checks of R26 on a hit; the level of a fault is the leaf's. -/
def State.lookup (s : State) (ctx : Nat) (kind : Kind) (user : Bool) (va : Nat) (l : List TlbEntry) : Tr :=
  let c := s.asctxAt ctx
  if !ctxEN c then .fault (tfault 0x0A 8 0 kind va)
  else match s.lookupBlocked (ctxASID c) va with
  | some id => .blocked id
  | none =>
    match l.find? (fun x => x.serves c kind va) with
    | none => .miss
    | some x =>
      match s.pageBlocked x.asid (pteBit x.leaf 8) x.va x.bits with
      | some id => .blocked id
      | none =>
      let pa := bitsAt x.leaf x.bits (52 - x.bits) * 2 ^ x.bits + va % 2 ^ x.bits
      if !s.frameRange pa then .fault (tfault 0x0A 6 x.level kind va)
      else if s.typeMismatch x.leaf pa then .fault (tfault 0x0A 0xA x.level kind va)
      else match permFault x.leaf kind user with
      | some synd => .fault (tfault 0x0B synd x.level kind va)
      | none => .ok pa x.leaf ⟨va / 2 ^ x.bits * 2 ^ x.bits, x.bits, ctxASID c, pteBit x.leaf 8⟩

/-- The context of an agent's launch. -/
def State.ctxOf (s : State) (lid : Option Nat) : Nat :=
  match lid.bind s.launches.find with
  | some l => l.ctx
  | none => 0

/-- The die of a core, for its die TLB (R31). -/
def State.dieOf (s : State) (c : CoreId) : Nat := s.physCore c / 512

/-- The translation of a paged address in the micro-TLB of a core (R31). -/
def State.coreLookup (s : State) (c : CoreId) (kind : Kind) (va : Nat) : Tr :=
  s.lookup (s.ctxOf (s.core c).lid) kind true va (s.core c).utlb

/-- The translation of a paged address in the die TLB (R31). -/
def State.dieLookup (s : State) (die ctx : Nat) (kind : Kind) (va : Nat) : Tr :=
  s.lookup ctx kind true va ((s.dtlb.find die).getD [])

/-- The entry of the die TLB that serves an address. -/
def State.dieEntry (s : State) (die ctx : Nat) (kind : Kind) (va : Nat) : Option TlbEntry :=
  ((s.dtlb.find die).getD []).find? (fun x => x.serves (s.asctxAt ctx) kind va)

/-! ### The times of lookups and walks (R494) -/

/-- A lookup of the die TLB after a miss of a micro-TLB (R494). -/
def dieLookupTime : Nat := 10
/-- The wait for a leaf with MIG = 1 (R42). -/
def migrationWait : Nat := 1024

/-- The addresses of the entries that a walk reads (R26). -/
def State.walkEntries (s : State) (va : Nat) : List Nat → Nat → List Nat
  | [], _ => []
  | level :: rest, table =>
    let ea := table + va / 2 ^ levelBits level % 8192 * 8
    let e := BitVec.ofNat 64 (memNat s.mem ea 8)
    if s.tableRange table then
      ea :: (if pteBit e 0 && !pteBit e 1 then s.walkEntries va rest (bitsAt e 16 36 * 2 ^ 16) else [])
    else []

/-- The addresses of the entries of a walk in a context. -/
def State.walkAddrs (s : State) (ctx va : Nat) : List Nat := s.walkEntries va [1, 2, 3] (ctxRoot (s.asctxAt ctx))

/-- The time of a walk whose entries hit in L2, from the walker of a die, with the filling of the TLBs (R494). -/
def State.walkTime (s : State) (die : Nat) (eas : List Nat) : Nat :=
  4 + (eas.map (fun ea =>
    let k := sliceOf ea
    6 * (s.path (walkerRouter die) (sliceRouter k)).length + (if k / 32 = die then 14 else 30))).foldl (· + ·) 0

/-! ### The local window (R14 to R19, R47, R48) -/

/-- Where an access goes (R161). -/
inductive Place where
  /-- A line of HBM, the second tier or host memory, at its slice. -/
  | slice
  /-- L2 scratch, at its slice. -/
  | scratch
  /-- A palette; `own` for the core's own. -/
  | palette (core : CoreId) (own : Bool)
  /-- Tile memory, through a window. -/
  | tileMem (t : TileId)
  /-- The tile's own memory. -/
  | ownTile
  /-- A device register. -/
  | device
deriving DecidableEq, Repr

/-- A region of a palette (R16, R53). -/
inductive PalRegion where
  | code | regs | rot | cmt | rep | acc | scr
deriving DecidableEq, Repr

/-- The region of a palette offset (R53). -/
def regionOf (part : Word) (off : Nat) : PalRegion :=
  if off < partXB part then .code
  else if off < partROTB part then .regs
  else if off < partCMTB part then .rot
  else if off < partREPB part then .cmt
  else if off < partACCB part then .rep
  else if off < partSCRB part then .acc
  else .scr

/-- Who reaches a palette (the columns of R16). -/
inductive PalUser where
  | ownLoad | ownStore | remote | copy | drain
deriving DecidableEq, Repr

/-- The cause that R16 gives for a region and a user, or none where the access is performed. -/
def regionCause : PalRegion → PalUser → Option Nat
  | .code, .ownLoad => some 0x07
  | .code, .ownStore => some 0x07
  | .code, _ => some 0x06
  | .regs, _ => some 0x06
  | .rot, .copy => none
  | .rot, _ => some 0x06
  | .cmt, _ => some 0x06
  | .rep, .ownLoad => none
  | .rep, _ => some 0x06
  | .acc, .remote => some 0x06
  | .acc, _ => none
  | .scr, .drain => some 0x06
  | .scr, _ => none

/-- The cause of an access of `n` bytes at a palette offset (R16); a palette without a valid partition word has no
region. -/
def palCause (part : Word) (off n : Nat) (u : PalUser) : Option Nat :=
  if !partV part then some 0x06
  else match regionCause (regionOf part off) u with
  | some c => some c
  | none => regionCause (regionOf part (off + n - 1)) u

/-- Bits 54:48 of the address are all ones: the local window (R11). -/
def inWindow (va : Nat) : Bool := va / 2 ^ 48 % 128 == 127

end Sys2Proof.Machine
end

