-- ==== Sys2Proof/Machine/Requests.lean ====
section
/-!
DEFINITION. The requests that places have refused and not yet served (spec/02_memory_hierarchy.md R78, R79): who made
them, their reservations and claims, and their end.
-/
namespace Sys2Proof.Machine

/-! ### What a request asks for (R254, R315) -/

/-- The bytes of an atomic's operand (R314, R315). -/
def amoBytes (op : AmoOp) (w : Bool) : Nat := if op = .addfx then 16 else if w then 8 else 4

/-- The bytes that a request accesses. -/
def ReqOp.size : ReqOp → Nat
  | .again => 1
  | .load _ n _ => n
  | .store b => b.length
  | .atom op w _ _ _ => amoBytes op w

/-- The request writes. -/
def ReqOp.isWrite : ReqOp → Bool
  | .store _ => true
  | .atom .. => true
  | _ => false

/-! ### Reservations and claims (R78, R79) -/

/-- The open request of a requester for the line of an address (R78, R79). -/
def State.openReq (s : State) (who : Requester) (pa : Nat) : Option (Nat × Req) :=
  s.reqs.find? (fun q => q.2.who == who && q.2.pa / 256 == pa / 256)

/-- The slice whose list of reservations and claims a request is in. -/
def Req.slice (q : Req) : Nat := sliceOf q.pa

/-- The reservations in force at a slice. -/
def State.reservedAt (s : State) (slice : Nat) : Nat :=
  (s.reqs.filter (fun q => q.2.reserved && q.2.slice == slice)).length
/-- The claims in the list of a slice. -/
def State.claimsAt (s : State) (slice : Nat) : Nat :=
  (s.reqs.filter (fun q => q.2.claimed && q.2.slice == slice)).length

/-- A request inserted among others in the order of grants and claims. -/
def byTurn (x : Nat × Req) : List (Nat × Req) → List (Nat × Req)
  | [] => [x]
  | y :: t => if x.2.turn < y.2.turn then x :: y :: t else y :: byTurn x t

/-- Requests in the order of their grants and claims (R79). -/
def inTurn (l : List (Nat × Req)) : List (Nat × Req) := l.foldl (fun a x => byTurn x a) []

/-- The oldest claim of a slice takes a reservation that has become free (R79). -/
def State.grantClaim (s : State) (slice : Nat) : State :=
  match inTurn (s.reqs.filter (fun q => q.2.claimed && q.2.slice == slice)) with
  | [] => s
  | (id, q) :: _ =>
    if s.reservedAt slice < 32 then
      { s with reqs := s.reqs.put id { q with claimed := false, reserved := true, turn := s.grants }, grants := s.grants + 1 }
    else s

/-- The requests that a slice keeps for a line are answered in the order of their reservations (R79). An event comes again by
itself; an agent's request is served or makes its instruction issue anew. -/
def State.answerKept (s : State) (line : Nat) : State :=
  (inTurn (s.reqs.filter (fun q => q.2.kept && q.2.pa / 256 == line))).foldl (fun t q =>
    match q.2.who with
    | .event e => { t with reqs := t.reqs.put q.1 { q.2 with kept := false } }.post e
    | _ => t.post (.sliceRequest q.1)) s

/-- A request has been served or is given up: its reservation goes to the oldest claim, and those kept behind it come. -/
def State.endReq (s : State) (id : Nat) : State :=
  match s.reqs.find id with
  | none => s
  | some q => ({ s with reqs := s.reqs.del id }.grantClaim q.slice).answerKept (q.pa / 256)

/-- The open request of a requester for a line is served. -/
def State.closeReq (s : State) (who : Requester) (pa : Nat) : State :=
  match s.openReq who pa with
  | some (id, _) => s.endReq id
  | none => s

/-- The requests that a test picks out are given up. -/
def State.dropReqs (s : State) (p : Req → Bool) : State :=
  (s.reqs.filter (fun q => p q.2)).foldl (fun t q => t.endReq q.1) s

/-- A requester may be served at a line now: it holds the oldest reservation there, or none is kept (R79). -/
def State.mayServe (s : State) (who : Requester) (pa : Nat) : Bool :=
  let other (p : Req → Bool) : Bool := s.reqs.any (fun q => q.2.who != who && q.2.pa / 256 == pa / 256 && p q.2)
  match s.openReq who pa with
  | some (_, q) => if q.reserved then !other (fun r => r.reserved && decide (r.turn < q.turn)) else !other Req.kept
  | none => !other Req.kept

/-- A place has refused the message of an event, which is sent again. -/
def State.resent (s : State) (e : Event) : Bool := s.reqs.any (fun q => q.2.who == Requester.event e)

/-- A tile's window port holds the access of an event (R70). -/
def State.portHolds (s : State) (e : Event) : Bool :=
  s.tiles.any (fun p => p.2.port.any (fun id => ((s.reqs.find id).map (fun q => q.who == Requester.event e)).getD false))

/-- The state as a message of an event meets it: one that is in flight, or that a window port holds, is delivered while injection
is refused; one that is sent again is refused (R429). -/
def State.underway (s : State) (e : Event) : State :=
  if s.resent e && !s.portHolds e then s else { s with rerouting := false }

/-- The page of an access that a requester has in flight (R36): its request keeps it until it is served. -/
def State.inFlight (s : State) (who : Requester) (asid : BitVec 16) (va : Nat) : Option Req :=
  (s.reqs.find? (fun q => q.2.who == who && ((q.2.page.map (fun p => p.asid == asid && va / 2 ^ p.bits == p.va / 2 ^ p.bits)).getD false))).map
    (fun q => q.2)

end Sys2Proof.Machine
end

