-- ==== Sys2Proof/Machine/Ordered.lean ====
section
/-!
DEFINITION. Ordered domains (spec/05_consistency.md R174 to R189) as far as stores need them: the read signature,
the start of a task on a slot (spec/06_execution_and_scheduling.md R207), and aborts.
-/
namespace Sys2Proof.Machine

/-! ### The read signature (R176) -/

/-- The ten bits of a number in reverse order. -/
def rev10 (n : Nat) : Nat :=
  (List.range 10).foldl (fun a k => a + n / 2 ^ k % 2 * 2 ^ (9 - k)) 0

/-- H1 of a block (R176). -/
def sigH1 (b : Nat) : Nat := (b % 1024) ^^^ (b / 2 ^ 10 % 1024) ^^^ (b / 2 ^ 20 % 1024) ^^^ (b / 2 ^ 30 % 1024)
/-- H2 of a block (R176). -/
def sigH2 (b : Nat) : Nat := rev10 (b % 1024) ^^^ (b / 2 ^ 20 % 1024) ^^^ (b / 2 ^ 40 % 64)

/-- A slot with a read of a 64-byte block recorded (R176). -/
def Slot.record (x : Slot) (b : Nat) : Slot :=
  { x with sigLo := x.sigLo ||| (1#1024 <<< sigH1 b), sigHi := x.sigHi ||| (1#1024 <<< sigH2 b) }

/-- A block matches the slot's signature (R176). -/
def Slot.sigHit (x : Slot) (b : Nat) : Bool := x.sigLo.getLsbD (sigH1 b) && x.sigHi.getLsbD (sigH2 b)

/-- The 64-byte blocks of `n` bytes from an address. -/
def blocksOf (pa n : Nat) : List Nat :=
  if n = 0 then [] else (List.range ((pa + n - 1) / 64 - pa / 64 + 1)).map (fun k => pa / 64 + k)

/-! ### Task start (R207) -/

/-- The slot as a task begins on it (R207); what the slot keeps from its earlier task is kept. -/
def Slot.begin (x : Slot) (r : TaskRec) (ser : BitVec 32) (spec : Spec) : Slot :=
  let h := x.h
  let g := (List.range 4).foldl (fun (v : Vector Word 32) k => v.setIfInBounds (k + 1) (r.args.getD k 0))
    (Vector.replicate 32 (0 : Word))
  let h' : Hart := { h with
    g := g, v := Vector.replicate 32 0, p := Vector.replicate 8 0, pc := r.pc.setWidth 23,
    lv := Vector.replicate 4 Level.zero, qrb := 0, qa := 0, stg := 0, lam := 0, cdep := 0, ild := 0,
    cause := h.cause &&& ~~~(1#64 <<< 62), latch := none }
  { x with
    h := h', st := .running, wait := .none, tid := r.tid, lc := r.lc, ts := r.ts, dom := r.dom,
    budEn := r.budget != 0, budLeft := r.budget, budCk := 0,
    uih := x.uih &&& ~~~(0x400000000003FFFF#64), ovh := x.ovh &&& ~~~(0x4003FFFF00000000#64),
    pair := none, task := some r, ser := ser, spec := spec, sigLo := 0, sigHi := 0, buf := [], held := [],
    due := x.due.filter (fun d => d != .budget), inl := [], gap := false, second := none, undo := none }

/-- How a task of a domain begins: free, or speculative (R174, R175). -/
def specOf (dom : BitVec 4) : Spec := if dom = 0 then .free else .speculative

/-- The consecutive aborts of a task after which its next run waits for the front (R189). -/
def maxAborts : Nat := 16

/-- A run that has had `n` consecutive aborts, the last by a data error or not: after 16 it starts only when it may commit,
and then irrevocable (R188, R189). -/
def Slot.rerun (y : Slot) (n : Nat) (data : Bool) : Slot :=
  if n < maxAborts then { y with aborts := n, dataAborted := data }
  else { y with aborts := n, dataAborted := data, st := .waiting, wait := .commit }

/-- A task record begins on a slot (R207); the core counts the start (R205). Aborts that it has had already count on. -/
def State.startOn (s : State) (i : SlotId) (r : TaskRec) : State :=
  let c := s.core (coreOf i)
  let ser : BitVec 32 := c.starts + 1
  let s1 := s.setCore (coreOf i) { c with starts := ser }
  let y := (s1.slot i).begin r ser (specOf r.dom)
  match s.aborted.find? (fun a => a.1 == r) with
  | some a => { s1 with aborted := s1.aborted.erase a }.setSlot i (y.rerun a.2.1 a.2.2)
  | none => s1.setSlot i (y.rerun 0 false)

/-- A slot whose task has ended: idle, its allotment returned and every level inactive (R274). -/
def Slot.retire (x : Slot) : Slot :=
  let h := x.h
  { x with h := { (h.deactivate 0) with qa := 0, latch := none }, st := .idle, wait := .none, task := none,
           spec := .free, aborts := 0, dataAborted := false, sigLo := 0, sigHi := 0, buf := [], held := [],
           pair := none, budEn := false, due := x.due.filter (fun d => d != .budget) }

/-! ### Abort (R182) -/

/-- The record was created by one of these runs and is linked to it (R182, R205). -/
def linkedTo (r : TaskRec) (runs : List (Nat × Nat)) : Bool :=
  r.lnk && runs.contains (r.ccore.toNat, r.cser.toNat)

/-- The runs that are linked children of the given runs: their core and serial. -/
def State.childRuns (s : State) (runs : List (Nat × Nat)) : List (Nat × Nat) :=
  s.slots.filterMap (fun p =>
    match p.2.task with
    | some r => if linkedTo r runs then some (p.1 / 4, p.2.ser.toNat) else none
    | none => none)

/-- The runs with all the runs below them, to a depth (R182). -/
def State.allRuns (s : State) : Nat → List (Nat × Nat) → List (Nat × Nat)
  | 0, runs => runs
  | n + 1, runs =>
    let more := (s.childRuns runs).filter (fun r => !runs.contains r)
    if more.isEmpty then runs else s.allRuns n (runs ++ more)

/-- An event that carries a record of one of these runs. -/
def eventCarries (e : Event) (runs : List (Nat × Nat)) : Bool :=
  match e with
  | .spawnArrival _ _ r => linkedTo r runs
  | .stealReply _ (some r) => linkedTo r runs
  | _ => false

/-- The slots whose task is a linked child of one of the given runs. -/
def State.childSlots (s : State) (runs : List (Nat × Nat)) : List SlotId :=
  s.slots.filterMap (fun p =>
    if h : p.1 < 4096 then (if (p.2.task.map (fun r => linkedTo r runs)).getD false then some ⟨p.1, h⟩ else none) else none)

/-- What a slot has in hand for its run goes with it: the copies that it holds, its claims and its requests (R135, R180,
R182). -/
def State.dropHeld (s : State) (i : SlotId) : State :=
  { s with
    copies := s.copies.filter (fun q => !(q.2.held && q.2.slot == i))
    claims := s.claims.filter (fun p => p.2 != i.val) }.dropReqs (fun q => q.who == Requester.agent (.slot i))

/-- The linked children of the given runs discarded: unstarted records leave deques, preload buffers, arm entries and
the network, and running children become idle (R182); a preload of theirs returns to its deque (R219). -/
def State.discard (s : State) (runs : List (Nat × Nat)) : State :=
  let s1 : State := { s with
    deadRuns := runs ++ s.deadRuns
    cores := s.cores.map (fun p => (p.1, { p.2 with
      deque := p.2.deque.filter (fun r => !linkedTo r runs),
      arms := p.2.arms.filter (fun a => !linkedTo a.task runs) }))
    slots := s.slots.map (fun p => (p.1, { p.2 with preload := p.2.preload.filter (fun r => !linkedTo r runs) }))
    agenda := s.agenda.filter (fun e => !eventCarries e runs)
    timers := s.timers.filter (fun e => !eventCarries e.2 runs) }
  (s1.childSlots runs).foldl (fun t i =>
    let u := ((t.untake i).returnPreload i).dropHeld i
    u.setSlot i (u.slot i).retire) s1

/-- The abort of the task on a slot (R182): its buffer, signature, held operations and linked children go, and it
restarts from its record; what it took at a boundary in this ck is not taken (R406). After 16 consecutive aborts the run waits for the front (R189). -/
def State.abortTask (s : State) (i : SlotId) : State :=
  let x := s.slot i
  match x.task with
  | none => s
  | some r =>
    let s0 := (s.untake i).returnPreload i
    let runs := s0.allRuns 4096 [(i.val / 4, x.ser.toNat)]
    let s2 := (s0.discard runs).dropHeld i
    let c := s2.core (coreOf i)
    let ser : BitVec 32 := c.starts + 1
    let s3 := s2.setCore (coreOf i) { c with starts := ser }
    s3.setSlot i (((s3.slot i).begin r ser .speculative).rerun (x.aborts + 1) false)

/-- The speculative tasks whose signature matches one of the blocks (R181). -/
def State.victims (s : State) (blocks : List Nat) (except : Option SlotId) : List SlotId :=
  s.slots.filterMap (fun p =>
    if h : p.1 < 4096 then
      if p.2.spec == .speculative && p.2.task.isSome && some (⟨p.1, h⟩ : SlotId) != except && blocks.any p.2.sigHit
      then some ⟨p.1, h⟩ else none
    else none)

/-- A write to these blocks aborts the speculative tasks that read them (R181). -/
def State.abortReaders (s : State) (blocks : List Nat) (except : Option SlotId) : State :=
  (s.victims blocks except).foldl (fun t i => if (t.slot i).spec == .speculative then t.abortTask i else t) s

/-- A fault on a core slot is taken (R407); the frame that entry writes is a write like any other (R181). -/
def State.takeFault (s : State) (i : SlotId) (f : FaultInfo) (resume : BitVec 23) : State :=
  let s := s.noteUndo i
  if s.mayTrap i then (s.trapEntry i f resume).abortReaders [s.frameAddr i / 64] (some i) else s.escalate i f resume

end Sys2Proof.Machine
end

