-- ==== Sys2Proof/Machine/Access.lean ====
section
/-!
DEFINITION. Accesses to memory: the checks of a core's or a tile's access (spec/09_memory_instructions.md R302, R303;
spec/01_address_spaces.md R14 to R19), the answer of its place (spec/02_memory_hierarchy.md R70, R74 to R81, R495), and
the one operation that writes bytes (R419, spec/05_consistency.md R181).
-/
namespace Sys2Proof.Machine

/-! ### Tile memory and windows (R17, R65, R70) -/

/-- The domain of a tile. -/
def State.domainOf (s : State) (t : Nat) : Option (Nat × Domain) := s.domains.find? (fun p => p.2.member t)

/-- The memory size of a tile: 4 MiB with pentimento on, 5 MiB with it off (R17, R65). Of a tile that no barrier domain
names the spec gives none: 4 MiB is the model's choice (log 96). -/
def State.tileSize (s : State) (t : Nat) : Nat :=
  match s.domainOf t with
  | some (_, d) => if d.pent then 0x400000 else 0x500000
  | none => 0x400000

/-- The window opens in superstep `n` (R232). -/
def Window.opensIn (w : Window) (n : Nat) : Bool :=
  n == w.first || (w.every != 0 && decide (w.first < n) && (n - w.first) % w.every == 0)

/-- The wait hint outside an open window (R70): the ck until the next window of the superstep, in units of 8. -/
def Domain.windowHint (d : Domain) : Nat :=
  let next := (d.windows.filter (fun w => w.opensIn d.step && decide (d.off < w.opn + d.lead))).map (fun w => w.opn + d.lead - d.off)
  match next with
  | [] => 255
  | n :: r => min 255 ((r.foldl min n + 7) / 8)

/-- What a core's access to tile memory meets (R17): performed, refused with a hint, or a fault. -/
inductive WinAns where
  | ok
  | refuse (h : Nat)
  | fault (cause synd : Nat)
deriving DecidableEq, Repr

/-- The three tests of R17 on an access of `n` bytes at offset `off` of tile `t`. -/
def State.windowTest (s : State) (t off n : Nat) : WinAns :=
  if s.tileSize t < off + n then .fault 0x0A 2
  else match s.domainOf t with
  | none => .refuse 255
  | some (_, d) =>
    match d.windows.find? (fun w => w.isOpen) with
    | none => .refuse d.windowHint
    | some w => if w.rbase ≤ off ∧ off + n ≤ w.rbase + w.rlen then .ok else .fault 0x0B 6

/-! ### Where a core's access goes -/

/-- Where an access goes: its place, its physical address, the leaf and the page it translated through. -/
structure Dest where
  place : Place
  pa : Nat
  page : Option PageTag
  /-- It lies in a sealed range (R157). -/
  sld : Bool
deriving DecidableEq, Repr

/-- What the checks of an access come to (R302): a destination, a fault, a wait for a translation, an invalidation or
the cluster map, or a device access that the spec does not describe. -/
inductive Aim where
  | ok (d : Dest)
  | fault (f : FaultInfo)
  | walk
  | blocked (id : Nat)
  /-- The cluster is in change (R48). -/
  | change
deriving Repr

/-- An access of a core to a palette (R16, R47, R48). That a region which R16 forbids faults before a cluster in change
refuses is the model's order (log 97); an access to the core's own palette is not one that a change refuses (log 116). -/
def State.aimPalette (s : State) (me c : CoreId) (off n : Nat) (kind : Kind) (va : Nat) : Aim :=
  let own := decide (me = c)
  if !own && !s.clusterPresent (c.val / 8) then .fault (tfault 0x0A 7 0 kind va)
  else
    let u : PalUser := if !own then .remote else if kind.writes then .ownStore else .ownLoad
    match palCause (s.core c).part off n u with
    | some k => .fault { cause := k, kind := kind.num, faddr := va }
    | none =>
      if !own && clmapChg (s.clmapAt (c.val / 8)) then .change
      else .ok ⟨.palette c own, s.palette c + off, none, false⟩

/-- An access of a core through the local window (R14 to R19). -/
def State.aimWindow (s : State) (me : CoreId) (va n : Nat) (kind : Kind) : Aim :=
  let off := va % 2 ^ 48
  if off < 0x800000 then
    (if off < 0x40000 then s.aimPalette me me off n kind va
     else .fault { cause := 0x06, kind := kind.num, faddr := va })
  else if 0x10000000 ≤ off ∧ off < 0x20000000 then
    s.aimPalette me (Fin.ofNat 1024 ((off - 0x10000000) / 0x40000)) (off % 0x40000) n kind va
  else if 0x40000000 ≤ off ∧ off < 0x80000000 then
    let t := (off - 0x40000000) / 0x800000
    let o := off % 0x800000
    match s.windowTest t o n with
    | .fault c y => .fault (tfault c y 0 kind va)
    | _ => .ok ⟨.tileMem (Fin.ofNat 128 t), tileBase (Fin.ofNat 128 t) + o, none, false⟩
  else if 0x80000000 ≤ off ∧ off < 0xA0000000 then
    (if off % 0x800000 < s.scw * 0x80000 then .ok ⟨.scratch, 0x200080000000 + (off - 0x80000000), none, false⟩
     else .fault (tfault 0x0A 2 0 kind va))
  else .fault (tfault 0x0A 2 0 kind va)

/-- The checks of an access of `n` bytes by a core: translation or decoding, region rules, sealed ranges (R302). -/
def State.aim (s : State) (me : CoreId) (va n : Nat) (kind : Kind) : Aim :=
  if 2 ^ 55 ≤ va then .fault (tfault 0x0A 1 0 kind va)
  else if inWindow va then s.aimWindow me va n kind
  else match s.coreLookup me kind va with
  | .fault f => .fault f
  | .miss => .walk
  | .blocked id =>
    if kind.writes && s.sealedAt (ctxASID (s.asctxAt (s.ctxOf (s.core me).lid))) va then
      .fault { cause := 0x09, kind := kind.num, faddr := va }
    else .blocked id
  | .ok pa e page =>
    let sld := s.sealedAt page.asid va
    if kind.writes && sld then .fault { cause := 0x09, kind := kind.num, faddr := va }
    else if pteMT e == 1 then .ok ⟨.device, pa, some page, sld⟩
    else .ok ⟨.slice, pa, some page, sld⟩

/-! ### What a place answers -/

/-- A place serves the access, or refuses it with a wait hint; `resv` tells whether refusals may lead to a
reservation (R70, R77, R79). -/
inductive Answer where
  | serve
  | refuse (h : Option Nat) (resv : Bool)
deriving DecidableEq, Repr

/-- A line of host memory, which never enters the tentative state: a superstep's writes to it wait for the closing barrier
(R45). -/
def hostLine (line : Nat) : Bool := decide (0x400000000000 ≤ line * 256)

/-- A line is tentative, in some domain (R45, R80). -/
def State.tentAt (s : State) (line : Nat) : Bool := !hostLine line && s.tent.any (fun p => p.1 / 64 == line)

/-- A commit has claimed a block of the range (R180). -/
def State.claimed (s : State) (pa n : Nat) : Bool := !s.claims.isEmpty && (blocksOf pa n).any (fun b => s.claims.any (fun p => p.1 == b))

/-- A line that a commit has claimed or that an event holds in flight is refused; a tentative line refuses writes
(R77, R180, R495). -/
def State.lineAnswer (s : State) (line : Nat) (writes : Bool) : Answer :=
  if s.claimed (line * 256) 256 then .refuse (some 2) true
  else match s.lines.find line with
  | none => .refuse none true
  | some l =>
    match l.st with
    | .ready => if writes && s.tentAt line then .refuse none true else .serve
    | _ => .refuse none true

/-- A write to 64-byte lines that the host may hold waits for a BIRsp (R43). -/
def hostMayHold (l : Line) (pa n : Nat) : Bool :=
  (List.range 4).any (fun k => l.hostHeld.getLsbD k && decide (pa % 256 / 64 ≤ k) && decide (k ≤ (pa % 256 + n - 1) / 64))

/-- The access stays in its own core. -/
def Place.own : Place → Bool
  | .palette _ o => o
  | .ownTile => true
  | _ => false

/-- The answer of the place of an access of `n` bytes by a requester (R70, R77, R79). While the mesh is rerouted, routers
refuse it (R429). -/
def State.answer (s : State) (who : Requester) (d : Dest) (n : Nat) (writes : Bool) : Answer :=
  if s.rerouting && !d.place.own then .refuse (some 255) false
  else if d.place != .slice && s.claimed d.pa n then .refuse (some 2) false
  else match d.place with
  | .slice =>
    match s.lineAnswer (d.pa / 256) writes with
    | .serve =>
      if !s.mayServe who d.pa then .refuse none true
      else if writes && ((s.lines.find (d.pa / 256)).map (fun l => hostMayHold l d.pa n)).getD false
      then .refuse none true else .serve
    | a => a
  | .tileMem t =>
    match s.windowTest t.val (d.pa - tileBase t) n with
    | .ok => .serve
    | .refuse h => .refuse (some h) false
    | .fault _ _ => .serve
  | _ => .serve

/-! ### Palette banks (R62, R63) -/

/-- The banks of an access of `n` bytes at a palette, as 16 × physical core + o[9:6] (R62). -/
def palBanks (pa n : Nat) : List Nat :=
  if 0x200000000000 ≤ pa ∧ pa < 0x200010000000 then
    (blocksOf pa n).map (fun b => pa / 0x40000 % 1024 * 16 + b % 16)
  else []

/-- A bank serves a requester in this ck: only the requester that it serves already, or, of a free bank, the one that has
lost there in 8 consecutive ck (R62). Several accesses that one instruction makes are one request. -/
def State.bankServes (s : State) (who : Requester) (b : Nat) : Bool :=
  match s.banks.find? (fun x => x.1 == b) with
  | some x => x.2 == who
  | none =>
    match s.bankWaits.find? (fun w => w.bank == b && decide (8 ≤ w.lost) && w.last + 1 == s.ck) with
    | some w => w.who == who
    | none => true

/-- A request loses at a bank in this ck. -/
def loseAt (ck : Nat) (who : Requester) (b : Nat) : List BankWait → List BankWait
  | [] => [⟨b, who, 1, ck⟩]
  | w :: t =>
    if w.bank == b && w.who == who then { w with lost := if w.last + 1 = ck then w.lost + 1 else 1, last := ck } :: t
    else w :: loseAt ck who b t

/-- An access takes these banks in this ck, or loses (R62, R63). -/
def State.takeBankList (s : State) (who : Requester) (bs : List Nat) : Bool × State :=
  if bs.all (s.bankServes who) then
    (true, { s with banks := bs.map (fun b => (b, who)) ++ s.banks, bankWaits := s.bankWaits.filter (fun w => !(w.who == who && bs.contains w.bank)) })
  else (false, { s with bankWaits := (bs.filter (fun b => !s.bankServes who b)).foldl (fun l b => loseAt s.ck who b l) s.bankWaits })

/-- An access of `n` bytes takes its banks of this ck, or loses (R62, R63). -/
def State.takeBanks (s : State) (who : Requester) (pa n : Nat) : Bool × State := s.takeBankList who (palBanks pa n)

/-! ### Reads and writes that a place performs -/

/-- The committed bytes of a physical range (R75, R191). -/
def State.read (s : State) (pa n : Nat) : List Byte := memBytes s.mem pa n

/-- Some granule of the range carries an uncorrectable mark (R419). -/
def State.marked (s : State) (pa n : Nat) : Bool := (blocksOf pa n).any s.marks.contains

/-- The marks after a write of `n` bytes: a granule that is covered whole loses its mark (R419). -/
def marksAfter (marks : List Nat) (pa n : Nat) : List Nat :=
  marks.filter (fun g => !(decide (pa ≤ g * 64) && decide (g * 64 + 64 ≤ pa + n)))

/-- The marks after a write that leaves some bytes out: a granule of whose bytes none is left out loses its mark (R419). -/
def marksAfterMask (marks : List Nat) (pa : Nat) (bytes : List (Option Byte)) : List Nat :=
  marks.filter (fun g => !(decide (pa ≤ g * 64) && decide (g * 64 + 64 ≤ pa + bytes.length)
    && ((bytes.drop (g * 64 - pa)).take 64).all Option.isSome))

/-- The slice whose place a physical address is. -/
def State.sliceAt (s : State) (pa : Nat) : Option Nat :=
  match s.phys pa with
  | .hbm | .tier2 | .host => some (sliceOf pa)
  | .scratch k _ => some k
  | _ => none

/-- The 64-byte lines of a line. -/
def quarters (line : Nat) : List Nat := (List.range 4).map (fun k => 256 * line + 64 * k)

/-- A write of a line of host memory that the slice holds without ownership sends RdOwn (R456; log 133). -/
def State.ownLine (s : State) (line : Nat) : State :=
  match s.lines.find line with
  | some l =>
    if s.phys (line * 256) == .host && !l.own then
      { s with lines := s.lines.put line { l with own := true }, cxlOut := s.cxlOut ++ (quarters line).map CxlMsg.rdOwn }
    else s
  | none => s

/-- The slice of one line takes its next stamp, and the line is dirty, and owned (R74, R456). -/
def State.stampLine (s0 : State) (line : Nat) : State :=
  let s := s0.ownLine line
  match s.sliceAt (line * 256) with
  | none => s
  | some k =>
    { s with
      seqs := s.seqs.put k ((s.seqs.find k).getD 0 + 1)
      lines := match s.lines.find line with
        | some l => s.lines.put line { l with dirty := true }
        | none => s.lines }

/-- The slices that perform a write of `n` bytes stamp it, one stamp a line, and the acknowledgments bring the stamps to
the writer (R74). -/
def State.stamp (s : State) (pa n : Nat) (by_ : Option SlotId) : State :=
  if n = 0 then s
  else
    let ls := (List.range ((pa + n - 1) / 256 - pa / 256 + 1)).map (fun k => pa / 256 + k)
    let s1 := ls.foldl State.stampLine s
    let got := (ls.filterMap (fun l => s1.sliceAt (l * 256))).map (fun k => (k, (s1.seqs.find k).getD 0 - 1))
    match by_ with
    | some i => if got.isEmpty then s1 else { s1 with acks := s1.acks.put i.val got }
    | none => s1

/-- A slice answers the slots whose watched barrier a write of `n` bytes may change (R326). A watch stays at the physical
address that it was set for (log 115). -/
def State.wakeWatch (s : State) (pa n : Nat) : State :=
  { s with slots := s.slots.map (fun p =>
      match p.2.wait with
      | .txn q true =>
        if p.2.st == .waiting && decide (q < pa + n) && decide (pa < q + 16) then (p.1, { p.2 with st := .running, wait := .none }) else p
      | _ => p) }

/-- The one operation that writes bytes at their place: it stamps the write, clears the marks of granules written whole, answers
watches, and aborts the speculative tasks that read a block it writes (R74, R181, R326, R419). -/
def State.write (s : State) (pa : Nat) (bytes : List (Option Byte)) (by_ : Option SlotId) : State :=
  let s1 := { s with mem := memPutMask s.mem pa bytes, marks := marksAfterMask s.marks pa bytes }
  ((s1.stamp pa bytes.length by_).wakeWatch pa bytes.length).abortReaders (blocksOf pa bytes.length) by_

/-- A write of whole bytes. -/
def State.store (s : State) (pa : Nat) (bytes : List Byte) (by_ : Option SlotId) : State :=
  s.write pa (bytes.map some) by_

end Sys2Proof.Machine
end

