-- ==== Sys2Proof/Machine/Float.lean ====
section
/-!
DEFINITION. The number formats and their arithmetic (spec/03_number_formats.md): the six floating-point formats,
exact values, one rounding with its flags, the functions of the vector arithmetic
(spec/10_vector_instructions.md R340, R341), integer and FX128 conversions, E8M0 block scales and the quantiser.
-/
namespace Sys2Proof.Machine

/-- The flags of `k.nst`, bits 6:0 (R116). -/
abbrev Nst := BitVec 7
/-- A scale code 0xFF was written. -/
def nstSN : Nst := 0x40#7
/-- A scale was clamped at the floor. -/
def nstSF : Nst := 0x20#7
/-- Invalid operation. -/
def nstNV : Nst := 0x10#7
/-- Overflow. -/
def nstOF : Nst := 0x08#7
/-- Underflow. -/
def nstUF : Nst := 0x04#7
/-- Inexact. -/
def nstNX : Nst := 0x02#7
/-- A row's poison bit was set. -/
def nstPZ : Nst := 0x01#7
/-- A flag that is set under a condition. -/
def nstIf (b : Bool) (f : Nst) : Nst := if b then f else 0#7

/-- A floating-point element format (R103). -/
inductive Fmt where
  | fp32 | fp16 | bf16 | e5m2 | e4m3 | e2m1
deriving DecidableEq, Repr

/-- Exponent bits (R103). -/
def Fmt.eb : Fmt → Nat
  | .fp32 => 8 | .fp16 => 5 | .bf16 => 8 | .e5m2 => 5 | .e4m3 => 4 | .e2m1 => 2
/-- Mantissa bits (R103). -/
def Fmt.mb : Fmt → Nat
  | .fp32 => 23 | .fp16 => 10 | .bf16 => 7 | .e5m2 => 2 | .e4m3 => 3 | .e2m1 => 1
/-- Exponent bias (R103). -/
def Fmt.bias : Fmt → Nat
  | .fp32 => 127 | .fp16 => 15 | .bf16 => 127 | .e5m2 => 15 | .e4m3 => 7 | .e2m1 => 1
/-- Width in bits (R103). -/
def Fmt.width (f : Fmt) : Nat := 1 + f.eb + f.mb
/-- The format has infinities, at the all-ones exponent (R103). -/
def Fmt.hasInf : Fmt → Bool
  | .fp32 | .fp16 | .bf16 | .e5m2 => true
  | .e4m3 | .e2m1 => false
/-- The code of the largest finite magnitude (R103). -/
def Fmt.maxCode : Fmt → Nat
  | .fp32 => 0x7F7FFFFF | .fp16 => 0x7BFF | .bf16 => 0x7F7F | .e5m2 => 0x7B | .e4m3 => 0x7E | .e2m1 => 0x7
/-- The canonical NaN (R104); an E2M1 element has none, and a NaN is written there as code 0 (R114). -/
def Fmt.nanCode : Fmt → Nat
  | .fp32 => 0x7FC00000 | .fp16 => 0x7E00 | .bf16 => 0x7FC0 | .e5m2 => 0x7E | .e4m3 => 0x7F | .e2m1 => 0
/-- The code of +∞ in a format that has one (R103). -/
def Fmt.infCode (f : Fmt) : Nat := (2 ^ f.eb - 1) * 2 ^ f.mb
/-- The sign bit of a code. -/
def Fmt.signBit (f : Fmt) (neg : Bool) : Nat := if neg then 2 ^ (f.width - 1) else 0

/-- An exact value: NaN, an infinity, or (−1)^neg × m × 2^e. -/
inductive Fp where
  | nan
  | inf (neg : Bool)
  | fin (neg : Bool) (m : Nat) (e : Int)
deriving DecidableEq, Repr

/-- The value of a code (R103). -/
def Fmt.decode (f : Fmt) (code : Nat) : Fp :=
  let c := code % 2 ^ f.width
  let neg := decide (2 ^ (f.width - 1) ≤ c)
  let e := c / 2 ^ f.mb % 2 ^ f.eb
  let m := c % 2 ^ f.mb
  if f.hasInf && e == 2 ^ f.eb - 1 then (if m = 0 then .inf neg else .nan)
  else if f == .e4m3 && e == 15 && m == 7 then .nan
  else if e = 0 then .fin neg m (1 - (f.bias : Int) - f.mb)
  else .fin neg (2 ^ f.mb + m) ((e : Int) - f.bias - f.mb)

/-- The value is zero of either sign. -/
def Fp.isZero : Fp → Bool
  | .fin _ m _ => m == 0
  | _ => false
/-- The value is a NaN. -/
def Fp.isNan : Fp → Bool
  | .nan => true
  | _ => false
/-- The value is an infinity. -/
def Fp.isInf : Fp → Bool
  | .inf _ => true
  | _ => false
/-- The sign; a NaN has sign 0 (R104). -/
def Fp.sign : Fp → Bool
  | .nan => false
  | .inf n => n
  | .fin n _ _ => n
/-- The value with its sign inverted. -/
def Fp.negate : Fp → Fp
  | .nan => .nan
  | .inf n => .inf (!n)
  | .fin n m e => .fin (!n) m e
/-- A finite value times a power of two, exact. -/
def Fp.scale (k : Int) : Fp → Fp
  | .fin n m e => .fin n m (e + k)
  | x => x
/-- The integer `(−1)^neg × m × 2^(e − e0)` for `e0 ≤ e`. -/
def Fp.units (e0 : Int) : Fp → Int
  | .fin n m e => (if n then -1 else 1) * ((m <<< (e - e0).toNat : Nat) : Int)
  | _ => 0
/-- The exponent of a finite value. -/
def Fp.exp : Fp → Int
  | .fin _ _ e => e
  | _ => 0

/-- Whether rounding moves the magnitude `n + rem / 2^sh`, `rem ≠ 0`, up by one unit (R118). -/
def roundsUp (r : Rnd) (neg : Bool) (n rem sh : Nat) : Bool :=
  match r with
  | .rne | .ef => decide (2 ^ sh < 2 * rem) || (2 * rem == 2 ^ sh && n % 2 == 1)
  | .rtz => false
  | .rdn => neg
  | .rup => !neg

/-- The magnitude `m × 2^e` rounded to a multiple of `2^q`, in those units, and whether that was inexact. -/
def roundUnits (r : Rnd) (neg : Bool) (m : Nat) (e q : Int) : Nat × Bool :=
  if q ≤ e then (m <<< (e - q).toNat, false)
  else
    let sh := (q - e).toNat
    let n := m >>> sh
    let rem := m - n <<< sh
    if rem = 0 then (n, false)
    else (if roundsUp r neg n rem sh then n + 1 else n, true)

/-- The outcome of writing a value: its code, the flags it sets, and whether what was written poisons a row
(R115: a NaN, an infinity, or an E2M1 element that stands for one or for an overflow under NaN mode). -/
structure Rounded where
  code : Nat
  nst : Nst
  bad : Bool
deriving DecidableEq, Repr

/-- What an overflow writes (R114). -/
def Fmt.overflow (f : Fmt) (r : Rnd) (sat neg : Bool) : Nat × Bool :=
  let inward := match r with
    | .rtz => true
    | .rdn => !neg
    | .rup => neg
    | _ => false
  if sat || inward then (f.signBit neg + f.maxCode, false)
  else match f with
  | .e4m3 => (f.nanCode, true)
  | .e2m1 => (f.signBit neg + f.maxCode, true)
  | _ => (f.signBit neg + f.infCode, true)

/-- The nonzero magnitude `m × 2^e` with its sign, rounded once to the format (R113, R114, R118). -/
def Fmt.round (f : Fmt) (r : Rnd) (sat neg : Bool) (m : Nat) (e : Int) : Rounded :=
  if m = 0 then ⟨f.signBit neg, 0, false⟩
  else
    let emin : Int := 1 - (f.bias : Int)
    let top : Int := (Nat.log2 m : Int) + e
    let q : Int := max top emin - f.mb
    let (n, inexact) := roundUnits r neg m e q
    let small := decide (top < emin)
    let carry := decide (2 ^ (f.mb + 1) ≤ n)
    let n' := if carry then n / 2 else n
    let q' := if carry then q + 1 else q
    let code : Nat :=
      if n' < 2 ^ f.mb then n'
      else ((q' + f.mb + f.bias).toNat) * 2 ^ f.mb + (n' - 2 ^ f.mb)
    if f.maxCode < code then
      let (c, bad) := f.overflow r sat neg
      ⟨c, nstOF ||| nstNX, bad⟩
    else
      ⟨f.signBit neg + code, nstIf inexact nstNX ||| nstIf (inexact && small) nstUF, false⟩

/-- A value written to the format by a conversion (R104, R113, R114). -/
def Fmt.convert (f : Fmt) (r : Rnd) (sat : Bool) : Fp → Rounded
  | .nan => if f == .e2m1 then ⟨0, nstNV, true⟩ else ⟨f.nanCode, 0, true⟩
  | .inf n =>
    match f with
    | .e4m3 => ⟨f.nanCode, nstNV, true⟩
    | .e2m1 => ⟨f.signBit n + f.maxCode, nstNV, true⟩
    | _ => ⟨f.signBit n + f.infCode, 0, true⟩
  | .fin n m e => f.round r sat n m e

/-- The result of vector arithmetic: `.rne`, NaN mode (R337). -/
def Fmt.result (f : Fmt) (x : Fp) (nst : Nst) : Nat × Nst :=
  let r := f.convert .rne false x
  (r.code, r.nst ||| nst)

/-- The exact product of two values; the flag tells an invalid 0 × ∞ (R113). -/
def Fp.mul : Fp → Fp → Fp × Nst
  | .nan, _ => (.nan, 0)
  | _, .nan => (.nan, 0)
  | .inf a, .inf b => (.inf (a != b), 0)
  | .inf a, .fin b m _ => if m = 0 then (.nan, nstNV) else (.inf (a != b), 0)
  | .fin a m _, .inf b => if m = 0 then (.nan, nstNV) else (.inf (a != b), 0)
  | .fin a m e, .fin b n k => (.fin (a != b) (m * n) (e + k), 0)

/-- The exact sum of values under `.rne`: NaN if a term is, NaN and NV for infinities of both signs, and −0 only
if every term is −0 (R105, R113, R124). -/
def Fp.sum (xs : List Fp) : Fp × Nst :=
  if xs.any Fp.isNan then (.nan, 0)
  else
    let pos := xs.any (fun x => x.isInf && !x.sign)
    let neg := xs.any (fun x => x.isInf && x.sign)
    if pos && neg then (.nan, nstNV)
    else if pos then (.inf false, 0)
    else if neg then (.inf true, 0)
    else
      let e0 : Int := xs.foldl (fun a x => min a x.exp) 0
      let s : Int := xs.foldl (fun a x => a + x.units e0) 0
      if s = 0 then (.fin (!xs.isEmpty && xs.all Fp.sign) 0 0, 0)
      else (.fin (decide (s < (0 : Int))) s.natAbs e0, 0)

/-- The exact sum of two values. -/
def Fp.add (x y : Fp) : Fp × Nst := Fp.sum [x, y]

/-- `a ≤ b` for values that are not NaN; −0 counts as less than +0 (R341). -/
def Fp.le : Fp → Fp → Bool
  | .nan, _ => false
  | _, .nan => false
  | .inf true, _ => true
  | _, .inf false => true
  | .inf false, _ => false
  | _, .inf true => false
  | .fin a m e, .fin b n k =>
    if m == 0 && n == 0 then a || !b
    else
      let e0 := min e k
      decide (Fp.units e0 (.fin a m e) ≤ Fp.units e0 (.fin b n k))

/-- The values are equal as numbers: −0 equals +0 (R345). -/
def Fp.numEq : Fp → Fp → Bool
  | .nan, _ => false
  | _, .nan => false
  | .inf a, .inf b => a == b
  | .inf _, .fin _ _ _ => false
  | .fin _ _ _, .inf _ => false
  | .fin a m e, .fin b n k =>
    let e0 := min e k
    decide (Fp.units e0 (.fin a m e) = Fp.units e0 (.fin b n k))

/-- `a < b` as numbers, false with a NaN (R345). -/
def Fp.lt (x y : Fp) : Bool := Fp.le x y && !Fp.numEq x y && !x.isNan && !y.isNan

/-- The comparison `cc` of two floating-point values (R345): with a NaN only `ne` holds. -/
def fpCompare (cc : Cc) (x y : Fp) : Bool :=
  match cc with
  | .eq => Fp.numEq x y
  | .ne => !Fp.numEq x y
  | .lt => Fp.lt x y
  | .ge => Fp.lt y x || Fp.numEq x y
  | .gt => Fp.lt y x
  | .le => Fp.lt x y || Fp.numEq x y
  | _ => false

/-- The floor of the square root, by Newton's iteration from above. -/
def isqrtFrom : Nat → Nat → Nat → Nat
  | 0, _, x => x
  | fuel + 1, n, x =>
    let y := (x + n / x) / 2
    if y < x then isqrtFrom fuel n y else x

/-- The floor of the square root. -/
def isqrt (n : Nat) : Nat :=
  if n = 0 then 0 else isqrtFrom 1024 n (2 ^ (Nat.log2 n / 2 + 1))

/-- A magnitude known to lie in the open interval above `m` units, or to be exactly `m`, in half units: enough
for one correct rounding when `m` has more bits than the format (R118). -/
def stickyUnits (m : Nat) (exact : Bool) : Nat := 2 * m + (if exact then 0 else 1)

/-- a ÷ b (R340, R341). -/
def fdiv (f : Fmt) (x y : Fp) : Nat × Nst :=
  match x, y with
  | .nan, _ => f.result .nan 0
  | _, .nan => f.result .nan 0
  | .inf _, .inf _ => f.result .nan nstNV
  | .inf a, .fin b _ _ => f.result (.inf (a != b)) 0
  | .fin a _ _, .inf b => f.result (.fin (a != b) 0 0) 0
  | .fin a m e, .fin b n k =>
    if n = 0 then (if m = 0 then f.result .nan nstNV else f.result (.inf (a != b)) 0)
    else if m = 0 then f.result (.fin (a != b) 0 0) 0
    else
      let sh := 64
      let num := m <<< sh
      f.result (.fin (a != b) (stickyUnits (num / n) (num % n == 0)) (e - k - sh - 1)) 0

/-- √a (R340, R341). -/
def fsqrt (f : Fmt) (x : Fp) : Nat × Nst :=
  match x with
  | .nan => f.result .nan 0
  | .inf n => if n then f.result .nan nstNV else f.result (.inf false) 0
  | .fin n m e =>
    if m = 0 then f.result x 0
    else if n then f.result .nan nstNV
    else
      let odd := decide (e % 2 = 1)
      let m1 := (if odd then 2 * m else m) <<< 64
      let e1 := (if odd then e - 1 else e) - 64
      let s := isqrt m1
      f.result (.fin false (stickyUnits s (s * s == m1)) (e1 / 2 - 1)) 0

/-- 1 / √a, rounded once (R340, R341). -/
def frsqrt (f : Fmt) (x : Fp) : Nat × Nst :=
  match x with
  | .nan => f.result .nan 0
  | .inf n => if n then f.result .nan nstNV else f.result (.fin false 0 0) 0
  | .fin n m e =>
    if m = 0 then f.result (.inf n) 0
    else if n then f.result .nan nstNV
    else
      let odd := decide (e % 2 = 1)
      let m1 := if odd then 2 * m else m
      let e1 := if odd then e - 1 else e
      let t := 2 ^ 160
      let s := isqrt (t / m1)
      f.result (.fin false (stickyUnits s (s * s * m1 == t)) (-(e1 / 2) - 80 - 1)) 0

/-- The working precision of `vexp2` and `vlog2` in fraction bits (DEDUCED, log 13). -/
def funBits : Nat := 128

/-- 2^0.b1b2…, in units of 2^-192, from the bits of the fraction, the least significant first: each bit b turns y
into √(2^b × y). -/
def exp2Frac : Nat → Nat → Nat → Nat
  | 0, _, y => y
  | n + 1, frac, y =>
    let y2 := if frac % 2 = 1 then 2 * y else y
    exp2Frac n (frac / 2) (isqrt (y2 <<< 192))

/-- 2^a, correctly rounded (R340, R341; DEDUCED, log 13). -/
def fexp2 (f : Fmt) (x : Fp) : Nat × Nst :=
  match x with
  | .nan => f.result .nan 0
  | .inf n => if n then f.result (.fin false 0 0) 0 else f.result (.inf false) 0
  | .fin _ _ e =>
    -- the value in units of 2^-128, and whether bits below that were cut off
    let fixed : Int := if -128 ≤ e then x.units (-128) else Int.fdiv (x.units e) (2 ^ (-128 - e).toNat)
    let exact128 := decide (-128 ≤ e) || (x.units e % (2 ^ (-128 - e).toNat : Nat) == 0)
    let ip : Int := Int.fdiv fixed (2 ^ funBits)
    let frac : Nat := (fixed - ip * 2 ^ funBits).toNat
    if frac == 0 && exact128 then f.result (.fin false 1 (max (-1000) (min 1000 ip))) 0
    else if 1000 < ip then f.result (.fin false 3 1000) 0
    else if ip < -1000 then f.result (.fin false 3 (-1000)) 0
    else
      let y := exp2Frac funBits frac (2 ^ 192)
      f.result (.fin false (stickyUnits y false) (ip - 193)) 0

/-- The next `n` bits of log2 of `y` in [1, 2), in units of 2^-320, by repeated squaring. -/
def log2Frac : Nat → Nat → Nat → Nat
  | 0, _, acc => acc
  | n + 1, y, acc =>
    let z := (y * y) >>> 320
    if 2 ^ 321 ≤ z then log2Frac n (z / 2) (2 * acc + 1) else log2Frac n z (2 * acc)

/-- log2 a, correctly rounded (R340, R341; DEDUCED, log 13). -/
def flog2 (f : Fmt) (x : Fp) : Nat × Nst :=
  match x with
  | .nan => f.result .nan 0
  | .inf n => if n then f.result .nan nstNV else f.result (.inf false) 0
  | .fin n m e =>
    if m = 0 then f.result (.inf true) 0
    else if n then f.result .nan nstNV
    else
      let l := Nat.log2 m
      let k : Int := (l : Int) + e
      if m = 2 ^ l then f.result (.fin (decide (k < 0)) k.natAbs 0) 0
      else
        let frac := log2Frac funBits (m <<< (320 - l)) 0
        let v : Int := k * 2 ^ funBits + frac
        if 0 ≤ v then f.result (.fin false (stickyUnits v.natAbs false) (-129)) 0
        else f.result (.fin true (stickyUnits (v.natAbs - 1) false) (-129)) 0

/-- Minimum or maximum (R341). -/
def fminmax (f : Fmt) (isMax : Bool) (a b : Nat) : Nat × Nst :=
  let x := f.decode a
  let y := f.decode b
  if x.isNan || y.isNan then (f.nanCode, 0)
  else if Fp.le x y then (if isMax then b else a, 0) else (if isMax then a else b, 0)

/-- |a| and −a: the sign bit is cleared or inverted, a NaN gives the canonical NaN (R341). -/
def fsignOp (f : Fmt) (isAbs : Bool) (a : Nat) : Nat × Nst :=
  let c := a % 2 ^ f.width
  if (f.decode c).isNan then (f.nanCode, 0)
  else
    let mag := c % 2 ^ (f.width - 1)
    if isAbs then (mag, 0) else ((if mag = c then mag + 2 ^ (f.width - 1) else mag), 0)

/-- a + b, rounded once (R340). -/
def fadd (f : Fmt) (a b : Nat) : Nat × Nst :=
  let (s, n) := Fp.add (f.decode a) (f.decode b)
  f.result s n

/-- a − b, rounded once (R340). -/
def fsub (f : Fmt) (a b : Nat) : Nat × Nst :=
  let (s, n) := Fp.add (f.decode a) (f.decode b).negate
  f.result s n

/-- a × b, rounded once (R340). -/
def fmul (f : Fmt) (a b : Nat) : Nat × Nst :=
  let (p, n) := Fp.mul (f.decode a) (f.decode b)
  f.result p n

/-- ±(a × b) ± d, rounded once (R340); 0 × ∞ gives NaN and NV with any addend (R341). -/
def ffused (f : Fmt) (negProduct negAddend : Bool) (a b d : Nat) : Nat × Nst :=
  let (p, n) := Fp.mul (f.decode a) (f.decode b)
  let p' := if negProduct then p.negate else p
  let x := f.decode d
  let x' := if negAddend then x.negate else x
  let (s, k) := Fp.add p' x'
  f.result s (n ||| k)

/-- A binary function of the vector arithmetic (R340). -/
inductive FBin where
  | add | sub | mul | min | max | div
deriving DecidableEq, Repr

/-- A unary function of the vector arithmetic (R340). -/
inductive FUn where
  | abs | neg | sqrt | rsqrt | exp2 | log2
deriving DecidableEq, Repr

/-- The fused functions of the vector arithmetic (R340). -/
inductive FTri where
  | fma | fms | fnma
deriving DecidableEq, Repr

/-- The element result of a binary function. -/
def FBin.eval (op : FBin) (f : Fmt) (a b : Nat) : Nat × Nst :=
  match op with
  | .add => fadd f a b
  | .sub => fsub f a b
  | .mul => fmul f a b
  | .min => fminmax f false a b
  | .max => fminmax f true a b
  | .div => fdiv f (f.decode a) (f.decode b)

/-- The element result of a unary function. -/
def FUn.eval (op : FUn) (f : Fmt) (a : Nat) : Nat × Nst :=
  match op with
  | .abs => fsignOp f true a
  | .neg => fsignOp f false a
  | .sqrt => fsqrt f (f.decode a)
  | .rsqrt => frsqrt f (f.decode a)
  | .exp2 => fexp2 f (f.decode a)
  | .log2 => flog2 f (f.decode a)

/-- The element result of a fused function with the old destination `d`. -/
def FTri.eval (op : FTri) (f : Fmt) (a b d : Nat) : Nat × Nst :=
  match op with
  | .fma => ffused f false false a b d
  | .fms => ffused f false true a b d
  | .fnma => ffused f true false a b d

/-! ### Conversions to integers and FX128 -/

/-- A finite value rounded to a multiple of `2^q`, in those units (R118). -/
def Fp.toUnits (r : Rnd) (q : Int) : Fp → Int × Bool
  | .fin n m e =>
    let (u, inexact) := roundUnits r n m e q
    (if n then -(u : Int) else u, inexact)
  | _ => (0, false)

/-- Conversion to a `w`-bit signed integer: it saturates with NV, and a NaN becomes 0 with NV (R106). -/
def fpToInt (w : Nat) (r : Rnd) (x : Fp) : Int × Nst :=
  let hi : Int := 2 ^ (w - 1) - 1
  let lo : Int := -(2 ^ (w - 1))
  match x with
  | .nan => (0, nstNV)
  | .inf n => (if n then lo else hi, nstNV)
  | .fin _ _ _ =>
    let (v, inexact) := x.toUnits r 0
    if v < lo then (lo, nstNV ||| nstNX)
    else if hi < v then (hi, nstNV ||| nstNX)
    else (v, nstIf inexact nstNX)

/-- The FX128 contribution of an FP32 value, in units of 2^-32, and whether the input is a NaN or an infinity
(R121). -/
def fpToFx (r : Rnd) (x : Fp) : Int × Nst × Bool :=
  let hi : Int := 2 ^ 63 - 1
  let lo : Int := -(2 ^ 63)
  match x with
  | .nan => (0, nstNV, true)
  | .inf n => (if n then lo else hi, nstOF, true)
  | .fin _ _ _ =>
    let (v, inexact) := x.toUnits r (-32)
    if v < lo then (lo, nstOF ||| nstNX, false)
    else if hi < v then (hi, nstOF ||| nstNX, false)
    else (v, nstIf inexact nstNX, false)

/-- The FP32 value of an integer times a power of two, rounded (R123, R355). -/
def intToFp32 (r : Rnd) (v : Int) (e : Int) : Nat × Nst :=
  let x := Fmt.fp32.round r false (decide (v < 0)) v.natAbs e
  (x.code, x.nst)

/-- The two's-complement code of an integer in `w` bits. -/
def intCode (w : Nat) (v : Int) : Nat := (v % (2 ^ w : Nat)).toNat

/-- The integer of a two's-complement code of `w` bits. -/
def codeInt (w : Nat) (c : Nat) : Int :=
  let u := c % 2 ^ w
  if 2 ^ (w - 1) ≤ u then (u : Int) - (2 ^ w : Nat) else u

/-! ### Block formats -/

/-- Elements of a block (R108). -/
def blkLen : Blk → Nat
  | .mx32e4m3 | .mx32e5m2 | .mx32e2m1 | .mx32i8 => 32
  | .mx64e4m3 | .mx64e5m2 | .mx64i8 | .mx64e2m1 => 64

/-- The element format; none for INT8 elements (R108). -/
def blkFmt : Blk → Option Fmt
  | .mx32e4m3 | .mx64e4m3 => some .e4m3
  | .mx32e5m2 | .mx64e5m2 => some .e5m2
  | .mx32e2m1 | .mx64e2m1 => some .e2m1
  | .mx32i8 | .mx64i8 => none

/-- Bits of an element code (R108). -/
def blkBits (b : Blk) : Nat := if (blkFmt b) = some .e2m1 then 4 else 8
/-- Bytes of a block's codes (R108). -/
def blkCodeBytes (b : Blk) : Nat := (blkLen b) * (blkBits b) / 8
/-- Bytes of a block in the scale array: the scale, and the extra byte of MX64-E2M1 (R110). -/
def blkScaleBytes (b : Blk) : Nat := if b = .mx64e2m1 then 2 else 1
/-- EMAX (R108). -/
def blkEmax : Blk → Int
  | .mx32e4m3 | .mx64e4m3 => 8
  | .mx32e5m2 | .mx64e5m2 => 15
  | .mx32e2m1 | .mx64e2m1 => 2
  | .mx32i8 | .mx64i8 => 0

/-- One block: its codes, its scale code and its extra byte. -/
structure Block where
  codes : List Nat
  scale : Nat
  extra : Nat
deriving DecidableEq, Repr

/-- The value of an element without the block scale (R109). -/
def blkElement (b : Blk) (extra code : Nat) : Fp :=
  match (blkFmt b) with
  | none => let v := codeInt 8 code; .fin (decide (v < 0)) v.natAbs (-6)
  | some f => if b = .mx64e2m1 ∧ code % 16 = 8 then Fmt.e4m3.decode extra else f.decode code

/-- The value of an element of a block, NaN under the NaN scale (R109). -/
def blkValue (b : Blk) (scale extra code : Nat) : Fp :=
  if scale = 0xFF then .nan else (blkElement b extra code).scale ((scale : Int) - 127)

/-- The magnitude of x is less than that of y, for finite values. -/
def Fp.magLt : Fp → Fp → Bool
  | .fin _ m e, .fin _ n k =>
    let e0 := min e k
    decide (m <<< (e - e0).toNat < n <<< (k - e0).toNat)
  | _, _ => false

/-- floor(log2 |x|) of a finite nonzero value. -/
def Fp.floorLog2 : Fp → Int
  | .fin _ m e => (Nat.log2 m : Int) + e
  | _ => 0

/-- The first index of the largest magnitude, and that value. -/
def Fp.argMax : List Fp → Nat → Nat × Fp → Nat × Fp
  | [], _, best => best
  | x :: xs, i, best => Fp.argMax xs (i + 1) (if Fp.magLt best.2 x then (i, x) else best)

/-- `RoundClamp` into a floating-point element (R111): clamped to the largest magnitude, with NX and no OF. -/
def clampFp (f : Fmt) (r : Rnd) (x : Fp) : Nat × Nst :=
  let w := f.convert r true x
  (w.code, w.nst &&& ~~~nstOF)

/-- `RoundClamp` into INT8 limited to −127..127 (R111). -/
def clampI8 (r : Rnd) (x : Fp) : Nat × Nst :=
  let (v, inexact) := x.toUnits r 0
  if v < -127 then (intCode 8 (-127), nstNX)
  else if 127 < v then (127, nstNX)
  else (intCode 8 v, nstIf inexact nstNX)

/-- A block with the NaN scale: all codes 0, SN set, the row poisoned (R111). The extra byte of an MX64-E2M1 block, which
R111 does not give here, is 0x00: the model's choice (log 98). -/
def nanBlock (b : Blk) : Block × Nst × Bool := (⟨List.replicate (blkLen b) 0, 0xFF, 0⟩, nstSN, true)

/-- The codes of a block's elements for the exponent e (R111); `o` is the outlier of an MX64-E2M1 block. -/
def quantCodes (b : Blk) (r : Rnd) (e : Int) (o : Nat) : List Fp → Nat → List Nat × Nat × Nst
  | [], _ => ([], 0, 0)
  | x :: xs, i =>
    let (cs, extra, n) := quantCodes b r e o xs (i + 1)
    match (blkFmt b) with
    | none => let (c, k) := clampI8 r (x.scale (6 - e)); (c :: cs, extra, n ||| k)
    | some f =>
      if b = .mx64e2m1 ∧ i = o then
        let (c, k) := clampFp .e4m3 r (x.scale (-e)); (8 :: cs, c, n ||| k)
      else
        let (c, k) := clampFp f r (x.scale (-e))
        ((if b = .mx64e2m1 ∧ c = 8 then 0 else c) :: cs, extra, n ||| k)

/-- The quantiser `QuantMX` (R111): a block, its flags, and whether it poisons its row. -/
def quantMx (b : Blk) (r : Rnd) (xs : List Fp) : Block × Nst × Bool :=
  if xs.any (fun x => x.isNan || x.isInf) then nanBlock b
  else
    let (o, top) := Fp.argMax xs 0 (0, .fin false 0 0)
    if top.isZero then (⟨List.replicate (blkLen b) 0, 0x7F, 0⟩, 0, false)
    else
      let e : Int :=
        if b = .mx64e2m1 then
          let second := (Fp.argMax (xs.eraseIdx o) 0 (0, .fin false 0 0)).2
          let e1 := top.floorLog2 - 8
          if second.isZero then e1 else max e1 (second.floorLog2 - 2)
        else top.floorLog2 - (blkEmax b)
      if 127 < e then nanBlock b
      else
        let e' := max e (-127)
        let (cs, extra, n) := quantCodes b r e' o xs 0
        (⟨cs, (e' + 127).toNat, extra⟩, n ||| nstIf (decide (e < -127)) nstSF, false)

/-- The FP32 sum of a source value and its residue, with its flags (R119). -/
def addResidue (x res : Nat) : Nat × Nst := fadd .fp32 x res

/-- The new residue: y − Decode(out) rounded to FP32, or 0 where either is a NaN or an infinity (R119). -/
def newResidue (y : Nat) (out : Fp) : Nat :=
  let v := Fmt.fp32.decode y
  if v.isNan || v.isInf || out.isNan || out.isInf then 0
  else (Fmt.fp32.result (Fp.add v out.negate).1 0).1

/-- `CombineMX`: two blocks of one format combined at a node of a collective's tree (R127). -/
def combineMx (b : Blk) (sat : Bool) (x y : Block) : Block × Nst × Bool :=
  let xs := x.codes.map (blkElement b x.extra)
  let ys := y.codes.map (blkElement b y.extra)
  if x.scale = 0xFF ∨ y.scale = 0xFF ∨ xs.any Fp.isNan ∨ ys.any Fp.isNan then nanBlock b
  else
    let s := max x.scale y.scale
    let node (p q : Fp) : Fp × Nst × Bool :=
      let a := Fmt.fp32.convert .rne false (p.scale ((x.scale : Int) - s))
      let c := Fmt.fp32.convert .rne false (q.scale ((y.scale : Int) - s))
      let (z, n) := Fp.add (Fmt.fp32.decode a.code) (Fmt.fp32.decode c.code)
      let w := Fmt.fp32.convert .rne false z
      let v := (Fmt.fp32.decode w.code).scale ((s : Int) - 127)
      let lim := Fmt.fp32.decode Fmt.fp32.maxCode
      let past := v.isInf || Fp.magLt lim v
      let fl := a.nst ||| c.nst ||| w.nst ||| n ||| nstIf past nstOF
      (if past then (if v.sign then lim.negate else lim) else v, fl, past)
    let zs := List.zipWith node xs ys
    let flags (l : List (Fp × Nst × Bool)) : Nst := l.foldl (fun n z => n ||| z.2.1) 0
    match (if sat then none else zs.findIdx? (fun z => z.2.2)) with
    | some i =>
      let (nb, n, bad) := nanBlock b
      (nb, n ||| flags (zs.take (i + 1)), bad)
    | none =>
      let (q, n, bad) := quantMx b .rne (zs.map (fun z => z.1))
      (q, n ||| flags zs, bad)

/-- A block as the 9200 writes it: its NaN elements are the canonical ones (R104), and whether an element is a NaN or an
infinity, or its scale the NaN scale (R115). -/
def Block.written (b : Blk) (x : Block) : Block × Bool :=
  let bad := x.scale == 0xFF || x.codes.any (fun c => let v := blkElement b x.extra c; v.isNan || v.isInf)
  let canon (c : Nat) : Nat :=
    match blkFmt b with
    | some .e4m3 => if (blkElement b x.extra c).isNan then 0x7F else c
    | some .e5m2 => if (blkElement b x.extra c).isNan then 0x7E else c
    | _ => c
  ({ x with codes := x.codes.map canon, extra := if (Fmt.e4m3.decode x.extra).isNan then 0x7F else x.extra }, bad)

end Sys2Proof.Machine
end

