-- ==== Sys2Proof/Machine/Slices.lean ====
section
/-!
DEFINITION. The L2 slices at work (spec/02_memory_hierarchy.md R71 to R82, R95 to R100, R494, R495): fills and victims,
refusals, retries, reservations and claims, and the waits of the agents that they refuse.
-/
namespace Sys2Proof.Machine

/-! ### The pseudo-channels of HBM (R95, R100) -/

/-- The pseudo-channel of an HBM address (R95). -/
def pchOf (pa : Nat) : Nat := (pa / 2 ^ 8 % 512) ^^^ (pa / 2 ^ 17 % 512)
/-- The stack of a pseudo-channel (R95). -/
def stackOf (pch : Nat) : Nat := pch / 2 ^ 6 % 8
/-- The line index of an HBM address within its pseudo-channel (R95). -/
def lineIndex (pa : Nat) : Nat := pa / 2 ^ 17 % 2 ^ 22
/-- The bank of an HBM address (R95). -/
def hbmBank (pa : Nat) : Nat := pa / 2 ^ 17 % 16
/-- The row of an HBM address (R95; which bits are its column is open, log 95). -/
def hbmRow (pa : Nat) : Nat := Config.rowOf (pa / 2 ^ 21 % 2 ^ 18)

/-- Lines that wait for a place in one of the two queues of 32 take those that are free (R100). -/
def Pch.letIn (x : Pch) : Pch :=
  x.waits.foldl (fun y w =>
    if w.2 then
      (if y.writes.length < 32 then { y with writes := y.writes ++ [w.1] } else { y with waits := y.waits ++ [w] })
    else if y.reads.length < 32 then { y with reads := y.reads ++ [w.1] } else { y with waits := y.waits ++ [w] })
    { x with waits := [] }

/-- A line enters its pseudo-channel's read queue, or its write queue (R100). -/
def State.hbmRequest (s : State) (line : Nat) (write : Bool) : State :=
  let k := pchOf (line * 256)
  let x := (s.hbmQ.find k).getD Pch.reset
  { s with hbmQ := s.hbmQ.put k ({ x with waits := x.waits ++ [(line, write)] } : Pch).letIn }

/-- The position in a queue that a dynamic slot serves: the oldest, which a hit in an open row among the next four passes
(R100; that a hit always does is the model's choice, log 95). -/
def Pch.pick (x : Pch) (q : List Nat) : Nat :=
  let hit (l : Nat) : Bool := x.rows.find (hbmBank (l * 256)) == some (hbmRow (l * 256))
  ((q.take 5).findIdx? hit).getD 0

/-- What a dynamic slot of a pseudo-channel serves, if anything: the line, whether it is written, and the channel after it
(R100). -/
def Pch.serve (x : Pch) : Option (Nat × Bool × Pch) :=
  let drain := if 24 ≤ x.writes.length then true else if x.writes.length ≤ 8 then false else x.drain
  let write := !x.writes.isEmpty && (drain || x.reads.isEmpty)
  let q := if write then x.writes else x.reads
  let k := x.pick q
  match q[k]? with
  | none => none
  | some l =>
    let rows := x.rows.put (hbmBank (l * 256)) (hbmRow (l * 256))
    let y : Pch := if write then { x with writes := x.writes.eraseIdx k, rows := rows, drain := drain }
      else { x with reads := x.reads.eraseIdx k, rows := rows, drain := drain }
    some (l, write, y.letIn)

/-! ### Fills and write-backs (R71, R77, R494, R495) -/

/-- A line shares its slice and set with another (R72). -/
def sameSet (a b : Nat) : Bool := sliceOf (a * 256) == sliceOf (b * 256) && setOf (a * 256) == setOf (b * 256)

/-- The cache ways that a set uses: one for each line, and one for each tentative copy (R80). -/
def State.waysUsed (s : State) (line : Nat) : Nat :=
  (s.lines.filter (fun p => sameSet p.1 line)).length
    + (s.tent.filter (fun p => sameSet (p.1 / 64) line && !hostLine (p.1 / 64))).length

/-- Fills, write-backs and waits for BIRsp occupy two ways of the set already (R495). -/
def State.setBusy (s : State) (line : Nat) : Bool :=
  decide (2 ≤ (s.lines.filter (fun p =>
    sameSet p.1 line && (p.2.st == .filling || p.2.st == .birsp || p.2.st == .writing))).length)

/-- The lines of the set that may make room: ready, not pinned, not tentative and not reserved. -/
def State.evictable (s : State) (line : Nat) : List Nat :=
  (s.lines.filter (fun p => sameSet p.1 line && p.2.st == .ready && p.2.pins == 0
    && !s.tentAt p.1
    && !s.reqs.any (fun q => q.2.reserved && q.2.pa / 256 == p.1))).map (fun p => p.1)

/-- A line is being written back; its way is free at the end (R77). -/
def State.writeBack (s : State) (line : Nat) : State :=
  match s.lines.find line with
  | none => s
  | some l =>
    let s1 := { s with lines := s.lines.put line { l with st := .writing, dirty := false } }
    if s.phys (line * 256) == .hbm then s1.hbmRequest line true
    else let r := s1.draw; r.1.after (Config.farLatency r.2) (.l2Fill line)

/-- A slice that gives up a line which the host may hold sends BISnpInv for each of its 64-byte lines (R43; log 41). -/
def State.snoopVictim (s : State) (line : Nat) : State :=
  match s.lines.find line with
  | none => s
  | some l =>
    if l.hostHeld = 0 then s
    else
      let ks := (List.range 4).filter (fun k => l.hostHeld.getLsbD k)
      ks.foldl (fun u k => let r := u.draw; r.1.after (Config.farLatency r.2) (.birsp line k))
        { s with gone := s.gone.put line l.hostHeld, lines := s.lines.put line { l with hostHeld := 0 } }

/-- The 64-byte lines of a line with their bytes and whether they are marked, as messages that carry them (R419, R456). -/
def State.dataOf (s : State) (line : Nat) (m : Nat → List Byte → Bool → CxlMsg) : List CxlMsg :=
  (quarters line).map (fun pa => m pa (s.read pa 64) (s.marked pa 64))

/-- What a slice sends for a line that it gives up: DirtyEvict or CleanEvict for host memory, or the data that a snoop asks for,
and the write-back of a line of the second tier (R44, R45, R456). -/
def State.sendLine (s : State) (line : Nat) (dirty snooped : Bool) : State :=
  let out := match s.phys (line * 256) with
    | .host => if dirty then s.dataOf line (if snooped then CxlMsg.snoopData else CxlMsg.dirtyEvict)
      else if snooped then [] else (quarters line).map CxlMsg.cleanEvict
    | .tier2 => if dirty then s.dataOf line CxlMsg.memWrite else []
    | _ => []
  { s with cxlOut := s.cxlOut ++ out }

/-- A slice drops a line: one with contents that memory lacks is written back first (R44, R45, R71, R456). -/
def State.dropLine (s : State) (line : Nat) (snooped : Bool := false) : State :=
  match s.lines.find line with
  | none => s
  | some l =>
    let t := (s.snoopVictim line).sendLine line l.dirty snooped
    if l.dirty then t.writeBack line else { t with lines := t.lines.del line }

/-- A fill of a way that is there to take begins (R494), of host memory by RdShared, or RdOwn for a write (R456). -/
def State.fillWay (s : State) (line : Nat) (own : Bool) : State :=
  let host := s.phys (line * 256) == .host
  let s1 := { s with
    lines := s.lines.put line { st := .filling, dirty := false, hostHeld := 0, asked := 0, pins := 0, own := host && own }
    cxlOut := s.cxlOut ++ if host then (quarters line).map (if own then CxlMsg.rdOwn else CxlMsg.rdShared) else [] }
  if s.phys (line * 256) == .hbm then s1.hbmRequest line false
  else let r := s1.draw; r.1.after (Config.farLatency r.2) (.l2Fill line)

/-- The fill of a line begins, for a write or not (R77, R494). When its set has no way to take, nothing changes; a victim with contents that
memory lacks is written back first, and the fill begins at a later request. A victim that awaits a BIRsp is not filled. -/
def State.startFill (s : State) (line : Nat) (own : Bool := false) : State :=
  if (s.lines.find line).isSome || (s.gone.find line).isSome || s.setBusy line then s
  else if s.waysUsed line < 16 - s.scw then s.fillWay line own
  else
    let r := s.draw
    match (s.evictable line)[Config.victim r.2 % max 1 (s.evictable line).length]? with
    | none => s
    | some v =>
      let t := r.1.dropLine v
      if (t.lines.find v).isSome then t else t.fillWay line own

/-- A way for a timed write, or for a line that a promotion keeps: two are always there to take (R495), the victim's
contents going to the write queue of its memory at once. -/
def State.makeRoom (s : State) (line : Nat) : State :=
  if s.waysUsed line < 16 - s.scw then s
  else
    let r := s.draw
    match (s.evictable line)[Config.victim r.2 % max 1 (s.evictable line).length]? with
    | none => s
    | some v =>
      let t := r.1.dropLine v
      { t with lines := t.lines.del v }

/-! ### Refusal, reservation and claim (R78, R79) -/

/-- A request after one more refusal: at the 16th it is granted a reservation or a claim, if one is free (R79). -/
def State.countRefusal (s : State) (q : Req) (resv : Bool) : State × Req :=
  let n := min 16 (q.count + 1)
  let q1 := { q with count := n }
  if n = 16 && resv && !q.reserved && !q.claimed then
    if s.reservedAt q.slice < 32 then ({ s with grants := s.grants + 1 }, { q1 with reserved := true, turn := s.grants })
    else if s.claimsAt q.slice < 256 then ({ s with grants := s.grants + 1 }, { q1 with claimed := true, turn := s.grants })
    else (s, q1)
  else (s, q1)

/-- What makes a requester send its request again (R78). -/
def Req.again (q : Req) (id : Nat) : Event :=
  match q.who with
  | .event e => e
  | _ => .requestRetry id

/-- A refusal reaches its requester, which sends the request again 8 × H ck later, or on the next ck (R78); `back` is the time
that the refusal, and the request of an event when it is sent again, take to travel (R64). -/
def State.refusal (s : State) (id : Nat) (q : Req) (h : Option Nat) (resv : Bool) (back : Nat := 0) : State :=
  let c := s.countRefusal q resv
  let r := c.1.draw
  let full := decide (c.2.count = 16) && resv && !c.2.reserved && !c.2.claimed
  let hint := if full then 255 else h.getD (Config.waitHint r.2).toNat
  { r.1 with reqs := r.1.reqs.put id c.2 }.after (back + max 1 (8 * hint)) (q.again id)

/-- A request is refused: it is new, or is refused once more; a slice that misses the line starts its fill, and keeps a
reserved request that has arrived again (R77 to R79). Its number, and the state after it. -/
def State.refuseReq (s : State) (who : Requester) (pa va : Nat) (page : Option PageTag) (op : ReqOp) (h : Option Nat)
    (resv : Bool) (back : Nat := 0) : Nat × State :=
  let s1 := if resv then s.startFill (pa / 256) else s
  match s1.openReq who pa with
  | some (id, q) =>
    let q1 := { q with op := op, page := page }
    let keep := q.reserved && resv && (match who with | .event _ => !q.kept | _ => true)
    (id, if keep then { s1 with reqs := s1.reqs.put id { q1 with kept := true } } else s1.refusal id q1 h resv back)
  | none =>
    let q : Req := { who := who, pa := pa, va := va, op := op, count := 0, reserved := false, claimed := false, kept := false,
                     page := page, turn := 0 }
    (s1.nextReq, { s1 with nextReq := s1.nextReq + 1 }.refusal s1.nextReq q h resv back)

/-- An access of an agent is refused (R77, R78). -/
def State.refuse {α : Type} (s : State) (ag : Agent) (pa va : Nat) (page : Option PageTag) (op : ReqOp) (h : Option Nat)
    (resv : Bool) : Res α :=
  let r := s.refuseReq (.agent ag) pa va page op h resv
  .wait (.request r.1) r.2

/-- An access that an event makes is refused: the event comes again, after the travel of the refusal and of the message sent
again (R64, R77, R78). -/
def State.refuseEvent (s : State) (e : Event) (pa : Nat) (page : Option PageTag) (h : Option Nat) (resv : Bool) (back : Nat := 0) :
    State :=
  (s.refuseReq (.event e) pa pa page .again h resv back).2

/-- A write to 64-byte lines that the host may hold makes the slice send BISnpInv; the line waits for each BIRsp (R43,
R77). A tentative line sends none (R495). A write of a line of host memory that is not there asks for its ownership (R456). -/
def State.snoopHost (s : State) (pa n : Nat) (writes : Bool) : State :=
  match s.lines.find (pa / 256) with
  | some l =>
    if writes && l.st == .ready && hostMayHold l pa n && !s.tentAt (pa / 256) && !s.setBusy (pa / 256) then
      let ks := (List.range 4).filter (fun k => l.hostHeld.getLsbD k && hostMayHold { l with hostHeld := 1#4 <<< k } pa n)
      let asked := ks.foldl (fun a k => a ||| (1#4 <<< k)) 0#4
      let s1 := { s with lines := s.lines.put (pa / 256) { l with st := .birsp, asked := asked } }
      ks.foldl (fun u k => let r := u.draw; r.1.after (Config.farLatency r.2) (.birsp (pa / 256) k)) s1
    else s
  | none => if writes && s.phys pa == .host && !s.rerouting then s.startFill (pa / 256) true else s

/-- The slices begin what the requests that they keep wait for, where they could not at once (R79, R495). -/
def State.keptStep (s : State) : State :=
  (s.reqs.filter (fun q => q.2.kept)).foldl (fun t q =>
    let line := q.2.pa / 256
    let u := (t.startFill line q.2.op.isWrite).snoopHost q.2.pa q.2.op.size q.2.op.isWrite
    if q.2.op == .again && u.lineAnswer line false == .serve && !u.tentAt line then u.answerKept line else u) s

/-! ### Walks (R26, R27, R35, R42) -/

/-- A unit writes bytes at a slice: a line that refuses the write, or that the host may hold, makes it wait (R43, R77). A
line that is not present is written in its memory. Whether it has been written, and the state after it. -/
def State.unitWrite (s : State) (pa : Nat) (bytes : List Byte) : Bool × State :=
  match s.lines.find (pa / 256) with
  | none => if s.tentAt (pa / 256) || (s.gone.find (pa / 256)).isSome then (false, s) else (true, s.store pa bytes none)
  | some l =>
    if s.lineAnswer (pa / 256) true != .serve then (false, s)
    else if hostMayHold l pa bytes.length then (false, s.snoopHost pa bytes.length true)
    else (true, s.store pa bytes none)

/-- The updates of A and D that a walk to a leaf makes, atomic operations at the slice of the entry (R26, R43): whether they
have been made, the state, and the leaf. -/
def State.useEntry (s : State) (ctx : Nat) (kind : Kind) (e : Word) (ea : Nat) : Bool × State × Word :=
  let e' := usedEntry (ctxAD (s.asctxAt ctx)) kind e
  if e' = e then (true, s, e)
  else
    let r := s.unitWrite ea (bytesOfNat 8 e'.toNat)
    (r.1, r.2, e')

/-- What a walk comes to, with its effects: a leaf for the TLBs and the physical address, a fault, a wait of some ck after
which it begins again from the root (R42), or a wait for an open invalidation (R35, R36). -/
inductive Walked where
  | leaf (e : TlbEntry) (pa : Nat) (s : State)
  | fault (f : FaultInfo)
  | wait (n : Nat) (s : State)
  | blocked (id : Nat)

/-- A walk for an access (R26). -/
def State.walkTo (s : State) (ctx : Nat) (kind : Kind) (user : Bool) (va : Nat) : Walked :=
  let asid := ctxASID (s.asctxAt ctx)
  match s.lookupBlocked asid va with
  | some id => .blocked id
  | none =>
    match s.walkCtx ctx kind user va with
    | .fault f => .fault f
    | .migrating _ => .wait migrationWait s
    | .leaf e level ea pa =>
      let bits := levelBits level
      match s.pageBlocked asid (pteBit e 8) va bits with
      | some id => .blocked id
      | none =>
        let r := s.useEntry ctx kind e ea
        if r.1 then .leaf ⟨va / 2 ^ bits * 2 ^ bits, bits, asid, r.2.2, level⟩ pa r.2.1 else .wait 1 r.2.1

/-- An entry enters the micro-TLB of an agent (R31). -/
def State.fillMicro (s : State) (ag : Agent) (e : TlbEntry) : State :=
  let r := s.draw
  let pick := Config.victim r.2
  match ag with
  | .slot i => let c := r.1.core (coreOf i); r.1.setCore (coreOf i) { c with utlb := addTlb 32 pick c.utlb e }
  | .tile t => let x := r.1.tile t; r.1.setTile t { x with rtlb := addTlb 64 pick x.rtlb e }

/-- An entry enters the die TLB of a die (R31). -/
def State.fillDie (s : State) (die : Nat) (e : TlbEntry) : State :=
  let r := s.draw
  { r.1 with dtlb := r.1.dtlb.put die (addTlb 32768 (Config.victim r.2) ((r.1.dtlb.find die).getD []) e) }

/-- The walks under way of a die's walker (R31). -/
def State.walksOf (s : State) (die : Nat) : Nat :=
  (s.walks.filter (fun w => w.1 == die)).length + (s.unitWalks.filter (fun w => w.die == die && w.walk)).length

/-- The lookup of a page by a unit that is under way. -/
def State.unitWalk (s : State) (die ctx va : Nat) : Option UnitWalk :=
  s.unitWalks.find? (fun w => w.die == die && w.ctx == ctx && w.page == va / 2 ^ 16)

/-- The lookup of a page by a unit: the ck of its answer and whether it walks; or it has ended. -/
def State.setUnitWalk (s : State) (die ctx va : Nat) (w : Option (Nat × Bool)) : State :=
  let others := s.unitWalks.filter (fun w => !(w.die == die && w.ctx == ctx && w.page == va / 2 ^ 16))
  { s with unitWalks := match w with
    | some x => others ++ [⟨die, ctx, va / 2 ^ 16, x.1, x.2⟩]
    | none => others }

/-- A unit's walk begins, once one of the 32 of its die's walker is free: the ck until its answer (R31, R494). -/
def State.beginUnitWalk (s : State) (die ctx va before : Nat) : Nat × State :=
  if s.walksOf die < 32 then
    let n := before + s.walkTime die (s.walkAddrs ctx va)
    (n, s.setUnitWalk die ctx va (some (s.ck + n, true)))
  else (1, s)

/-- The pins of a landing's line are released by one (R82). -/
def State.unpin (s : State) (l : Landing) : State :=
  if !l.pinned || l.own || l.page.isNone then s
  else match s.lines.find (l.pa / 256) with
  | some z => { s with lines := s.lines.put (l.pa / 256) { z with pins := z.pins - 1 } }
  | none => s

/-- The tile whose engines an event belongs to. -/
def eventTile : Event → Option TileId
  | .armedIssue t => some t
  | .tstreamLineArrival t _ => some t
  | .landingBufferWrite t _ => some t
  | .ringSlotArrival t _ => some t
  | .timedWriteAccept t _ _ _ => some t
  | .xsendWord t => some t
  | .exchangeReceive t => some t
  | .gangQueueEntry t _ _ => some t
  | .matrixOpComplete t => some t
  | .drainDelivery t _ _ => some t
  | .tileFaultHandling t _ => some t
  | _ => none

/-- The barrier domain that an event belongs to. -/
def eventDomain : Event → Option Nat
  | .barrierRelease d => some d
  | .promotion d => some d
  | .windowOpen d _ => some d
  | .windowClose d _ => some d
  | .windowTimeout d _ => some d
  | .collectiveComplete d _ => some d
  | .collectiveMemberLost d => some d
  | _ => none

/-- The state without the events to come that a test picks out. -/
def State.dropEvents (s : State) (p : Event → Bool) : State :=
  { s with agenda := s.agenda.filter (fun e => !p e), timers := s.timers.filter (fun e => !p e.2) }

/-- The state without the events of a tile's engines. -/
def State.dropTileEvents (s : State) (t : TileId) : State := s.dropEvents (fun e => eventTile e == some t)

/-- The pending lines of a tile are dropped, and their pins released (R422). -/
def State.dropLands (s : State) (t : TileId) : State :=
  let x := s.tile t
  (x.lands.foldl (fun (u : State) l => u.unpin l) s).setTile t { x with lands := [], writes := [], gath := none }

/-! ### Agents that wait, complete and fault -/

/-- The agent waits; its instruction has not completed. -/
def State.park (s : State) (ag : Agent) (w : Wait) : State :=
  match ag with
  | .slot i => s.setSlot i { s.slot i with st := .waiting, wait := w }
  | .tile t => s.setTile t { s.tile t with wait := w }

/-- A waiting slot runs again; its instruction is issued anew. -/
def State.wake (s : State) (i : SlotId) : State :=
  let x := s.slot i
  if x.st = .waiting then s.setSlot i { x with st := .running, wait := .none } else s

/-- The agent's instruction completed without a transfer (R265, R280). -/
def State.done (s : State) (ag : Agent) : State := s.setHart ag (s.hart ag).advance

/-- A waiting instruction of a slot completes: its result register is written, and the slot runs on. -/
def State.complete (s : State) (i : SlotId) (d : Reg) (x : Word) : State :=
  ((s.wake i).wg (.slot i) d x).done (.slot i)

/-- `k.gprog` after a gather of `n` blocks: stopped at block `next`, or complete (R156, R484). -/
def gprogWord (val : Bool) (next n : Nat) : Word := BitVec.ofNat 64 ((if val then 2 ^ 63 else 0) + next % 2 ^ 16 * 2 ^ 16 + n % 2 ^ 16)

/-- A `tgather` that a precise fault stops writes its progress register (R156). -/
def Tile.stopGather (x : Tile) : Tile :=
  match x.gath with
  | some (j, n) => { x with gath := none, r := { x.r with gprog := gprogWord true j n } }
  | none => x

/-- A fault of a tile: the tile stops, its registers report the fault, and its domain freezes (R410). -/
def State.tileFault (s : State) (t : TileId) (f : FaultInfo) (resume : BitVec 23) : State :=
  let x := if f.imp then s.tile t else (s.tile t).stopGather
  let h := x.h
  let s1 := s.setTile t { x with r := { x.r with h := { h with cause := causeWord false false 0 f, epc := resume } }, faddr := f.faddr, raised := (s.time, s.ck),
                                 wait := .stopped, armed := none }
  let s2 : State := { s1 with
    domains := s1.domains.map (fun p => if p.2.member t.val then (p.1, { p.2 with frozen := true }) else p) }
  s2.post (.tileFaultHandling t f)

/-- A fault at an agent, precise at the executing instruction unless `resume` says otherwise (R402). A speculative
task that consumes a data error is aborted and rerun once (R188). -/
def State.faultAt (s : State) (ag : Agent) (f : FaultInfo) (resume : BitVec 23) : State :=
  match ag with
  | .slot i =>
    let x := s.slot i
    if f.cause = 0x13 && x.spec == .speculative && x.task.isSome && !x.dataAborted then
      let s1 := s.abortTask i
      s1.setSlot i { s1.slot i with dataAborted := true }
    else (s.dropReqs (fun q => q.who == Requester.agent ag)).takeFault i f resume
  | .tile t => s.tileFault t f resume

/-- A precise fault at the executing instruction. -/
def State.raiseFault (s : State) (ag : Agent) (f : FaultInfo) : State := s.faultAt ag f (s.hart ag).pc

/-- The same run of the same task still holds the slot. -/
def sameRun (s t : State) (ag : Agent) : Bool :=
  match ag with
  | .slot i => (t.slot i).ser == (s.slot i).ser && (t.slot i).task.isSome == (s.slot i).task.isSome
  | .tile _ => true

/-- What an instruction comes to, from what its parts come to; `k` completes it. -/
def finishWith {α : Type} (s : State) (ag : Agent) (r : Res α) (k : α → State → State) :
    Host.Outcome State Fault Refusal :=
  match r with
  | .ok x t => .next (if sameRun s t ag then k x t else t)
  | .fault f t => .next (t.raiseFault ag f)
  | .wait w t => .next (t.park ag w)
  | .stop f => .fault f

/-- The same for an instruction that continues at PC + 4. -/
def finish (s : State) (ag : Agent) (r : Res Unit) : Host.Outcome State Fault Refusal :=
  finishWith s ag r (fun _ t => t.done ag)

/-- The same for an instruction that writes a `g` register and continues at PC + 4. -/
def finishG (s : State) (ag : Agent) (d : Reg) (r : Res Word) : Host.Outcome State Fault Refusal :=
  finishWith s ag r (fun x t => (t.wg ag d x).done ag)

/-- An instruction that its guard suppresses completes without effect (R247, R265). -/
def suppressed (s : State) (ag : Agent) : Host.Outcome State Fault Refusal := .next (s.done ag)

end Sys2Proof.Machine
end

