-- ==== Sys2Proof/Machine/Engines.lean ====
section
/-!
DEFINITION. Tile memory, the accumulator bank and the engines of a tile (spec/02_memory_hierarchy.md R65 to R70;
spec/11_tensor_and_timed.md R360 to R363): template fields (R256, R257), the shadow (R67), what each engine operation
reads and writes, and the waits of R361 and R363.
-/
namespace Sys2Proof.Machine

/-! ### Templates (R256, R257) -/

/-- Halfword Hk of a template. -/
def hw (t : BitVec 256) (k : Nat) : Nat := bitsAt t (16 * k) 16
/-- OPC. -/
def tOPC (t : BitVec 256) : Nat := bitsAt t 12 4
/-- AF. -/
def tAF (t : BitVec 256) : Nat := bitsAt t 8 4
/-- BF. -/
def tBF (t : BitVec 256) : Nat := bitsAt t 4 4
/-- PM: 0 `qzero`, 1 `qkeep`, 2 `qexcl`. -/
def tPM (t : BitVec 256) : Nat := bitsAt t 2 2
/-- SAT. -/
def tSAT (t : BitVec 256) : Bool := bitsAt t 1 1 == 1
/-- ACC. -/
def tACC (t : BitVec 256) : Bool := bitsAt t 0 1 == 1
/-- DF. -/
def tDF (t : BitVec 256) : Nat := bitsAt t 28 4
/-- RM. -/
def tRM (t : BitVec 256) : Nat := bitsAt t 26 2
/-- BIAS. -/
def tBIAS (t : BitVec 256) : Bool := bitsAt t 25 1 == 1
/-- M, N and K. -/
def tM (t : BitVec 256) : Nat := hw t 2
/-- N. -/
def tN (t : BitVec 256) : Nat := hw t 3
/-- K. -/
def tK (t : BitVec 256) : Nat := hw t 4
/-- Byte offset of operand A. -/
def tOPA (t : BitVec 256) : Nat := hw t 5 * 256
/-- Byte offset of operand B. -/
def tOPB (t : BitVec 256) : Nat := hw t 6 * 256
/-- Byte offset of the destination. -/
def tDST (t : BitVec 256) : Nat := hw t 7 * 256
/-- Byte offset of A's scales. -/
def tSCA (t : BitVec 256) : Nat := hw t 8 * 128
/-- Byte offset of B's scales. -/
def tSCB (t : BitVec 256) : Nat := hw t 9 * 128
/-- First accumulator line. -/
def tACCL (t : BitVec 256) : Nat := hw t 10
/-- Row stride of A in bytes. -/
def tSTRA (t : BitVec 256) : Nat := hw t 11 * 64
/-- Row stride of B in bytes. -/
def tSTRB (t : BitVec 256) : Nat := hw t 12 * 64
/-- Row stride of the destination in bytes. -/
def tSTRD (t : BitVec 256) : Nat := hw t 13 * 64
/-- Byte offset of the source mask; zero for none. -/
def tMSKS (t : BitVec 256) : Nat := hw t 14 * 128
/-- Byte offset of the destination mask. -/
def tMSKD (t : BitVec 256) : Nat := hw t 15 * 128

/-- A format of a template (R257). -/
inductive TFmt where
  | fp (f : Fmt) | i8 | i32 | blk (b : Blk)
deriving DecidableEq, Repr

/-- The format of a code (R257). -/
def tfmt : Nat → TFmt
  | 0 => .fp .fp32 | 1 => .fp .fp16 | 2 => .fp .bf16 | 3 => .fp .e4m3 | 4 => .fp .e5m2 | 5 => .fp .e2m1
  | 6 => .i8 | 7 => .i32 | 8 => .blk .mx32e4m3 | 9 => .blk .mx32e5m2 | 10 => .blk .mx32e2m1 | 11 => .blk .mx32i8
  | 12 => .blk .mx64e4m3 | 13 => .blk .mx64e5m2 | 14 => .blk .mx64i8 | _ => .blk .mx64e2m1

/-- The group length G (R124). -/
def TFmt.group : TFmt → Nat
  | .blk b => blkLen b
  | _ => 32
/-- The bits of an element. -/
def TFmt.bits : TFmt → Nat
  | .fp f => f.width | .i8 => 8 | .i32 => 32 | .blk b => blkBits b
/-- The format is a block format. -/
def TFmt.isBlk : TFmt → Bool
  | .blk _ => true
  | _ => false
/-- ceil(a / b). -/
def cdiv (a b : Nat) : Nat := (a + b - 1) / b
/-- KP (R369). -/
def TFmt.padded (f : TFmt) (k : Nat) : Nat := if f.isBlk then cdiv k f.group * f.group else k
/-- The bytes of a row of `k` elements (R369). -/
def TFmt.rowBytes (f : TFmt) (k : Nat) : Nat := cdiv (f.padded k * f.bits) 8
/-- The bytes of a scale entry (R369). -/
def TFmt.scaleBytes : TFmt → Nat
  | .blk b => blkScaleBytes b
  | _ => 0

/-- The columns [n0, n1) of N that an entry computes: all of them, or a gang member's chunk (R376). -/
def colsOf (t : BitVec 256) (gang : Option (Nat × Nat)) : Nat × Nat :=
  match gang with
  | some (r, k) =>
    if tOPC t = 1 ∨ tOPC t = 2 then
      let chunk := 64 * cdiv (tN t) (64 * k)
      let n0 := min (r * chunk) (tN t)
      (n0, min (n0 + chunk) (tN t))
    else (0, tN t)
  | none => (0, tN t)

/-! ### Tile memory and the accumulator bank -/

/-- `n` bytes of tile memory. -/
def State.tm (s : State) (t : TileId) (off n : Nat) : List Byte := memBytes s.mem (tileBase t + off) n
/-- The little-endian number of `n` bytes of tile memory. -/
def State.tmNat (s : State) (t : TileId) (off n : Nat) : Nat := memNat s.mem (tileBase t + off) n
/-- Some granule of a range of tile memory is marked (R419). -/
def State.tmMarked (s : State) (t : TileId) (off n : Nat) : Bool := s.marked (tileBase t + off) n

/-- The marks of the four granules of a 256-byte line at a physical address. -/
def State.lineMarks (s : State) (pa : Nat) : BitVec 4 :=
  BitVec.ofNat 4 ((List.range 4).foldl (fun a k => a + if s.marks.contains (pa / 64 + k) then 2 ^ k else 0) 0)

/-- The state with marks set on granules of a 256-byte line (R419). -/
def State.setLineMarks (s : State) (pa : Nat) (mk : BitVec 4) : State :=
  { s with marks := (List.range 4).foldl (fun l k => if mk.getLsbD k then insertNat (pa / 64 + k) l else l) s.marks }

/-- An accumulator line (R68). -/
def Tile.accLine (x : Tile) (l : Nat) : VWord := (x.acc.find l).getD 0
/-- The marks of an accumulator line. -/
def Tile.accLineMarks (x : Tile) (l : Nat) : BitVec 4 :=
  BitVec.ofNat 4 ((List.range 4).foldl (fun a k => a + if x.accMarks.contains (4 * l + k) then 2 ^ k else 0) 0)

/-- The bank of shadow line k of a superstep (R65). -/
def shadowBank (k : Nat) : Nat := 32 + k % 8

/-- The first write of a superstep to a line of a tile whose domain has pentimento on copies its contents into the
shadow; a write that finds the shadow full makes the superstep unprotected (R67, R425). -/
def State.shadowLine (s : State) (t : TileId) (acc : Bool) (line : Nat) : State :=
  match s.domainOf t.val with
  | none => s
  | some (d, x) =>
    let y := s.tile t
    if !x.pent || x.unprot || y.shadow.any (fun z => z.acc == acc && z.line == line) then s
    else if y.shadow.length + y.journal.length < 4096 then
      let old : Shadow :=
        if acc then ⟨true, line, y.accLine line, y.accLineMarks line⟩
        else ⟨false, line, BitVec.ofNat 2048 (s.tmNat t (256 * line) 256), s.lineMarks (tileBase t + 256 * line)⟩
      s.setTile t { y with shadow := y.shadow ++ [old], banks := insertNat (shadowBank y.shadow.length) y.banks }
    else { s with domains := s.domains.put d { x with unprot := true } }

/-- The 256-byte lines of a range. -/
def linesOf (off n : Nat) : List Nat :=
  if n = 0 then [] else (List.range ((off + n - 1) / 256 - off / 256 + 1)).map (fun k => off / 256 + k)

/-- A write of tile memory by its tile or by an engine, with the shadow (R67, R190). -/
def State.tmWrite (s : State) (t : TileId) (off : Nat) (bytes : List (Option Byte)) : State :=
  ((linesOf off bytes.length).foldl (fun u l => u.shadowLine t false l) s).write (tileBase t + off) bytes none

/-- A write of whole bytes. -/
def State.tmStore (s : State) (t : TileId) (off : Nat) (bytes : List Byte) : State := s.tmWrite t off (bytes.map some)

/-- A write of the first `n` accumulators of a line, whose value is then `v`, with the shadow; it clears the marks of the granules
that it covers whole (R67, R68, R419). -/
def State.accStore (s : State) (t : TileId) (l : Nat) (v : VWord) (n : Nat) : State :=
  let s1 := s.shadowLine t true l
  let y := s1.tile t
  s1.setTile t { y with acc := y.acc.put l v, accMarks := y.accMarks.filter (fun g => g / 4 != l || decide (n < 16 * (g % 4) + 16)) }

/-- A write of tile memory by a core or a copy agent inside a window, with the shadow; the window journals its lines (R67,
R193, R423). -/
def State.windowStore (s0 : State) (t : TileId) (off : Nat) (bytes : List (Option Byte)) (by_ : Option SlotId) : State :=
  let s := (linesOf off bytes.length).foldl (fun u l => u.shadowLine t false l) s0
  let s1 := match s.domainOf t.val with
    | none => s
    | some (d, x) =>
      { s with domains := s.domains.put d { x with
          windows := x.windows.map (fun (w : Window) =>
            if w.isOpen then { w with wrote := (linesOf off bytes.length).foldl (fun a l => insertNat (t.val * 65536 + l) a) w.wrote }
            else w) } }
  s1.write (tileBase t + off) bytes by_

/-- Bytes written at their place by a core or a copy agent. -/
def State.placeWrite (s : State) (pa : Nat) (bytes : List (Option Byte)) (by_ : Option SlotId) : State :=
  match s.phys pa with
  | .tileMem t off => s.windowStore (Fin.ofNat 128 t) off bytes by_
  | _ => s.write pa bytes by_

/-! ### What operations read and write (R363) -/

/-- Ranges of tile memory as offset and length, and runs of accumulator lines as first line and number. -/
structure Foot where
  rd : List (Nat × Nat)
  wr : List (Nat × Nat)
  accRd : Nat × Nat
  accWr : Nat × Nat
deriving DecidableEq, Repr

/-- `n` rows of `len` bytes at a stride. -/
def rowsAt (base stride n len : Nat) : List (Nat × Nat) := (List.range n).map (fun m => (base + m * stride, len))

/-- The words of a row mask of `m` rows; none at offset zero. -/
def maskAt (base m : Nat) : List (Nat × Nat) := if base = 0 then [] else [(base, 8 * cdiv m 64)]

/-- The footprint of a template for the columns [n0, n1) (R369 to R374, R376). -/
def footTmpl (t : BitVec 256) (n0 n1 : Nat) : Foot :=
  let m := tM t
  let n := n1 - n0
  let acc := (tACCL t, m * cdiv n 64)
  let none' : Nat × Nat := (tACCL t, 0)
  match tOPC t with
  | 1 =>
    let fa := tfmt (tAF t)
    let fb := tfmt (tBF t)
    let ga := cdiv (tK t) fa.group
    let gb := cdiv (tK t) fb.group
    { rd := rowsAt (tOPA t) (tSTRA t) m (fa.rowBytes (tK t)) ++ rowsAt (tOPB t + n0 * tSTRB t) (tSTRB t) n (fb.rowBytes (tK t))
        ++ (if fa.isBlk then [(tSCA t, m * ga * fa.scaleBytes)] else [])
        ++ (if fb.isBlk then [(tSCB t + n0 * gb * fb.scaleBytes, n * gb * fb.scaleBytes)] else [])
        ++ (if tBIAS t then [(tDST t + 4 * n0, 4 * n)] else []) ++ maskAt (tMSKS t) m ++ maskAt (tMSKD t) m,
      wr := maskAt (tMSKD t) m, accRd := if tACC t then acc else none', accWr := acc }
  | 2 =>
    let f := tfmt (tDF t)
    let g := f.group
    let cb := n0 * f.bits / 8
    { rd := (if tBIAS t then [(tOPB t + 4 * n0, 4 * n)] else []) ++ maskAt (tMSKS t) m ++ maskAt (tMSKD t) m,
      wr := rowsAt (tDST t + cb) (tSTRD t) m (f.rowBytes n)
        ++ (if f.isBlk then rowsAt (tSCA t + n0 / g * f.scaleBytes) (cdiv (tN t) g * f.scaleBytes) m (cdiv n g * f.scaleBytes) else [])
        ++ maskAt (tMSKD t) m,
      accRd := acc, accWr := none' }
  | 3 =>
    { rd := maskAt (tMSKS t) m ++ maskAt (tMSKD t) (if tRM t < 2 then m else 1),
      wr := (tDST t, if tRM t < 2 then 4 * m else 4 * n) :: maskAt (tMSKD t) (if tRM t < 2 then m else 1),
      accRd := acc, accWr := none' }
  | _ => { rd := [], wr := [], accRd := none', accWr := acc }

/-- The footprint of a `tred` (R379, R380). -/
def footRed (w : Vector Word 4) (src : Nat) : Foot :=
  let ns := bitsAt w[0] 54 6 + 1
  let lpr := bitsAt w[0] 48 6 + 1
  let nl := bitsAt w[0] 25 12
  let rows := nl / lpr
  let acc := (bitsAt w[0] 37 11, nl)
  { rd := (List.range ns).map (fun j => (src + j * bitsAt w[1] 32 32, 256 * nl))
      ++ (if bitsAt w[2] 32 32 = 0 then [] else
          (List.range ns).map (fun j => (bitsAt w[2] 32 32 + j * bitsAt w[2] 0 32, 8 * cdiv rows 64)))
      ++ [(bitsAt w[3] 32 32, 8 * cdiv rows 64)],
    wr := [(bitsAt w[3] 32 32, 8 * cdiv rows 64)], accRd := acc, accWr := acc }

/-- The footprint of an entry of the matrix-array queue. -/
def TKind.foot : TKind → Foot
  | .tmpl t g => footTmpl t (colsOf t g).1 (colsOf t g).2
  | .red w src => footRed w src

/-- A list without its repetitions. -/
def once (l : List Nat) : List Nat := l.foldl (fun a x => if a.contains x then a else a ++ [x]) []

/-- The 256-byte lines of ranges, in order. -/
def linesOfAll (l : List (Nat × Nat)) : List Nat := l.flatMap (fun r => linesOf r.1 r.2)

/-- The operand lines that an operation reads, each once, in its order (R69): B and B's scales, A and A's scales, the bias;
the sources of a `tred`, line by line. -/
def TKind.reads : TKind → List Nat
  | .tmpl t g =>
    let c := colsOf t g
    let n := c.2 - c.1
    (match tOPC t with
    | 1 =>
      let fa := tfmt (tAF t)
      let fb := tfmt (tBF t)
      let ga := cdiv (tK t) fa.group
      let gb := cdiv (tK t) fb.group
      once (linesOfAll (rowsAt (tOPB t + c.1 * tSTRB t) (tSTRB t) n (fb.rowBytes (tK t))
        ++ (if fb.isBlk then [(tSCB t + c.1 * gb * fb.scaleBytes, n * gb * fb.scaleBytes)] else [])
        ++ rowsAt (tOPA t) (tSTRA t) (tM t) (fa.rowBytes (tK t))
        ++ (if fa.isBlk then [(tSCA t, tM t * ga * fa.scaleBytes)] else [])
        ++ (if tBIAS t then [(tDST t + 4 * c.1, 4 * n)] else [])))
    | 2 => linesOfAll (if tBIAS t then [(tOPB t + 4 * c.1, 4 * n)] else [])
    | _ => [])
  | .red w src =>
    (List.range (bitsAt w[0] 54 6 + 1)).flatMap (fun j => linesOf (src + j * bitsAt w[1] 32 32) (256 * bitsAt w[0] 25 12))

/-- The row masks that an operation reads until it completes (R369, R380). -/
def TKind.masks : TKind → List (Nat × Nat)
  | .tmpl t _ => if tOPC t ≤ 3 then maskAt (tMSKS t) (tM t) else []
  | .red w _ =>
    let rows := bitsAt w[0] 25 12 / (bitsAt w[0] 48 6 + 1)
    if bitsAt w[2] 32 32 = 0 then []
    else (List.range (bitsAt w[0] 54 6 + 1)).map (fun j => (bitsAt w[2] 32 32 + j * bitsAt w[2] 0 32, 8 * cdiv rows 64))

/-- An operation as it is issued (R366). -/
def TKind.op (k : TKind) (seq : Nat) : TOp := ⟨k, seq, none, k.reads, []⟩

/-- The tensor operations of a tile that have not completed, those on their way to the queues among them (R363, R375). -/
def Tile.ops (x : Tile) : List TOp := x.queue ++ x.gangs

/-- Two ranges share a 256-byte line. -/
def linesMeet (a b : Nat × Nat) : Bool :=
  a.2 != 0 && b.2 != 0 && decide (a.1 / 256 ≤ (b.1 + b.2 - 1) / 256) && decide (b.1 / 256 ≤ (a.1 + a.2 - 1) / 256)

/-- The operation has still to read a line of a range (R363). -/
def TOp.readsOf (o : TOp) (r : Nat × Nat) : Bool :=
  o.kind.masks.any (linesMeet r) || (linesOf r.1 r.2).any o.todo.contains

/-- Two runs of accumulator lines meet; an empty run meets none. -/
def runsMeet (a b : Nat × Nat) : Bool := decide (max a.1 b.1 < min (a.1 + a.2) (b.1 + b.2))

/-- The ranges that an uncompleted `xred` writes: DST, DMSK and DSC (R398). -/
def Xred.wr (x : Xred) : List (Nat × Nat) :=
  let rows := bitsAt x.desc[0] 32 16
  let rlen := bitsAt x.desc[0] 0 32
  [(bitsAt x.desc[1] 0 32, rows * rlen), (bitsAt x.desc[2] 0 32, 8 * cdiv rows 64), (bitsAt x.desc[3] 0 32, x.ssc.length)]

/-- The bank of a tile-memory offset (R65). -/
def bankOf (off : Nat) : Nat := if off < 0x400000 then off / 256 % 32 else 32 + off / 256 % 8

/-- The wait that the marks of the tile's engines impose on its access to a range, and whether it raises hold (R361, R363). -/
def Tile.waits (x : Tile) (off n : Nat) (writes : Bool) : Option Hold :=
  let r := (off, n)
  if x.lands.any (fun l => linesMeet r (l.off, 256))
      || x.recvs.any (fun v => linesMeet r (v.off + 64 * v.fin, 64 * (v.words - v.fin)))
      || x.xreds.any (fun v => !v.fin && v.wr.any (linesMeet r)) then some .always
  else if x.ops.any (fun o => o.kind.foot.wr.any (linesMeet r) || (writes && o.readsOf r)) then
    some .exchange
  else if writes && (x.sends.any (fun v => linesMeet r (v.off + 64 * v.fin, 64 * (v.words - v.fin)))
      || x.writes.any (fun l => !l.gone && linesMeet r (l.off, 256))) then some .never
  else none

/-- An access to lines meets a bank that is used in this ck (R65, R69). -/
def Tile.bankLost (x : Tile) (ls : List Nat) : Bool := x.banks.any (fun b => ls.any (fun l => bankOf (256 * l) == b))

/-- The wait of an access to a range: on the engines' marks, or on a bank (R361, R363, R69). -/
def Tile.busy (x : Tile) (off n : Nat) (writes : Bool) : Option Hold :=
  match x.waits off n writes with
  | some h => some h
  | none => if x.bankLost (linesOf off n) then some .exchange else none

/-! ### The tile's own memory (R18, R264, R365) -/

/-- The offset that a self-range address names; none for any other address. -/
def selfOff (va : Nat) : Option Nat :=
  if 0x007F000000000000 ≤ va ∧ va < 0x007F000000800000 then some (va % 0x800000) else none

/-- The offset that a register operand of the tile's own memory names: plain, or a self-range address (R365). -/
def tileOperand (va : Nat) : Nat := (selfOff va).getD va

/-- The banks of a range used by an access of the sequencer in this ck (R65, R69). -/
def State.useBanks (s : State) (t : TileId) (off n : Nat) : State :=
  let x := s.tile t
  s.setTile t { x with banks := (linesOf off n).foldl (fun l k => insertNat (bankOf (256 * k)) l) x.banks }

/-- The checks of a load or store of the tile profile (R18, R26, R264), then the wait of R363. -/
def State.tileCheck (s : State) (t : TileId) (va n : Nat) (kind : Kind) : Res Nat :=
  if 2 ^ 55 ≤ va then .fault (tfault 0x0A 1 0 kind va) s
  else match selfOff va with
  | none => .fault (tfault 0x0B 7 0 kind va) s
  | some off =>
    if s.tileSize t.val < off + n then .fault (tfault 0x0B 7 0 kind va) s
    else if kind.writes && decide (off < (s.tile t).tclen) then .fault { cause := 0x07, kind := kind.num, faddr := va } s
    else match (s.tile t).waits off n kind.writes with
    | some hold => .wait (.stall hold) s
    | none => .ok off s

/-- The same for one access, which takes its bank (R69). -/
def State.tileAim (s : State) (t : TileId) (va n : Nat) (kind : Kind) : Res Nat :=
  (s.tileCheck t va n kind).bind fun off s =>
    if (s.tile t).bankLost (linesOf off n) then .wait (.stall .exchange) s else .ok off (s.useBanks t off n)

/-- The lines of `ls` that are the `k`-th of their bank. -/
def bankTurn (k : Nat) (ls : List Nat) : List Nat :=
  ls.zipIdx.filterMap (fun p =>
    if ((ls.take p.2).filter (fun l => bankOf (256 * l) == bankOf (256 * p.1))).length = k then some p.1 else none)

/-- The accesses of an indexed instruction, one for each of its lines, have their banks: one access a bank and a ck, so lines of
one bank take as many ck, in which the instruction waits as for any bank (R63, R65, R69, R352). -/
def State.tileTurns (s : State) (t : TileId) (ls : List Nat) : Res Unit :=
  let x := s.tile t
  let now := bankTurn x.turn ls
  if x.bankLost now then .wait (.stall .exchange) s
  else
    let u := now.foldl (fun (u : State) l => u.useBanks t (256 * l) 1) s
    if (bankTurn (x.turn + 1) ls).isEmpty then .ok () (u.setTile t { u.tile t with turn := 0 })
    else .wait (.stall .exchange) (u.setTile t { u.tile t with turn := x.turn + 1 })

/-! ### Operand reads (R69) -/

/-- The lines that an operation reads in a ck, one a bank and at most 32 (or one, for a `tred`), and whether a source of
higher rank took the bank of the next. -/
def takeLines (used : List Nat) : Nat → List Nat → List Nat → List Nat × Bool
  | 0, _, _ => ([], false)
  | _, _, [] => ([], false)
  | n + 1, mine, l :: t =>
    let b := bankOf (256 * l)
    if used.contains b then ([], true)
    else if mine.contains b then ([], false)
    else let r := takeLines used n (b :: mine) t; (l :: r.1, r.2)

/-- The operand reads of a ck of the running operation of a tile: of the matrix array (`red` = false, rank 4) or of a `tred`
(rank 6). A read that loses its bank delays the operation by one ck. -/
def State.operandReads (s : State) (t : TileId) (red : Bool) : State :=
  let x := s.tile t
  match x.queue with
  | [] => s
  | o :: rest =>
    let mine := match o.kind with
      | .red .. => red
      | _ => !red
    match o.left with
    | none => s
    | some c =>
      if !mine || o.todo.isEmpty then s
      else
        let r := takeLines x.banks (if red then 1 else 32) [] o.todo
        let got := r.1.map (fun l => (l, (BitVec.ofNat 2048 (s.tmNat t (256 * l) 256) : VWord), s.lineMarks (tileBase t + 256 * l)))
        let o' : TOp := { o with todo := o.todo.drop r.1.length, got := o.got ++ got, left := some (if r.2 then c + 1 else c) }
        let s1 := s.setTile t { x with
          queue := o' :: rest
          banks := r.1.foldl (fun l k => insertNat (bankOf (256 * k)) l) x.banks }
        if r.2 then s1.after (c + 1 - s.ck) (.matrixOpComplete t) else s1

/-- The offset lies in one of the ranges. -/
def inRanges (l : List (Nat × Nat)) (a : Nat) : Bool := l.any (fun r => decide (r.1 ≤ a) && decide (a < r.1 + r.2))

/-- The state with the operand lines of an operation as it read them, for the bytes that it does not write (R69, R363). -/
def State.withOperands (s : State) (t : TileId) (o : TOp) : State :=
  o.got.foldl (fun (u : State) g =>
    let pa := tileBase t + 256 * g.1
    let keep (b : Byte × Nat) : Option Byte := if inRanges o.kind.foot.wr (256 * g.1 + b.2) then none else some b.1
    { u with
      mem := memPutMask u.mem pa ((bytesOfNat 256 g.2.1.toNat).zipIdx.map keep)
      marks := u.marks.filter (fun m => m / 4 != pa / 256) }.setLineMarks pa g.2.2) s

/-- The operand lines of an operation as they are now, once it has computed (R69, R363). -/
def State.sinceOperands (u s : State) (t : TileId) (o : TOp) : State :=
  o.got.foldl (fun (u : State) g =>
    let pa := tileBase t + 256 * g.1
    let keep (b : Byte × Nat) : Option Byte := if inRanges o.kind.foot.wr (256 * g.1 + b.2) then none else some b.1
    if inRanges o.kind.foot.wr (256 * g.1) then
      { u with mem := memPutMask u.mem pa ((memBytes s.mem pa 256).zipIdx.map keep) }
    else
      { u with
        mem := memPutMask u.mem pa ((memBytes s.mem pa 256).zipIdx.map keep)
        marks := u.marks.filter (fun m => m / 4 != pa / 256) }.setLineMarks pa (s.lineMarks pa)) u

end Sys2Proof.Machine
end

