-- ==== Sys2Proof/Machine/Tensor.lean ====
section
/-!
DEFINITION. The tensor operations of a tile (spec/11_tensor_and_timed.md R366 to R381; spec/03_number_formats.md R124
to R132): the checks of an amended template, the effect of each operation at its completion, `tred`, and the durations
of the matrix array.
-/
namespace Sys2Proof.Machine

/-! ### Elements and masks -/

/-- The value of an element code in a format, without a block scale; INT formats as integers. -/
def TFmt.value (f : TFmt) (extra code : Nat) : Fp :=
  match f with
  | .fp g => g.decode code
  | .i8 => let v := codeInt 8 code; .fin (decide (v < 0)) v.natAbs 0
  | .i32 => let v := codeInt 32 code; .fin (decide (v < 0)) v.natAbs 0
  | .blk b => blkElement b extra code

/-- Element `k` of a row at a byte offset (R110, R369). -/
def State.elem (s : State) (t : TileId) (f : TFmt) (row k : Nat) : Nat :=
  let bit := k * f.bits
  s.tmNat t (row + bit / 8) 4 / 2 ^ (bit % 8) % 2 ^ f.bits

/-- Mask bit `m` of a mask at a byte offset (R369); no mask reads 0. -/
def State.maskBit (s : State) (t : TileId) (base m : Nat) : Bool :=
  base != 0 && s.tmNat t (base + m / 8) 1 / 2 ^ (m % 8) % 2 == 1

/-- The state with bit `m` of a mask of `rows` rows set; the reserved bits of its word are written as 0 (R129, R130). -/
def State.setMaskBit (s : State) (t : TileId) (base rows m : Nat) : State :=
  let a := base + m / 64 * 8
  let w := (s.tmNat t a 8 ||| 2 ^ (m % 64)) % 2 ^ min 64 (rows - m / 64 * 64)
  s.tmStore t a (bytesOfNat 8 w)

/-- Accumulator (m, n) of an operation (R369). -/
def Tile.accAt (x : Tile) (accl lpr m n : Nat) : Nat := elemAt (x.accLine (accl + m * lpr + n / 64)) 32 (n % 64)

/-- A row of accumulators written, its lines taken from a list of values (R369); lanes past the row are kept. -/
def State.accRow (s : State) (t : TileId) (accl lpr m : Nat) (vals : List Nat) : State :=
  (List.range lpr).foldl (fun u j =>
    let l := accl + m * lpr + j
    let old := (u.tile t).accLine l
    let part := (vals.drop (64 * j)).take 64
    let keep := (elemsOf 32 64 old.toNat).drop part.length
    u.accStore t l (BitVec.ofNat 2048 (ofElems 32 (part ++ keep))) part.length) s

/-- An FP32 code is a NaN or an infinity (R115). -/
def badFp32 (c : Nat) : Bool := let x := Fmt.fp32.decode c; x.isNan || x.isInf

/-- An FP32 sum with `.rne` and the overflow mode of an operation (R114). -/
def addSat (sat : Bool) (a b : Nat) : Nat × Nst :=
  let (z, n) := Fp.add (Fmt.fp32.decode a) (Fmt.fp32.decode b)
  let w := Fmt.fp32.convert .rne sat z
  (w.code, n ||| w.nst)

/-! ### Matrix multiply (R124, R125, R370) -/

/-- One group sum added onto an accumulator; the missing positions of a last group are exact zeros (R124, R125). -/
def State.groupStep (s : State) (t : TileId) (fa fb : TFmt) (sat : Bool) (rowA rowB scA scB g kEnd : Nat)
    (acc : Nat × Nst) : Nat × Nst :=
  let k0 := g * fa.group
  let ks := (List.range (min fa.group (kEnd - k0))).map (fun j => k0 + j)
  let extra (f : TFmt) (sc : Nat) : Nat := if f.scaleBytes = 2 then s.tmNat t (sc + 1) 1 else 0
  let ea := extra fa (scA + g * fa.scaleBytes)
  let eb := extra fb (scB + g * fb.scaleBytes)
  match fa, fb with
  | .i8, .i8 =>
    let sum : Int := ks.foldl (fun z k => z + codeInt 8 (s.elem t fa rowA k) * codeInt 8 (s.elem t fb rowB k)) 0
    (intCode 32 ((acc.1 : Int) + sum), acc.2)
  | _, _ =>
    let missing : List Fp := if ks.length < fa.group then [.fin false 0 0] else []
    let prods := ks.map (fun k => Fp.mul (fa.value ea (s.elem t fa rowA k)) (fb.value eb (s.elem t fb rowB k)))
    let r := Fp.sum (prods.map (fun p => p.1) ++ missing)
    let fl := prods.foldl (fun n p => n ||| p.2) r.2
    let (v, isNan) : Fp × Bool :=
      if fa.isBlk && fb.isBlk then
        let sa := s.tmNat t (scA + g * fa.scaleBytes) 1
        let sb := s.tmNat t (scB + g * fb.scaleBytes) 1
        if sa = 0xFF ∨ sb = 0xFF then (.nan, true) else (r.1.scale ((sa : Int) + sb - 254), false)
      else (r.1, false)
    let w := Fmt.fp32.convert .rne sat v
    let (z, n) := addSat sat acc.1 w.code
    (z, acc.2 ||| (if isNan then 0 else fl) ||| w.nst ||| n)

/-- The state with flags set in the `k.nst` of a tile (R366), and known as those of this ck (R117). -/
def State.tileFlags (s : State) (t : TileId) (n : Nst) : State :=
  let u := s.raise (.tile t) n
  u.setTile t { u.tile t with flagged := (u.tile t).flagged ||| n }

/-- An FP32 code as the 9200 writes it: a NaN is the canonical one (R104). -/
def canonFp32 (c : Nat) : Nat := if (Fmt.fp32.decode c).isNan then 0x7FC00000 else c

/-- The result of an operation at its completion: the state, or a data error that cannot be confined (R371, R420). -/
inductive TRes where
  | ok (s : State)
  | dataError (s : State)

/-- Some byte of the ranges is marked. -/
def State.anyMarked (s : State) (t : TileId) (l : List (Nat × Nat)) : Bool := l.any (fun r => s.tmMarked t r.1 r.2)

/-- Rows of a matrix multiply from row `m` on (R370, R371). -/
def State.matRows (s : State) (t : TileId) (T : BitVec 256) (n0 n1 : Nat) : Nat → Nat → TRes
  | 0, _ => .ok s
  | left + 1, m =>
    let fa := tfmt (tAF T)
    let fb := tfmt (tBF T)
    let lpr := cdiv (n1 - n0) 64
    let ga := cdiv (tK T) fa.group
    let rowA := tOPA T + m * tSTRA T
    let scA := tSCA T + m * ga * fa.scaleBytes
    let rowBad := s.tmMarked t rowA (fa.rowBytes (tK T)) || (fa.isBlk && s.tmMarked t scA (ga * fa.scaleBytes))
    let pois0 := s.maskBit t (tMSKS T) m || (tACC T && s.maskBit t (tMSKD T) m) || rowBad
    let isInt := decide (fa = .i8)
    let vals := (List.range (n1 - n0)).map (fun j =>
      let n := n0 + j
      let a0 := if tACC T then (s.tile t).accAt (tACCL T) lpr m j
        else if tBIAS T then s.tmNat t (tDST T + 4 * n) 4 else 0
      (List.range ga).foldl (fun a g =>
        s.groupStep t fa fb (tSAT T) rowA (tOPB T + n * tSTRB T) scA (tSCB T + n * ga * fb.scaleBytes) g (tK T) a) (a0, (0 : Nst)))
    let pois := pois0 || (!isInt && vals.any (fun v => badFp32 v.1))
    let out := if pois && tPM T == 0 then vals.map (fun _ => 0) else vals.map (fun v => v.1)
    let s1 := if pois then (s.setMaskBit t (tMSKD T) (tM T) m).tileFlags t nstPZ else s
    let s2 := s1.accRow t (tACCL T) lpr m out
    (s2.tileFlags t (vals.foldl (fun n v => n ||| v.2) 0)).matRows t T n0 n1 left (m + 1)

/-- The first row of a matrix multiply that consumes a data error which cannot be confined (R371, R420): row 0 for B, its
scales and the bias, row m for its accumulators, and the first row of a mask word. -/
def State.matErrorRow (s : State) (t : TileId) (T : BitVec 256) (n0 n1 : Nat) : Option Nat :=
  let fb := tfmt (tBF T)
  let gb := cdiv (tK T) fb.group
  let lpr := cdiv (n1 - n0) 64
  let shared := rowsAt (tOPB T + n0 * tSTRB T) (tSTRB T) (n1 - n0) (fb.rowBytes (tK T))
    ++ (if fb.isBlk then [(tSCB T + n0 * gb * fb.scaleBytes, (n1 - n0) * gb * fb.scaleBytes)] else [])
    ++ (if tBIAS T then [(tDST T + 4 * n0, 4 * (n1 - n0))] else [])
  let word (base m : Nat) : Bool := base != 0 && s.tmMarked t (base + m / 64 * 8) 8
  if s.anyMarked t shared then some 0
  else (List.range (tM T)).find? (fun m =>
    word (tMSKS T) m || word (tMSKD T) m
      || (tACC T && (List.range lpr).any (fun j => (s.tile t).accLineMarks (tACCL T + m * lpr + j) != 0)))

/-- A matrix multiply (R370); a data error outside A raises a data-error fault after the row that consumes it (R371, R420). -/
def State.matMul (s : State) (t : TileId) (T : BitVec 256) (n0 n1 : Nat) : TRes :=
  match s.matErrorRow t T n0 n1 with
  | some m =>
    (match s.matRows t T n0 n1 (m + 1) 0 with
      | .ok u => .dataError u
      | r => r)
  | none => s.matRows t T n0 n1 (tM T) 0

/-! ### Store of accumulators (R372) -/

/-- The bytes of a list of element codes of a width, packed low first. -/
def packCodes (bits : Nat) (codes : List Nat) : List Byte :=
  bytesOfNat (cdiv (codes.length * bits) 8) (ofElems bits codes)

/-- An element written in an unblocked destination format: its code, its flags, and whether it poisons its row (R106,
R114, R115). -/
def storeElem (df : TFmt) (isInt : Bool) (r : Rnd) (sat : Bool) (c : Nat) : Nat × Nst × Bool :=
  if isInt then
    (match df with
      | .i32 => (c, 0, false)
      | _ => let w := intToFp32 r (codeInt 32 c) 0; (w.1, w.2, false))
  else match df with
  | .fp .fp32 => (canonFp32 c, 0, badFp32 c)
  | .fp f =>
    let x := Fmt.fp32.decode c
    let w := f.convert r sat x
    let bad := match f with
      | .e2m1 => x.isNan || x.isInf || (!sat && (w.nst &&& nstOF) != 0 && (f.overflow r false x.sign).2)
      | _ => (f.decode w.code).isNan || (f.decode w.code).isInf
    (w.code, w.nst, bad)
  | .i8 => let w := fpToInt 8 r (Fmt.fp32.decode c); (intCode 8 w.1, w.2, false)
  | .i32 => let w := fpToInt 32 r (Fmt.fp32.decode c); (intCode 32 w.1, w.2, false)
  | .blk _ => (c, 0, false)

/-- The blocks of a row of values, the last padded with +0 (R372). -/
def blocksOfRow (b : Blk) (vals : List Nat) : List (Block × Nst × Bool) :=
  (List.range (cdiv vals.length (blkLen b))).map (fun i =>
    let part := (vals.drop (i * blkLen b)).take (blkLen b)
    quantMx b .rne ((part ++ List.replicate (blkLen b - part.length) 0).map Fmt.fp32.decode))

/-- The rounding mode of RM (R256). -/
def rndOf : Nat → Rnd
  | 0 => .rne | 1 => .rtz | 2 => .rdn | _ => .rup

/-- Rows of a store of accumulators from row `m` on (R372). -/
def State.storeRows (s : State) (t : TileId) (T : BitVec 256) (n0 n1 : Nat) : Nat → Nat → State
  | 0, _ => s
  | left + 1, m =>
    let df := tfmt (tDF T)
    let isInt := tAF T == 7
    let lpr := cdiv (n1 - n0) 64
    let rowBad := (List.range lpr).any (fun j => (s.tile t).accLineMarks (tACCL T + m * lpr + j) != 0)
    let xs : List (Nat × Nst) := (List.range (n1 - n0)).map (fun j =>
      let a := (s.tile t).accAt (tACCL T) lpr m j
      if tBIAS T then
        let b := s.tmNat t (tOPB T + 4 * (n0 + j)) 4
        if isInt then ((a + b) % 2 ^ 32, 0) else addSat (tSAT T) a b
      else (a, 0))
    let fl0 := xs.foldl (fun n x => n ||| x.2) (0 : Nst)
    match df with
    | .blk b =>
      let bs := blocksOfRow b (xs.map (fun x => x.1))
      let pois := s.maskBit t (tMSKS T) m || rowBad || bs.any (fun x => x.2.2)
      let zero := pois && tPM T == 0
      let codes := (bs.map (fun x => if zero then x.1.codes.map (fun _ => 0) else x.1.codes)).flatten
      let row := (packCodes (blkBits b) codes).take ((tfmt (tDF T)).rowBytes (n1 - n0))
      let scs := (bs.map (fun x =>
        let sc := if zero then 0x7F else x.1.scale
        let ex := if zero then 0 else x.1.extra
        if blkScaleBytes b = 2 then [BitVec.ofNat 8 sc, BitVec.ofNat 8 ex] else [BitVec.ofNat 8 sc])).flatten
      let s1 := if pois then (s.setMaskBit t (tMSKD T) (tM T) m).tileFlags t nstPZ else s
      let s2 := s1.tmStore t (tDST T + m * tSTRD T + n0 * blkBits b / 8) row
      let s3 := s2.tmStore t (tSCA T + (m * cdiv (tN T) (blkLen b) + n0 / blkLen b) * blkScaleBytes b) scs
      (s3.tileFlags t (bs.foldl (fun n x => n ||| x.2.1) fl0)).storeRows t T n0 n1 left (m + 1)
    | _ =>
      let ys := xs.map (fun x => storeElem df isInt (rndOf (tRM T)) (tSAT T) x.1)
      let pois := s.maskBit t (tMSKS T) m || rowBad || ys.any (fun y => y.2.2)
      let out := if pois && tPM T == 0 then ys.map (fun _ => 0) else ys.map (fun y => y.1)
      let s1 := if pois then (s.setMaskBit t (tMSKD T) (tM T) m).tileFlags t nstPZ else s
      let s2 := s1.tmStore t (tDST T + m * tSTRD T + n0 * df.bits / 8) (packCodes df.bits out)
      (s2.tileFlags t (ys.foldl (fun n y => n ||| y.2.1) fl0)).storeRows t T n0 n1 left (m + 1)

/-- A store of accumulators (R372); a marked bias or mask word is a data error (R420). -/
def State.storeAcc (s : State) (t : TileId) (T : BitVec 256) (n0 n1 : Nat) : TRes :=
  if s.anyMarked t (footTmpl T n0 n1).rd then .dataError s else .ok (s.storeRows t T n0 n1 (tM T) 0)

/-! ### Trees (R346) -/

/-- One round of the fixed tree: neighbours combined, an odd last entry passed on; `none` is Absent. -/
def treeRound {α : Type} (op : α → α → α × Nst) : List (Option α) → List (Option α) × Nst
  | some a :: some b :: t => let r := op a b; let z := treeRound op t; (some r.1 :: z.1, r.2 ||| z.2)
  | some a :: none :: t => let z := treeRound op t; (some a :: z.1, z.2)
  | none :: b :: t => let z := treeRound op t; (b :: z.1, z.2)
  | [a] => ([a], 0)
  | [] => ([], 0)

/-- The fixed tree of R346 over positions 0 to n − 1: its value, absent when every entry is, and its flags. -/
def treeReduce {α : Type} (op : α → α → α × Nst) : Nat → List (Option α) → Option α × Nst
  | 0, l => (l.head?.join, 0)
  | n + 1, l =>
    match l with
    | [] => (none, 0)
    | [a] => (a, 0)
    | _ => let r := treeRound op l; let z := treeReduce op n r.1; (z.1, r.2 ||| z.2)

/-! ### Reduction of accumulators (R373) and zeroing (R374) -/

/-- A node of a sum or a maximum over accumulator values (R373). -/
def accNode (isInt isMax sat : Bool) (a b : Nat) : Nat × Nst :=
  if isInt then
    (if isMax then (if codeInt 32 a < codeInt 32 b then b else a, 0) else ((a + b) % 2 ^ 32, 0))
  else if isMax then fminmax .fp32 true a b else addSat sat a b

/-- The value of an empty sum or maximum (R373). -/
def accEmpty (isInt isMax : Bool) : Nat :=
  if isMax then (if isInt then 0x80000000 else 0xFF800000) else 0

/-- A reduction of each row over n: kinds 0 and 1 (R373). -/
def State.reduceRows (s : State) (t : TileId) (T : BitVec 256) : Nat → Nat → State
  | 0, _ => s
  | left + 1, m =>
    let isInt := tAF T == 7
    let isMax := tRM T == 1
    let lpr := cdiv (tN T) 64
    let vals := (List.range (tN T)).map (fun n => some ((s.tile t).accAt (tACCL T) lpr m n))
    let (r, n) := treeReduce (accNode isInt isMax (tSAT T)) vals.length vals
    let v0 := r.getD (accEmpty isInt isMax)
    let v := if isInt then v0 else canonFp32 v0
    let rowBad := (List.range lpr).any (fun j => (s.tile t).accLineMarks (tACCL T + m * lpr + j) != 0)
    let pois := s.maskBit t (tMSKS T) m || rowBad || (!isInt && badFp32 v)
    let s1 := if pois then (s.setMaskBit t (tMSKD T) (tM T) m).tileFlags t nstPZ else s
    let s2 := s1.tmStore t (tDST T + 4 * m) (bytesOfNat 4 (if pois && tPM T == 0 then 0 else v))
    (s2.tileFlags t n).reduceRows t T left (m + 1)

/-- A reduction of each column over m: kinds 2 and 3, one result row (R373, R131). -/
def State.reduceCols (s : State) (t : TileId) (T : BitVec 256) : State :=
  let isInt := tAF T == 7
  let isMax := tRM T == 3
  let lpr := cdiv (tN T) 64
  let row (m : Nat) : Bool := s.maskBit t (tMSKS T) m
  let vals := (List.range (tN T)).map (fun n =>
    let col := (List.range (tM T)).map (fun m =>
      if row m && tPM T == 2 then none
      else some (if row m && tPM T == 0 then 0 else (s.tile t).accAt (tACCL T) lpr m n))
    let (r, fl) := treeReduce (accNode isInt isMax (tSAT T)) col.length col
    let v := r.getD (accEmpty isInt isMax)
    (if isInt then v else canonFp32 v, fl))
  let out (m : Nat) : Bool := row m && tPM T == 2
  let accBad := (List.range (tM T)).any (fun m =>
    !out m && (List.range lpr).any (fun j => (s.tile t).accLineMarks (tACCL T + m * lpr + j) != 0))
  let fed := accBad || (tPM T != 2 && (List.range (tM T)).any row)
  let pois := fed || (!isInt && vals.any (fun v => badFp32 v.1))
  let s1 := if pois then (s.setMaskBit t (tMSKD T) 1 0).tileFlags t nstPZ else s
  let written := vals.map (fun v => if pois && tPM T == 0 then 0 else v.1)
  (s1.tmStore t (tDST T) (packCodes 32 written)).tileFlags t (vals.foldl (fun n v => n ||| v.2) 0)

/-- A reduction of accumulators (R373); a marked mask word cannot be confined (R420), and a marked accumulator poisons
the result row that it feeds (R132). -/
def State.reduceAcc (s : State) (t : TileId) (T : BitVec 256) : TRes :=
  if s.anyMarked t (footTmpl T 0 (tN T)).rd then .dataError s
  else if tRM T < 2 then .ok (s.reduceRows t T (tM T) 0) else .ok (s.reduceCols t T)

/-- Zeroing of accumulator lines (R374). -/
def State.zeroAcc (s : State) (t : TileId) (T : BitVec 256) : State :=
  (List.range (tM T * cdiv (tN T) 64)).foldl (fun u j => u.accStore t (tACCL T + j) 0 64) s

/-! ### `tred` (R380) -/

/-- Rows of a `tred` from row `r` on. -/
def State.redRows (s : State) (t : TileId) (w : Vector Word 4) (src : Nat) : Nat → Nat → State
  | 0, _ => s
  | left + 1, r =>
    let isInt := bitsAt w[0] 63 1 == 1
    let sat := bitsAt w[0] 62 1 == 1
    let pm := bitsAt w[0] 60 2
    let ns := bitsAt w[0] 54 6 + 1
    let lpr := bitsAt w[0] 48 6 + 1
    let accl := bitsAt w[0] 37 11
    let sstr := bitsAt w[1] 32 32
    let smsk := bitsAt w[2] 32 32
    let smstr := bitsAt w[2] 0 32
    let dmsk := bitsAt w[3] 32 32
    let lines := (List.range lpr).map (fun j => r * lpr + j)
    let bad := (List.range ns).any (fun j => lines.any (fun l => s.tmMarked t (src + j * sstr + 256 * l) 256))
    let pois0 := s.maskBit t dmsk r || bad || (smsk != 0 && (List.range ns).any (fun j => s.maskBit t (smsk + j * smstr) r))
    let rows : List (Nat × List (Nat × Nst)) := lines.map (fun l =>
      (l, (List.range 64).map (fun x =>
        (List.range ns).foldl (fun (a : Nat × Nst) j =>
          let v := s.tmNat t (src + j * sstr + 256 * l + 4 * x) 4
          if isInt then ((a.1 + v) % 2 ^ 32, a.2) else let z := addSat sat a.1 v; (z.1, a.2 ||| z.2))
          (elemAt ((s.tile t).accLine (accl + l)) 32 x, 0))))
    let pois := pois0 || (!isInt && rows.any (fun q => q.2.any (fun v => badFp32 v.1)))
    let s1 := if pois then (s.setMaskBit t dmsk (bitsAt w[0] 25 12 / lpr) r).tileFlags t nstPZ else s
    let s2 := rows.foldl (fun u q =>
      u.accStore t (accl + q.1) (if pois && pm == 0 then 0 else BitVec.ofNat 2048 (ofElems 32 (q.2.map (fun v => v.1)))) 64) s1
    (s2.tileFlags t (rows.foldl (fun n q => q.2.foldl (fun n v => n ||| v.2) n) 0)).redRows t w src left (r + 1)

/-- A `tred` (R380); marked accumulators or mask words cannot be confined (R420). -/
def State.tred (s : State) (t : TileId) (w : Vector Word 4) (src : Nat) : TRes :=
  let nl := bitsAt w[0] 25 12
  let rows := nl / (bitsAt w[0] 48 6 + 1)
  let masks := (footRed w src).rd.drop (bitsAt w[0] 54 6 + 1)
  let accBad := (List.range nl).any (fun j => (s.tile t).accLineMarks (bitsAt w[0] 37 11 + j) != 0)
  if s.anyMarked t masks || accBad then .dataError s else .ok (s.redRows t w src rows 0)

/-! ### The matrix-array queue (R366) -/

/-- MACs per ck of an operand pair (R5, R368). -/
def macRate (a b : Nat) : Nat :=
  match tfmt a, tfmt b with
  | .fp .fp32, _ => 2048
  | .fp .fp16, _ => 16384
  | .fp .bf16, _ => 16384
  | .fp .e2m1, _ => 65536
  | .blk x, .blk y => if blkBits x = 4 ∧ blkBits y = 4 then 65536 else 32768
  | _, _ => 32768

/-- The ck that an operation takes from its start to its completion (R370, R372 to R374, R380). -/
def TKind.duration : TKind → Nat
  | .tmpl t g =>
    let n := (colsOf t g).2 - (colsOf t g).1
    let lines := tM t * cdiv n 64
    match tOPC t with
    | 1 => 24 + cdiv (tM t * n * (tfmt (tAF t)).padded (tK t)) (macRate (tAF t) (tBF t))
    | 2 => 8 + lines
    | 3 => 8 + lines
    | _ => 2 + lines
  | .red w _ => 8 + (bitsAt w[0] 54 6 + 1) * bitsAt w[0] 25 12

/-- The effect of an operation when it completes (R370 to R374, R380). -/
def State.runOp (s : State) (t : TileId) : TKind → TRes
  | .tmpl T g =>
    let c := colsOf T g
    match tOPC T with
    | 1 => s.matMul t T c.1 c.2
    | 2 => s.storeAcc t T c.1 c.2
    | 3 => s.reduceAcc t T
    | _ => .ok (s.zeroAcc t T)
  | .red w src => s.tred t w src

/-- A drain issued before an operation has still to read a line that the operation writes (R363, R378). -/
def Tile.drainBars (x : Tile) (o : TOp) : Bool :=
  x.drains.any (fun d => decide (d.seq < o.seq) && runsMeet (d.acc + d.got.length, d.nl - d.got.length) o.kind.foot.accWr)

/-- The next queued operation starts, when none runs (R366). -/
def State.startOp (s : State) (t : TileId) : State :=
  let x := s.tile t
  match x.queue with
  | [] => s
  | o :: rest =>
    if o.left.isSome then s
    else
      let s1 := s.setTile t { x with queue := { o with left := some (s.ck + o.kind.duration) } :: rest }
      s1.after o.kind.duration (.matrixOpComplete t)

/-- An operation joins the queue of a tile; where it starts at once, so do its operand reads (R69, R366). -/
def State.join (s : State) (t : TileId) (o : TOp) : State :=
  let x := s.tile t
  let s1 := (s.setTile t { x with queue := x.queue ++ [o] }).startOp t
  if x.queue.isEmpty then s1.operandReads t false else s1

/-- An operation that the tile issues enters its queue (R366). -/
def State.enqueue (s : State) (t : TileId) (k : TKind) : State :=
  let x := s.tile t
  (s.setTile t { x with seq := x.seq + 1 }).join t (k.op x.seq)

/-! ### Checks of an amended template (R259, R365 to R370) -/

/-- The accumulator type code of an operation, and the halfwords that it must leave zero (R367). -/
def unreadZero (t : BitVec 256) : Bool :=
  let z (k : Nat) : Bool := hw t k == 0
  let h1 := tDF t == 0 && tRM t == 0
  match tOPC t with
  | 1 => h1 && (tBIAS t || z 7) && ((tfmt (tAF t)).isBlk || z 8) && ((tfmt (tBF t)).isBlk || z 9) && z 13
  | 2 => tACC t == false && tBF t == 0 && z 4 && z 5 && (tBIAS t || z 6) && ((tfmt (tDF t)).isBlk || z 8) && z 9 && z 11 && z 12
  | 3 => tACC t == false && tBF t == 0 && tDF t == 0 && tBIAS t == false && z 4 && z 5 && z 6 && z 8 && z 9 && z 11 && z 12 && z 13
  | _ => bitsAt t 0 12 == 0 && z 1 && z 4 && z 5 && z 6 && z 7 && z 8 && z 9 && z 11 && z 12 && z 13 && z 14 && z 15

/-- A matrix multiply admits the operand pair (R368). -/
def pairOk (a b : Nat) : Bool :=
  match tfmt a, tfmt b with
  | .fp .fp32, .fp .fp32 => true
  | .fp .fp16, .fp .fp16 => true
  | .fp .bf16, .fp .bf16 => true
  | .fp .e4m3, .fp .e4m3 => true
  | .fp .e4m3, .fp .e5m2 => true
  | .fp .e5m2, .fp .e4m3 => true
  | .fp .e5m2, .fp .e5m2 => true
  | .fp .e2m1, .fp .e2m1 => true
  | .i8, .i8 => true
  | .blk x, .blk y => blkLen x == blkLen y
  | _, _ => false

/-- The field checks of an amended template (R259, R367 to R372). -/
def tmplOk (t : BitVec 256) : Bool :=
  let opc := tOPC t
  1 ≤ opc && opc ≤ 4 && bitsAt t 16 9 == 0 && tPM t != 3 && unreadZero t
  && tM t != 0 && tN t != 0
  && decide (tACCL t + tM t * cdiv (tN t) 64 ≤ 2048)
  && (opc == 4 || tMSKD t != 0)
  && (opc != 1 || (tK t != 0 && pairOk (tAF t) (tBF t) && !(tBIAS t && tACC t)
      && decide ((tfmt (tAF t)).rowBytes (tK t) ≤ tSTRA t) && decide ((tfmt (tBF t)).rowBytes (tK t) ≤ tSTRB t)))
  && (opc != 2 || ((tAF t == 0 || tAF t == 7) && (if tAF t = 7 then tDF t == 0 || tDF t == 7 else tDF t != 7)
      && (!(tfmt (tDF t)).isBlk || tRM t == 0)))
  && (opc != 3 || (tAF t == 0 || tAF t == 7))

/-- The tile-memory ranges of an amended template lie in the tile's memory, and none that it writes touches the tile
code region (R365, R264). -/
def State.footFault (s : State) (t : TileId) (f : Foot) : Option FaultInfo :=
  let size := s.tileSize t.val
  let out (r : Nat × Nat) : Bool := r.2 != 0 && decide (size < r.1 + r.2)
  match (f.rd ++ f.wr).find? out with
  | some r => some (tfault 0x0B 7 0 (if f.wr.any out then .write else .read) r.1)
  | none =>
    match f.wr.find? (fun r => r.2 != 0 && decide (r.1 < (s.tile t).tclen)) with
    | some r => some { cause := 0x07, kind := 2, faddr := r.1 }
    | none => none

/-- The faults of an amended template at its `tx` or `tgang` (R365, R366). -/
def State.tmplFault (s : State) (t : TileId) (T : BitVec 256) : Option FaultInfo :=
  if !tmplOk T then some { cause := 0x01 } else s.footFault t (footTmpl T 0 (tN T))

/-- The template with halfword `sel` replaced; sel 0 replaces nothing (R259). -/
def amend (t : BitVec 256) (sel val : Nat) : BitVec 256 :=
  if sel = 0 then t
  else BitVec.ofNat 256 (t.toNat - hw t sel * 2 ^ (16 * sel) + val % 2 ^ 16 * 2 ^ (16 * sel))

end Sys2Proof.Machine
end

