-- ==== Sys2Proof/Machine/Operands.lean ====
section
/-!
DEFINITION. Operand forms: guards (spec/07_isa_encoding.md R247, R248), the addresses of memory operands (R306), and the
data accesses of cores and tiles that every memory instruction shares (spec/09_memory_instructions.md R302 to R308;
spec/05_consistency.md R175 to R177, R185).
-/
namespace Sys2Proof.Machine

/-! ### Guards (R248) -/

/-- A scalar guard lets its instruction execute. A guard for a stage that the loop does not have executes where a `kwr` has set its
bit of `stg` (R278, R284; log 130). -/
def Hart.guardOn (h : Hart) : Guard → Bool
  | .pred k => (h.rp k).getLsbD 0
  | .stage n => h.stg.getLsbD n.toNat

/-- A guarded scalar instruction: suppressed, or its effect. -/
def guarded (g : Guard) (s : State) (k : Host.Outcome State Fault Refusal) : Host.Outcome State Fault Refusal :=
  if (s.hart s.cur).guardOn g then k else suppressed s s.cur

/-! ### Accesses of a core -/

/-- The slot runs a speculative ordered task (R175). -/
def Slot.speculative (x : Slot) : Bool := x.task.isSome && x.spec == .speculative

/-- An access that a slot's request has in flight keeps its translation until it is served (R36). -/
def State.inFlightDest (s : State) (i : SlotId) (va : Nat) : Option Dest :=
  let asid := ctxASID (s.asctxAt (s.ctxOf (s.core (coreOf i)).lid))
  match s.inFlight (.agent (.slot i)) asid va with
  | some q =>
    match q.page with
    | some p => some ⟨.slice, q.pa / 2 ^ p.bits * 2 ^ p.bits + va % 2 ^ p.bits, some p, s.sealedAt asid va⟩
    | none => none
  | none => none

/-- An access of a core aimed at its place, or a wait for its translation, an invalidation, the cluster map, or the
commit before a device access (R302, R303). An instruction that an invalidation holds back has no access in flight: it issues
anew (R36, R312). -/
def State.aimed (s : State) (i : SlotId) (va n : Nat) (kind : Kind) : Res Dest :=
  match s.aim (coreOf i) va n kind with
  | .fault f => .fault f s
  | .walk =>
    (match s.inFlightDest i va with
      | some d => .ok d s
      | none => .wait (.walk va) (s.after dieLookupTime (.pageWalk (.slot i) va kind.num 0)))
  | .blocked id =>
    (match s.inFlightDest i va with
      | some d => .ok d s
      | none => .wait (.inval id va kind.num) (s.dropReqs (fun q => q.who == Requester.agent (.slot i))))
  | .change => s.refuse (.slot i) va va none .again (some 255) false
  | .ok d => if d.place == .device && (s.slot i).speculative then .wait .commit s else .ok d s

/-- The alignment check of an access (R302). -/
def misaligned (va n : Nat) (kind : Kind) : Option FaultInfo :=
  if va % n = 0 then none else some { cause := 0x05, kind := kind.num, faddr := va }

/-- Every byte of a range comes from the task's own buffered stores (R176). -/
def covered (buf : List BufOp) (pa n : Nat) : Bool :=
  (List.range n).all (fun k => buf.any (fun op =>
    match op with
    | .store a bs _ => decide (a ≤ pa + k) && ((bs.getD (pa + k - a) none).isSome)
    | .atom .. => false))

/-- The access names the replica region of the core's own palette, which the replication engine fills: which line of a
sealed range stands where is not stated, so what it reads is a free value (R16, R159, log 31). -/
def State.inReplica (s : State) (d : Dest) : Bool :=
  match d.place with
  | .palette c true => regionOf (s.core c).part (d.pa % 0x40000) == .rep
  | _ => false

/-- A read of a speculative task recorded in its signature (R176): not a block served whole from its own buffer, nor
the replica region, nor a sealed range. -/
def State.recordRead (s : State) (i : SlotId) (d : Dest) (n : Nat) : State :=
  let x := s.slot i
  if !x.speculative || d.sld || s.inReplica d then s
  else
    let blocks := (blocksOf d.pa n).filter (fun b =>
      let lo := max d.pa (b * 64)
      let hi := min (d.pa + n) (b * 64 + 64)
      !covered x.buf lo (hi - lo))
    s.setSlot i (blocks.foldl Slot.record x)

/-- The byte at an address of a device register that the spec describes: ASCTX n of 8 bytes, CLMAP n of 4 (R20, R46). -/
def State.deviceByte (s : State) (pa : Nat) : Option Byte :=
  if 0x300000000000 ≤ pa ∧ pa < 0x300000000800 then
    some (BitVec.ofNat 8 (bitsAt (s.asctxAt ((pa - 0x300000000000) / 8)) (8 * (pa % 8)) 8))
  else if 0x300000010000 ≤ pa ∧ pa < 0x300000010200 then
    some (BitVec.ofNat 8 (bitsAt (s.clmapAt ((pa - 0x300000010000) / 4)) (8 * (pa % 4)) 8))
  else none

/-- What `n` bytes of device registers that the spec describes read. That each byte comes from the register at its address,
where an access takes in several, is the model's reading (log 102). -/
def State.deviceRead (s : State) (pa n : Nat) : Option (List Byte) :=
  (List.range n).foldr (fun k (r : Option (List Byte)) =>
    match s.deviceByte (pa + k), r with
    | some b, some l => some (b :: l)
    | _, _ => none) (some [])

/-- An access of tile memory meets a bank that a source of rank 1 to 6 uses in this ck (R69, R70). -/
def State.portBusy (s : State) (d : Dest) (n : Nat) : Bool :=
  match d.place with
  | .tileMem t => (s.tile t).banks.any (fun b => (linesOf (d.pa - tileBase t) n).any (fun l => bankOf (256 * l) == b))
  | _ => false

/-- The banks of tile memory that a window access takes in this ck (R65, R70). -/
def State.takePort (s : State) (d : Dest) (n : Nat) : State :=
  match d.place with
  | .tileMem t => s.useBanks t (d.pa - tileBase t) n
  | _ => s

/-- A new request of a slot outside the slices. -/
def newReq (i : SlotId) (d : Dest) (va : Nat) (op : ReqOp) : Req :=
  { who := .agent (.slot i), pa := d.pa, va := va, op := op, count := 0, reserved := false, claimed := false, kept := false,
    page := d.page, turn := 0 }

/-- Such an access is held at the tile's window port, which has room for 8; a ninth is refused with H = 0 (R70). -/
def State.holdAtPort {α : Type} (s : State) (i : SlotId) (d : Dest) (va : Nat) (op : ReqOp) : Res α :=
  match d.place with
  | .tileMem t =>
    let x := s.tile t
    if x.port.length < 8 then
      let s1 := { s with reqs := s.reqs.put s.nextReq (newReq i d va op), nextReq := s.nextReq + 1 }
      .wait (.request s.nextReq) (s1.setTile t { x with port := x.port ++ [s.nextReq] })
    else s.refuse (.slot i) d.pa va d.page op (some 0) false
  | _ => s.refuse (.slot i) d.pa va d.page op (some 0) false

/-- A slot's access reaches its place: it is accepted, its banks are taken and its request is served; or it is refused, held
at a window port, or loses a bank (R62, R70, R77, R79). -/
def State.reach (s : State) (i : SlotId) (d : Dest) (va n : Nat) (writes : Bool) (op : ReqOp) : Res Unit :=
  match s.answer (.agent (.slot i)) d n writes with
  | .refuse h resv => (s.snoopHost d.pa n writes).refuse (.slot i) d.pa va d.page op h resv
  | .serve =>
    if s.portBusy d n then s.holdAtPort i d va op
    else
      let r := s.takeBanks (.agent (.slot i)) d.pa n
      if r.1 then .ok () (r.2.closeReq (.agent (.slot i)) d.pa) else .wait .bank r.2

/-! ### The replica region (R159, R160) -/

/-- The sets of a core's replica region: none without seal replication. -/
def repSets (part : Word) : Nat := if bitsAt part 62 1 = 1 then bitsAt part 15 6 * 16 else 0

/-- The sealed lines that a load of `n` bytes names, as its ASID and virtual address / 64; none where the load bypasses
replicas. -/
def State.repLines (s : State) (d : Dest) (va n : Nat) : List (Nat × Nat) :=
  match d.page with
  | some p =>
    if d.sld && s.seals.any (fun x => x.asid == p.asid && decide (x.base ≤ va) && decide (va + n ≤ x.base + x.len) && !x.unsealing)
    then (blocksOf va n).map (fun l => (p.asid.toNat, l)) else []
  | none => []

/-- A replica holds a line. -/
def Replica.holds (x : Replica) (l : Nat × Nat) : Bool := x.asid == l.1 && x.line == l.2

/-- The lines of a replica region after a use of a line: it is the last used of its set, which keeps four. -/
def useRep (sets : Nat) (x : Replica) (l : List Replica) : List Replica :=
  let set (y : Replica) : Nat := Config.replicaSet y.asid y.line % sets
  let others := l.filter (fun y => !y.holds (x.asid, x.line))
  let mine := others.filter (fun y => set y == set x)
  x :: others.filter (fun y => set y != set x || (mine.take 3).contains y)

/-- The bytes of `n` from a virtual address that replicas hold, if they hold every line of them: as they were placed, whatever
has become of the mapping since (R41). -/
def State.replicaData (s : State) (c : CoreId) (d : Dest) (va n : Nat) : Option (List Byte) :=
  match s.repLines d va n with
  | [] => none
  | ls =>
    let found := ls.filterMap (fun l => (s.core c).reps.find? (fun x => x.holds l))
    if found.length = ls.length then some (((found.flatMap Replica.data).drop (va % 64)).take n) else none

/-- The palette bank where a line's replica stands (R62). -/
def State.replicaBank (s : State) (c : CoreId) (l : Nat × Nat) : Nat := 16 * s.physCore c + Config.replicaBank l.1 l.2 % 16

/-- The replication engine writes a line into the core's region, at a bank of its palette (R62), or a hit makes it the last
used. -/
def State.useReplica (s : State) (c : CoreId) (x : Replica) : State :=
  let y := s.core c
  let sets := repSets y.part
  if sets = 0 then s
  else if y.reps.any (fun z => z.holds (x.asid, x.line)) then
    s.setCore c { y with reps := (y.reps.find? (fun z => z.holds (x.asid, x.line))).elim y.reps (fun z => useRep sets z y.reps) }
  else
    let b := s.replicaBank c (x.asid, x.line)
    { s with banks := if s.banks.any (fun z => z.1 == b) then s.banks else (b, .engine c) :: s.banks }.setCore c
      { y with reps := useRep sets x y.reps }

/-- A load from a sealed range has found its lines in the core's replica region, or L2 has served it and the engine writes
them there (R159). -/
def State.replicaUse (s : State) (c : CoreId) (d : Dest) (va n : Nat) : State :=
  (s.repLines d va n).foldl (fun u l =>
    let pa := d.pa / 64 * 64 + 64 * l.2 - va / 64 * 64
    u.useReplica c ⟨l.1, l.2, u.read pa 64⟩) s

/-- What a read of `n` bytes at a place comes to: its bytes, a refusal, a data error among the bytes that it wants, or an
undescribed device. -/
def State.readWanted (s : State) (i : SlotId) (d : Dest) (va n : Nat) (op : ReqOp) (want : List (Nat × Nat)) : Res (List Byte) :=
  match d.place with
  | .device =>
    match s.deviceRead d.pa n with
    | some v => .ok v s
    | none => .stop (.deviceRegister d.pa)
  | _ =>
    match s.replicaData (coreOf i) d va n with
    | some bytes =>
      let r := s.takeBankList (.agent (.slot i)) ((s.repLines d va n).map (s.replicaBank (coreOf i)))
      if r.1 then .ok bytes (r.2.replicaUse (coreOf i) d va n) else .wait .bank r.2
    | none =>
      (s.reach i d va n false op).bind fun _ s =>
      let x := s.slot i
      if s.inReplica d then let r := s.draw; .ok (bytesOfNat n (Config.replica r.2)) r.1
      else
        let buf := if x.speculative then x.buf else []
        match want.find? (fun w => s.marked (d.pa + w.1) w.2 && !covered buf (d.pa + w.1) w.2) with
        | some w => .fault { cause := 0x13, kind := 1, faddr := va + w.1 } s
        | none =>
          let bytes := s.read d.pa n
          .ok (overlay buf d.pa bytes)
            (want.foldl (fun u w => u.recordRead i { d with pa := d.pa + w.1 } w.2) (s.replicaUse (coreOf i) d va n))

/-- The same for a read that wants all of its bytes. -/
def State.readAt (s : State) (i : SlotId) (d : Dest) (va n : Nat) (op : ReqOp) : Res (List Byte) :=
  s.readWanted i d va n op [(0, n)]

/-- The entries of a commit-buffer share in use: one for each 32-byte block stored to, and one for each deferred atomic
(R58, R175). -/
def bufEntries (buf : List BufOp) : Nat :=
  let blocks := buf.foldl (fun (l : List Nat) op =>
    match op with
    | .store a bs _ => (List.range bs.length).foldl (fun m k => if (bs.getD k none).isSome then insertNat ((a + k) / 32) m else m) l
    | .atom .. => l) []
  blocks.length + (buf.filter (fun op => match op with | .atom .. => true | _ => false)).length

/-- A buffered effect of a speculative task: it takes its entries, or overflows and waits for the commit (R185). -/
def State.bufferOp (s : State) (i : SlotId) (op : BufOp) : Res Unit :=
  let x := s.slot i
  let buf := x.buf ++ [op]
  if bitsAt (s.core (coreOf i)).part 10 5 * 16 < bufEntries buf then .wait .commit s else .ok () (s.setSlot i { x with buf := buf })

/-- A write of bytes at a place by a slot: buffered for a speculative task, else performed or refused (R175, R308). A
device register that the spec describes only firmware and the command processors write (R20, R46): the write is
ignored. -/
def State.writeAt (s : State) (i : SlotId) (d : Dest) (va : Nat) (bytes : List (Option Byte)) (op : ReqOp) : Res Unit :=
  match d.place with
  | .device =>
    if (s.deviceRead d.pa bytes.length).isSome then .ok () s else .stop (.deviceRegister d.pa)
  | _ =>
    if (s.slot i).speculative then s.bufferOp i (.store d.pa bytes d.page)
    else (s.reach i d va bytes.length true op).bind fun _ s => .ok () (s.placeWrite d.pa bytes (some i))

/-- The access leaves its core for another core's palette or for a tile (R62, R64). -/
def Dest.away (d : Dest) : Bool :=
  match d.place with
  | .palette _ own => !own
  | .tileMem _ => true
  | _ => false

/-- Such an access travels to its place and completes by its response (R64, R493). -/
def State.sendAway {α : Type} (s : State) (i : SlotId) (d : Dest) (va : Nat) (op : ReqOp) : Res α :=
  if s.rerouting then s.refuse (.slot i) d.pa va d.page op (some 255) false
  else
    let me := s.coreRouter (coreOf i)
    let s1 := { s with reqs := s.reqs.put s.nextReq (newReq i d va op), nextReq := s.nextReq + 1 }
    .wait (.request s.nextReq) (match d.place with
      | .palette c _ => s1.send 0 me (s.coreRouter c) 0 (.remotePaletteAccess s.nextReq)
      | .tileMem t => s1.send 0 me (tileRouter t.val) 4 (.windowPortServe s.nextReq)
      | _ => s1)

/-- A scalar load of a core (R302, R306, R308): its extended value. -/
def State.coreLoad (s : State) (i : SlotId) (rd : Reg) (va n : Nat) (signed : Bool) : Res Word :=
  match misaligned va n .read with
  | some f => .fault f s
  | none =>
    (s.aimed i va n .read).bind fun d s =>
      let op : ReqOp := if (s.slot i).speculative && !d.away then .again else .load rd n signed
      if d.away then s.sendAway i d va op
      else (s.readAt i d va n op).bind fun bytes s =>
        .ok (if signed then sext64 (8 * n) (natOfBytes bytes) else BitVec.ofNat 64 (natOfBytes bytes)) s

/-- A scalar store of a core (R302, R306, R308). -/
def State.coreStore (s : State) (i : SlotId) (va : Nat) (bytes : List Byte) : Res Unit :=
  match misaligned va bytes.length .write with
  | some f => .fault f s
  | none =>
    (s.aimed i va bytes.length .write).bind fun d s =>
      let op : ReqOp := if (s.slot i).speculative then .again else .store bytes
      if d.away && !(s.slot i).speculative then s.sendAway i d va op
      else s.writeAt i d va (bytes.map some) op

/-! ### Accesses of a tile (R18, R306, R307) -/

/-- A scalar load of a tile. -/
def State.tileLoad (s : State) (t : TileId) (va n : Nat) (signed : Bool) : Res Word :=
  match misaligned va n .read with
  | some f => .fault f s
  | none =>
    (s.tileAim t va n .read).bind fun off s =>
      if s.tmMarked t off n then .fault { cause := 0x13, kind := 1, faddr := va } s
      else
        let v := s.tmNat t off n
        .ok (if signed then sext64 (8 * n) v else BitVec.ofNat 64 v) s

/-- A scalar store of a tile. -/
def State.tileStore (s : State) (t : TileId) (va : Nat) (bytes : List Byte) : Res Unit :=
  match misaligned va bytes.length .write with
  | some f => .fault f s
  | none => (s.tileAim t va bytes.length .write).bind fun off s => .ok () (s.tmStore t off bytes)

/-- A scalar load of either profile. -/
def State.load (s : State) (ag : Agent) (rd : Reg) (va n : Nat) (signed : Bool) : Res Word :=
  match ag with
  | .slot i => s.coreLoad i rd va n signed
  | .tile t => s.tileLoad t va n signed

/-- A scalar store of either profile. -/
def State.storeVal (s : State) (ag : Agent) (va n : Nat) (x : Word) : Res Unit :=
  match ag with
  | .slot i => s.coreStore i va (bytesOfNat n x.toNat)
  | .tile t => s.tileStore t va (bytesOfNat n x.toNat)

/-- The address of an MR operand: `ga` + size × OFF9 (R306). -/
def mrAddr (base : Word) (n : Nat) (off : BitVec 9) : Nat := (base + BitVec.ofNat 64 n * off.signExtend 64).toNat

end Sys2Proof.Machine
end

