-- ==== Sys2Proof/Machine/Flags.lean ====
section
/-!
DEFINITION. Flags and conditions: the condition codes of branches and `set.cc` (spec/07_isa_encoding.md R251), and the
reads and writes of `k.nst` (spec/03_number_formats.md R116).
-/
namespace Sys2Proof.Machine

/-- `a cc b` of R251: signed for the first six codes, unsigned for the others. -/
def ccHolds (cc : Cc) (a b : Word) : Bool :=
  match cc with
  | .eq => a == b
  | .ne => a != b
  | .lt => a.slt b
  | .ge => !a.slt b
  | .gt => b.slt a
  | .le => !b.slt a
  | .lo => a.ult b
  | .hs => !a.ult b
  | .hi => b.ult a
  | .ls => !b.ult a

/-- `k.nst` as `krd` reads it (R116). -/
def Hart.readNst (h : Hart) : Word := h.nst.setWidth 64

/-- `k.nst` after a `kwr` of a value: a bit written as 1 is cleared (R116, R295). -/
def Hart.writeNst (h : Hart) (x : Word) : Hart := { h with nst := h.nst &&& ~~~(x.setWidth 7) }

end Sys2Proof.Machine
end

