-- ==== Sys2Proof/Machine/Scalar.lean ====
section
/-!
DEFINITION. The integer, immediate and bit-field instructions (spec/08_scalar_control_loops.md R265 to R270). Each
writes one `g` register and continues at PC + 4; none sets a flag.
-/
namespace Sys2Proof.Machine

/-- A guarded instruction that writes `gd` (R266). -/
def scalarOp (g : Guard) (d : Reg) (x : Word) (s : State) : Host.Outcome State Fault Refusal :=
  guarded g s (.next ((s.wg s.cur d x).done s.cur))

/-- An unguarded instruction that writes `gd` (R269, R270). -/
def scalarImm (d : Reg) (x : Word) (s : State) : Host.Outcome State Fault Refusal := .next ((s.wg s.cur d x).done s.cur)

/-- A `g` register of the executing agent. -/
def State.g (s : State) (r : Reg) : Word := s.rg s.cur r

/-- `div.i` (R266, R267). -/
def divI (a b : Word) : Word := if b = 0 then BitVec.allOnes 64 else BitVec.ofInt 64 (a.toInt.tdiv b.toInt)
/-- `div.n` (R266, R267). -/
def divN (a b : Word) : Word := if b = 0 then BitVec.allOnes 64 else BitVec.ofNat 64 (a.toNat / b.toNat)
/-- `rem.i` (R266, R267). -/
def remI (a b : Word) : Word := if b = 0 then a else BitVec.ofInt 64 (a.toInt.tmod b.toInt)
/-- `rem.n` (R266, R267). -/
def remN (a b : Word) : Word := if b = 0 then a else BitVec.ofNat 64 (a.toNat % b.toNat)

/-- The zero bits of an `n`-bit number above its highest one bit. -/
def leadZeros : Nat → Nat → Nat
  | 0, _ => 0
  | n + 1, x => if x / 2 ^ n % 2 = 1 then 0 else 1 + leadZeros n x
/-- The zero bits of an `n`-bit number below its lowest one bit. -/
def trailZeros : Nat → Nat → Nat
  | 0, _ => 0
  | n + 1, x => if x % 2 = 1 then 0 else 1 + trailZeros n (x / 2)
/-- The one bits of an `n`-bit number. -/
def oneBits : Nat → Nat → Nat
  | 0, _ => 0
  | n + 1, x => x % 2 + oneBits n (x / 2)

/-- `add gd, ga, gb` (R266). -/
def execAdd (g : Guard) (d a b : Reg) (s : State) : Host.Outcome State Fault Refusal :=
  let a := s.g a
  let b := s.g b
  scalarOp g d (a + b) s

/-- `sub gd, ga, gb` (R266). -/
def execSub (g : Guard) (d a b : Reg) (s : State) : Host.Outcome State Fault Refusal :=
  let a := s.g a
  let b := s.g b
  scalarOp g d (a - b) s

/-- `mul gd, ga, gb` (R266). -/
def execMul (g : Guard) (d a b : Reg) (s : State) : Host.Outcome State Fault Refusal :=
  let a := s.g a
  let b := s.g b
  scalarOp g d (a * b) s

/-- `mulh.i gd, ga, gb` (R266). -/
def execMulhI (g : Guard) (d a b : Reg) (s : State) : Host.Outcome State Fault Refusal :=
  let a := s.g a
  let b := s.g b
  scalarOp g d (BitVec.ofInt 64 (a.toInt * b.toInt / 2 ^ 64)) s

/-- `mulh.n gd, ga, gb` (R266). -/
def execMulhN (g : Guard) (d a b : Reg) (s : State) : Host.Outcome State Fault Refusal :=
  let a := s.g a
  let b := s.g b
  scalarOp g d (BitVec.ofNat 64 (a.toNat * b.toNat / 2 ^ 64)) s

/-- `div.i gd, ga, gb` (R266). -/
def execDivI (g : Guard) (d a b : Reg) (s : State) : Host.Outcome State Fault Refusal :=
  let a := s.g a
  let b := s.g b
  scalarOp g d (divI a b) s

/-- `div.n gd, ga, gb` (R266). -/
def execDivN (g : Guard) (d a b : Reg) (s : State) : Host.Outcome State Fault Refusal :=
  let a := s.g a
  let b := s.g b
  scalarOp g d (divN a b) s

/-- `rem.i gd, ga, gb` (R266). -/
def execRemI (g : Guard) (d a b : Reg) (s : State) : Host.Outcome State Fault Refusal :=
  let a := s.g a
  let b := s.g b
  scalarOp g d (remI a b) s

/-- `rem.n gd, ga, gb` (R266). -/
def execRemN (g : Guard) (d a b : Reg) (s : State) : Host.Outcome State Fault Refusal :=
  let a := s.g a
  let b := s.g b
  scalarOp g d (remN a b) s

/-- `and gd, ga, gb` (R266). -/
def execAnd (g : Guard) (d a b : Reg) (s : State) : Host.Outcome State Fault Refusal :=
  let a := s.g a
  let b := s.g b
  scalarOp g d (a &&& b) s

/-- `or gd, ga, gb` (R266). -/
def execOr (g : Guard) (d a b : Reg) (s : State) : Host.Outcome State Fault Refusal :=
  let a := s.g a
  let b := s.g b
  scalarOp g d (a ||| b) s

/-- `xor gd, ga, gb` (R266). -/
def execXor (g : Guard) (d a b : Reg) (s : State) : Host.Outcome State Fault Refusal :=
  let a := s.g a
  let b := s.g b
  scalarOp g d (a ^^^ b) s

/-- `shl gd, ga, gb` (R266). -/
def execShl (g : Guard) (d a b : Reg) (s : State) : Host.Outcome State Fault Refusal :=
  let a := s.g a
  let b := s.g b
  scalarOp g d (a <<< (b.toNat % 64)) s

/-- `shr.i gd, ga, gb` (R266). -/
def execShrI (g : Guard) (d a b : Reg) (s : State) : Host.Outcome State Fault Refusal :=
  let a := s.g a
  let b := s.g b
  scalarOp g d (a.sshiftRight (b.toNat % 64)) s

/-- `shr.n gd, ga, gb` (R266). -/
def execShrN (g : Guard) (d a b : Reg) (s : State) : Host.Outcome State Fault Refusal :=
  let a := s.g a
  let b := s.g b
  scalarOp g d (a >>> (b.toNat % 64)) s

/-- `rot gd, ga, gb` (R266). -/
def execRot (g : Guard) (d a b : Reg) (s : State) : Host.Outcome State Fault Refusal :=
  let a := s.g a
  let b := s.g b
  scalarOp g d (a.rotateRight (b.toNat % 64)) s

/-- `min.i gd, ga, gb` (R266). -/
def execMinI (g : Guard) (d a b : Reg) (s : State) : Host.Outcome State Fault Refusal :=
  let a := s.g a
  let b := s.g b
  scalarOp g d (if b.slt a then b else a) s

/-- `max.i gd, ga, gb` (R266). -/
def execMaxI (g : Guard) (d a b : Reg) (s : State) : Host.Outcome State Fault Refusal :=
  let a := s.g a
  let b := s.g b
  scalarOp g d (if a.slt b then b else a) s

/-- `min.n gd, ga, gb` (R266). -/
def execMinN (g : Guard) (d a b : Reg) (s : State) : Host.Outcome State Fault Refusal :=
  let a := s.g a
  let b := s.g b
  scalarOp g d (if b.ult a then b else a) s

/-- `max.n gd, ga, gb` (R266). -/
def execMaxN (g : Guard) (d a b : Reg) (s : State) : Host.Outcome State Fault Refusal :=
  let a := s.g a
  let b := s.g b
  scalarOp g d (if a.ult b then b else a) s

/-- `clz gd, ga` (R266). -/
def execClz (g : Guard) (d a : Reg) (s : State) : Host.Outcome State Fault Refusal :=
  let a := s.g a
  scalarOp g d (BitVec.ofNat 64 (leadZeros 64 a.toNat)) s

/-- `ctz gd, ga` (R266). -/
def execCtz (g : Guard) (d a : Reg) (s : State) : Host.Outcome State Fault Refusal :=
  let a := s.g a
  scalarOp g d (BitVec.ofNat 64 (trailZeros 64 a.toNat)) s

/-- `popc gd, ga` (R266). -/
def execPopc (g : Guard) (d a : Reg) (s : State) : Host.Outcome State Fault Refusal :=
  let a := s.g a
  scalarOp g d (BitVec.ofNat 64 (oneBits 64 a.toNat)) s

/-- `madd gd, ga, gb` (R266): reads `gd` as a source. -/
def execMadd (g : Guard) (d a b : Reg) (s : State) : Host.Outcome State Fault Refusal :=
  scalarOp g d (s.g d + s.g a * s.g b) s

/-- `set.cc gd, ga, gb` (R266). -/
def execSetCc (g : Guard) (cc : Cc) (d a b : Reg) (s : State) : Host.Outcome State Fault Refusal :=
  scalarOp g d (if ccHolds cc (s.g a) (s.g b) then 1 else 0) s

/-- `sel gd, ga, gb, pk` (R266). -/
def execSel (g : Guard) (d a b : Reg) (k : PReg) (s : State) : Host.Outcome State Fault Refusal :=
  scalarOp g d (if ((s.hart s.cur).rp k).getLsbD 0 then s.g a else s.g b) s

/-! ### Immediates (R269) -/

/-- `addi gd, ga, imm` (R269). -/
def execAddi (d a : Reg) (imm : BitVec 16) (s : State) : Host.Outcome State Fault Refusal :=
  scalarImm d (s.g a + imm.signExtend 64) s

/-- `andi gd, ga, imm` (R269). -/
def execAndi (d a : Reg) (imm : BitVec 16) (s : State) : Host.Outcome State Fault Refusal :=
  scalarImm d (s.g a &&& imm.setWidth 64) s

/-- `ori gd, ga, imm` (R269). -/
def execOri (d a : Reg) (imm : BitVec 16) (s : State) : Host.Outcome State Fault Refusal :=
  scalarImm d (s.g a ||| imm.setWidth 64) s

/-- `xori gd, ga, imm` (R269). -/
def execXori (d a : Reg) (imm : BitVec 16) (s : State) : Host.Outcome State Fault Refusal :=
  scalarImm d (s.g a ^^^ imm.setWidth 64) s

/-- `li gd, imm` (R269). -/
def execLi (d : Reg) (imm : BitVec 21) (s : State) : Host.Outcome State Fault Refusal :=
  scalarImm d (imm.signExtend 64) s

/-- A field of `n` bits at position `p` replaced by the low bits of a value. -/
def insertField (x : Word) (p n : Nat) (y : Word) : Word :=
  let mask : Word := BitVec.ofNat 64 ((2 ^ n - 1) * 2 ^ p)
  (x &&& ~~~mask) ||| ((y <<< p) &&& mask)

/-- `lih gd, imm, h` (R269): halfword h of `gd` replaced. -/
def execLih (d : Reg) (h : BitVec 2) (imm : BitVec 16) (s : State) : Host.Outcome State Fault Refusal :=
  scalarImm d (insertField (s.g d) (16 * h.toNat) 16 (imm.setWidth 64)) s

/-- SPAN: 2^18 on a core, 2^23 on a tile (R269). -/
def spanOf (ag : Agent) : Nat := if isTile ag then 2 ^ 23 else 2 ^ 18

/-- A relative target: (PC + 4 × offset) mod SPAN (R269, R271). -/
def relTarget (ag : Agent) (pc : BitVec 23) (off : Int) : BitVec 23 :=
  BitVec.ofInt 23 (((pc.toNat : Int) + 4 * off) % (spanOf ag : Int))

/-- `lia gd, label` (R269): the self address of the label. -/
def execLia (d : Reg) (imm : BitVec 21) (s : State) : Host.Outcome State Fault Refusal :=
  scalarImm d (selfAddr (relTarget s.cur (s.hart s.cur).pc imm.toInt).toNat) s

/-! ### Bit fields and immediate shifts (R270) -/

/-- `bfx gd, ga, pos, len` (R270). -/
def execBfx (d a : Reg) (pos len1 : BitVec 6) (s : State) : Host.Outcome State Fault Refusal :=
  scalarImm d (BitVec.ofNat 64 (bitsAt (s.g a) pos.toNat (len1.toNat + 1))) s

/-- `bfx.i gd, ga, pos, len` (R270). -/
def execBfxI (d a : Reg) (pos len1 : BitVec 6) (s : State) : Host.Outcome State Fault Refusal :=
  scalarImm d (sext64 (len1.toNat + 1) (bitsAt (s.g a) pos.toNat (len1.toNat + 1))) s

/-- `bfi gd, ga, pos, len` (R270): the other bits of `gd` are kept. -/
def execBfi (d a : Reg) (pos len1 : BitVec 6) (s : State) : Host.Outcome State Fault Refusal :=
  scalarImm d (insertField (s.g d) pos.toNat (len1.toNat + 1) (s.g a)) s

/-- `shli gd, ga, n` (R270). -/
def execShli (d a : Reg) (n : BitVec 6) (s : State) : Host.Outcome State Fault Refusal :=
  scalarImm d (s.g a <<< n.toNat) s

/-- `shri.i gd, ga, n` (R270). -/
def execShriI (d a : Reg) (n : BitVec 6) (s : State) : Host.Outcome State Fault Refusal :=
  scalarImm d ((s.g a).sshiftRight n.toNat) s

/-- `shri.n gd, ga, n` (R270). -/
def execShriN (d a : Reg) (n : BitVec 6) (s : State) : Host.Outcome State Fault Refusal :=
  scalarImm d (s.g a >>> n.toNat) s

end Sys2Proof.Machine
end

