-- ==== Sys2Proof/Machine/Control.lean ====
section
/-!
DEFINITION. Transfers, task end, yield and traps (spec/08_scalar_control_loops.md R271 to R276).
-/
namespace Sys2Proof.Machine

/-! ### Transfers (R271, R273, R288) -/

/-- A taken transfer: the levels of this depth whose bodies it leaves are deactivated (R288). -/
def Hart.transfer (h : Hart) (target : BitVec 23) : Hart := { (h.leave target 4) with pc := target }

/-- The executing agent continues elsewhere with these registers, after a ck in which nothing issues (R273). -/
def State.jump (s : State) (h : Hart) : State := (s.setHart s.cur h).moved s.cur

/-- A transfer of the executing agent. -/
def State.transfer (s : State) (target : BitVec 23) : State := s.jump ((s.hart s.cur).transfer target)

/-- The link: the self address of the next instruction (R273). -/
def Hart.link (h : Hart) : Word := selfAddr (h.pc.toNat + 4)

/-- A call: the link in `g31`, CDEP raised, no level deactivated (R272, R273, R288). -/
def Hart.callTo (h : Hart) (target : BitVec 23) : Hart :=
  { (h.wg 31#5 h.link) with cdep := h.cdep + 1, pc := target }

/-- A return: every active level of this depth is deactivated, and CDEP lowered (R273, R288). -/
def Hart.returnTo (h : Hart) (target : BitVec 23) : Hart :=
  let off (h : Hart) (l : Nat) : Hart :=
    if (h.level l).act && (h.level l).lcd == h.cdep then h.deactivate l else h
  let h' := off (off (off (off h 3) 2) 1) 0
  { h' with cdep := h.cdep - 1, pc := target }

/-- A register target: bits 17:0 on a core, 22:0 on a tile (R271). -/
def regTarget (ag : Agent) (x : Word) : BitVec 23 := BitVec.ofNat 23 (x.toNat % spanOf ag)

/-- A transfer to a register target, or a misaligned-access fault (R271). -/
def toTarget (s : State) (x : Word) (k : BitVec 23 → State) : Host.Outcome State Fault Refusal :=
  if x.toNat % 4 = 0 then .next (k (regTarget s.cur x))
  else .next (s.raiseFault s.cur { cause := 0x05, faddr := x.toNat })

/-- `b label` (R273). -/
def execB (off : BitVec 26) (s : State) : Host.Outcome State Fault Refusal :=
  .next (s.transfer (relTarget s.cur (s.hart s.cur).pc off.toInt))

/-- `call label` (R273). -/
def execCall (off : BitVec 26) (s : State) : Host.Outcome State Fault Refusal :=
  let h := s.hart s.cur
  .next (s.jump (h.callTo (relTarget s.cur h.pc off.toInt)))

/-- A conditional branch (R273). -/
def branchIf (taken : Bool) (off : Int) (s : State) : Host.Outcome State Fault Refusal :=
  .next (if taken then s.transfer (relTarget s.cur (s.hart s.cur).pc off) else s.done s.cur)

/-- `bc.cc ga, label` (R273). -/
def execBcCc (cc : Cc) (a : Reg) (off : BitVec 17) (s : State) : Host.Outcome State Fault Refusal :=
  branchIf (ccHolds cc (s.g a) 0) off.toInt s

/-- `bcmp.cc ga, gb, label` (R273). -/
def execBcmpCc (cc : Cc) (a b : Reg) (off : BitVec 12) (s : State) : Host.Outcome State Fault Refusal :=
  branchIf (ccHolds cc (s.g a) (s.g b)) off.toInt s

/-- `callr ga` (R273): `ga` is read before `g31` is written. -/
def execCallr (a : Reg) (s : State) : Host.Outcome State Fault Refusal :=
  toTarget s (s.g a) (fun t => s.jump ((s.hart s.cur).callTo t))

/-- `ret` (R273). -/
def execRet (s : State) : Host.Outcome State Fault Refusal :=
  toTarget s (s.g 31#5) (fun t => s.jump ((s.hart s.cur).returnTo t))

/-- `jr ga` (R273). -/
def execJr (a : Reg) (s : State) : Host.Outcome State Fault Refusal :=
  toTarget s (s.g a) (fun t => s.transfer t)

/-! ### Task end (R217, R218, R274) -/

/-- The head of the deque may be preloaded when `tend` is decoded: whether it is is free (R218, log 18). -/
def State.mayPreload (s : State) (i : SlotId) : State :=
  let r := s.draw
  let c := s.core (coreOf i)
  match (s.slot i).preload, c.deque with
  | none, x :: rest =>
    if Config.preloads r.2 then
      (r.1.setCore (coreOf i) { c with deque := rest }).setSlot i { s.slot i with preload := some x }
    else r.1
  | _, _ => r.1

/-- The end of a task that retires; its slot takes its next task (R210, R274). -/
def State.retireTask (s : State) (i : SlotId) : State :=
  (s.setSlot i (s.slot i).retire).post (.taskStart i)

/-- The `tend` of an inline child: `ret`, ILD lowered, and the status in the create's result register (R217, R274,
R318). -/
def State.inlineReturn (s : State) (i : SlotId) : Host.Outcome State Fault Refusal :=
  toTarget s (s.rg (.slot i) 31#5) (fun t =>
    let x := s.slot i
    let h := x.h.returnTo t
    let h' := { h with ild := h.ild - 1 }
    match x.inl with
    | (d, k) :: rest => s.setSlot i { x with h := h'.wg d (BitVec.ofNat 64 k), inl := rest, gap := true }
    | [] => s.setSlot i { x with h := h', gap := true })

/-- `tend` (R274): it waits for the slot's updates; a speculative task then waits to commit, its levels inactive and its
allotment returned. -/
def execTend (s : State) : Host.Outcome State Fault Refusal :=
  match s.cur with
  | .tile t =>
    let x := s.tile t
    .next (s.setTile t { x with running := false, ended := true })
  | .slot i =>
    if (s.slot i).h.ild != 0 then s.inlineReturn i
    else if (s.slot i).out != 0 then .next (s.park s.cur .updates)
    else
      let s1 := s.mayPreload i
      let x := s1.slot i
      if x.speculative then
        .next (s1.setSlot i { x with st := .committing, wait := .commit, h := { (x.h.deactivate 0) with qa := 0 } })
      else .next (s1.retireTask i)

/-- `tyield` (R275; core profile only, R247): the slot waits for the other ready slots of its core, at most 4 ck. -/
def execTyield (s : State) : Host.Outcome State Fault Refusal :=
  match s.cur with
  | .tile _ => .next (s.raiseFault s.cur { cause := 0x02 })
  | .slot i =>
    let others := (List.range 4).filter (fun k => k != numOf i && (s.slot (slotOf (coreOf i) k)).st == .running)
    let s1 := s.done s.cur
    if others.isEmpty then .next s1
    else .next ((s1.setSlot i { s1.slot i with st := .waiting, wait := .yield others }).rearm 4 (.tyieldTimeout i))

/-- `TYIELD_TIMEOUT` (R275): 4 ck after `tyield` the slot is ready again. -/
def execTyieldTimeout (s : State) : Host.Outcome State Fault Refusal :=
  match s.event with
  | some (.tyieldTimeout i) =>
    match (s.slot i).wait with
    | .yield _ => .next (s.wake i)
    | _ => .next s
  | _ => .next s

/-! ### Traps (R276) -/

/-- A software trap: the instruction counts as completed, and its cause is raised with n (R276). -/
def trapWith (cause : Nat) (n : BitVec 10) (s : State) : Host.Outcome State Fault Refusal :=
  let s1 := s.done s.cur
  .next (s1.faultAt s.cur { cause := cause, num := n.toNat } (s1.hart s.cur).pc)

/-- `trap n` (R276). -/
def execTrap (n : BitVec 10) (s : State) : Host.Outcome State Fault Refusal := trapWith 0x17 n s
/-- `brk n` (R276). -/
def execBrk (n : BitVec 10) (s : State) : Host.Outcome State Fault Refusal := trapWith 0x18 n s
/-- `sysc n` (R276). -/
def execSysc (n : BitVec 10) (s : State) : Host.Outcome State Fault Refusal := trapWith 0x19 n s

end Sys2Proof.Machine
end

