-- ==== Sys2Proof/Machine/Loops.lean ====
section
/-!
DEFINITION. Hardware loops, the q allotment and the saving of loop state (spec/08_scalar_control_loops.md R277 to R291).
-/
namespace Sys2Proof.Machine

/-- All lanes of a profile (R279). -/
def laneOnes (ag : Agent) : Word := BitVec.ofNat 64 (2 ^ lanesOf ag - 1)

/-- The highest set bit of a stage mask; 0 for an empty mask (R279). -/
def highestStage (x : BitVec 8) : Nat := Nat.log2 x.toNat

/-- `LoopEntry` (R279): the registers after entry, or the cause of the fault. -/
def Hart.loopEntry (h : Hart) (ones : Word) (l : Nat) (rot : Bool) (n : Word) (len : Nat) : Except Nat Hart :=
  let e := h.pc + BitVec.ofNat 23 (4 + 4 * len)
  let levels := h.lv.toList
  if (h.level l).act || l != activeLevels h.lv then .error 0x04
  else if levels.any (fun x => x.act && x.lcd == h.cdep && decide (x.fin < e)) then .error 0x04
  else if rot && levels.any (fun x => x.act && x.rot) then .error 0x04
  else if rot && h.qa == 0 then .error 0x03
  else if n = 0 then .ok { h with pc := e }
  else
    let lam := if activeLevels h.lv = 0 then ones else h.lam
    let old := h.level l
    let x : Level := {
      cnt := n, lcd := h.cdep, act := true, rot := rot,
      sm1 := if rot then BitVec.ofNat 3 (highestStage h.stg) else old.sm1, beg := h.pc + 4, fin := e }
    .ok { (h.setLevel l x) with lam := lam, stg := if rot then 1 else h.stg, pc := h.pc + 4 }

/-- Registers of the executing agent, or a precise fault. -/
def hartOr (s : State) (r : Except Nat Hart) : Host.Outcome State Fault Refusal :=
  match r with
  | .ok h => .next (s.setHart s.cur h)
  | .error c => .next (s.raiseFault s.cur { cause := c })

/-- Registers of the executing agent after a loop-control instruction, which costs a ck where it moves control (R286), or a
precise fault. -/
def moveOr (s : State) (r : Except Nat Hart) : Host.Outcome State Fault Refusal :=
  match r with
  | .ok h => .next (if h.pc = (s.hart s.cur).pc + 4 then s.setHart s.cur h else s.jump h)
  | .error c => .next (s.raiseFault s.cur { cause := c })

/-- `loop lvl, cnt, end` (R279). -/
def execLoop (lvl : BitVec 2) (rot : Bool) (cnt : BitVec 11) (len : BitVec 12) (s : State) :
    Host.Outcome State Fault Refusal :=
  hartOr s ((s.hart s.cur).loopEntry (laneOnes s.cur) lvl.toNat rot (cnt.setWidth 64) len.toNat)

/-- `loopr lvl, ga, end` (R279): the count is read once. -/
def execLoopr (lvl : BitVec 2) (rot : Bool) (a : Reg) (len : BitVec 12) (s : State) :
    Host.Outcome State Fault Refusal :=
  hartOr s ((s.hart s.cur).loopEntry (laneOnes s.cur) lvl.toNat rot (s.g a) len.toNat)

/-- The named level is active at this depth (R286). -/
def Hart.levelHere (h : Hart) (l : Nat) : Bool := (h.level l).act && (h.level l).lcd == h.cdep

/-- `lbrk`: the level is left at its END (R286). -/
def Hart.breakOut (h : Hart) (l : Nat) : Hart := { (h.deactivate l) with pc := (h.level l).fin }

/-- `lbrk lvl` (R286). -/
def execLbrk (lvl : BitVec 2) (s : State) : Host.Outcome State Fault Refusal :=
  let h := s.hart s.cur
  moveOr s (if h.levelHere lvl.toNat then .ok (h.breakOut lvl.toNat) else .error 0x04)

/-- `lbrkl lvl, pk` (R286): clears lanes, and leaves the level when none remains; otherwise it continues at PC + 4, and
this replaces end processing (R280). -/
def execLbrkl (lvl : BitVec 2) (k : PReg) (s : State) : Host.Outcome State Fault Refusal :=
  let h := s.hart s.cur
  let h1 := { h with lam := h.lam &&& ~~~(h.rp k) }
  moveOr s (if !h.levelHere lvl.toNat then .error 0x04
    else if h1.lam &&& laneOnes s.cur = 0 then .ok (h1.breakOut lvl.toNat) else .ok { h1 with pc := h.pc + 4 })

/-- `lnext lvl` (R286). -/
def execLnext (lvl : BitVec 2) (s : State) : Host.Outcome State Fault Refusal :=
  let h := s.hart s.cur
  let l := lvl.toNat
  moveOr s (if h.levelHere l then .ok ((if l < 3 then h.deactivate (l + 1) else h).passEnd l) else .error 0x04)

/-! ### The q allotment (R289) -/

/-- QMAX (R289). -/
def qMax (ag : Agent) : Nat := if isTile ag then 256 else 128

/-- The physical registers of a core's pool (R289). -/
def poolSize (part : Word) : Nat := bitsAt part 6 4 * 64

/-- The allotments of the core's slots: base and number. -/
def State.allotments (s : State) (c : CoreId) : List (Nat × Nat) :=
  (List.range 4).map (fun k => let h := (s.slot (slotOf c k)).h; (h.abase.toNat, h.qa.toNat))

/-- The lowest base of a free run of `n` registers (R289). -/
def freeBase (size n : Nat) (runs : List (Nat × Nat)) : Option Nat :=
  let fits (b : Nat) : Bool :=
    decide (b + n ≤ size) && runs.all (fun r => r.2 == 0 || decide (b + n ≤ r.1) || decide (r.1 + r.2 ≤ b))
  let cands := (0 :: runs.map (fun r => r.1 + r.2)).filter fits
  match cands with
  | [] => none
  | b :: t => some (t.foldl min b)

/-- `gd` of `qallot` and `qfree`: STATUS and ABASE (R289). -/
def allotWord (status : Nat) (abase : BitVec 9) : Word := BitVec.ofNat 64 (status + abase.toNat * 2 ^ 16)

/-- A rotating level is active. -/
def Hart.rotating (h : Hart) : Bool := h.lv.toList.any (fun x => x.act && x.rot)

/-- `qallot gd, ga` (R289). -/
def execQallot (d a : Reg) (s : State) : Host.Outcome State Fault Refusal :=
  let h := s.hart s.cur
  let n := (s.g a).toNat
  let base := match s.cur with
    | .slot i => freeBase (poolSize (s.core (coreOf i)).part) n (s.allotments (coreOf i))
    | .tile _ => some 0
  let r : Nat × Hart :=
    if n = 0 ∨ qMax s.cur < n then (3, h)
    else if h.qa != 0 then (2, h)
    else match base with
      | none => (1, h)
      | some b => (0, { h with abase := BitVec.ofNat 9 b, qa := BitVec.ofNat 9 n, qrb := 0 })
  hartOr s (if h.rotating then .error 0x03
    else .ok ({ r.2 with latch := none }.wg d (allotWord r.1 r.2.abase)).advance)

/-- `qfree gd, ga` (R289). -/
def execQfree (d a : Reg) (s : State) : Host.Outcome State Fault Refusal :=
  let h := s.hart s.cur
  let n := (s.g a).toNat
  let r : Nat × Hart :=
    if h.qa.toNat < n then (3, h)
    else if n = 0 then (0, { h with qa := 0, qrb := 0, abase := 0 })
    else (0, { h with qa := BitVec.ofNat 9 n, qrb := BitVec.ofNat 8 (h.qrb.toNat % n) })
  hartOr s (if h.rotating then .error 0x03
    else .ok ({ r.2 with latch := none }.wg d (allotWord r.1 r.2.abase)).advance)

/-! ### Saving loop state (R290, R291) -/

/-- `lbeg` of a level as a word (R277). -/
def Level.begWord (x : Level) : Word :=
  BitVec.ofNat 64 (x.lcd.toNat * 2 ^ 48 + (if x.act then 2 ^ 47 else 0) + (if x.rot then 2 ^ 46 else 0)
    + x.sm1.toNat * 2 ^ 43 + x.beg.toNat)

/-- A level from its three words (R277). -/
def Level.ofWords (cnt beg fin : Word) : Level :=
  {
    cnt := cnt, lcd := BitVec.ofNat 16 (bitsAt beg 48 16), act := bitsAt beg 47 1 == 1, rot := bitsAt beg 46 1 == 1,
    sm1 := BitVec.ofNat 3 (bitsAt beg 43 3), beg := BitVec.ofNat 23 (bitsAt beg 0 23), fin := BitVec.ofNat 23 (bitsAt fin 0 23) }

/-- The sixteen words of the area of `lsave` (R290). -/
def Hart.saveWords (h : Hart) : List Word :=
  (List.range 4).map (fun l => (h.level l).cnt) ++ (List.range 4).map (fun l => (h.level l).begWord)
    ++ (List.range 4).map (fun l => (h.level l).fin.setWidth 64)
    ++ [BitVec.ofNat 64 (h.qrb.toNat + h.stg.toNat * 2 ^ 8 + h.qa.toNat * 2 ^ 16), h.lam, 0, 0]

/-- The registers after `lsave` (R291). -/
def Hart.afterSave (h : Hart) : Hart :=
  { h with lv := h.lv.map (fun x => { x with act := false }), stg := 0, lam := 0, latch := none }

/-- The registers that `lrest` restores from an area, or the cause of its fault (R291). -/
def Hart.restoreWords (h : Hart) (w : List Word) : Except Nat Hart :=
  let g (k : Nat) : Word := w.getD k 0
  let lvs := (List.range 4).map (fun l => Level.ofWords (g l) (g (4 + l)) (g (8 + l)))
  let k := (lvs.filter Level.act).length
  let reserved := (List.range 4).any (fun l => bitsAt (g (4 + l)) 23 20 != 0 || bitsAt (g (8 + l)) 23 41 != 0)
    || bitsAt (g 12) 25 39 != 0 || g 14 != 0 || g 15 != 0
  if reserved || (lvs.take k).any (fun x => !x.act) || decide (1 < (lvs.filter (fun x => x.act && x.rot)).length) then
    .error 0x04
  else if bitsAt (g 12) 16 9 != h.qa.toNat then .error 0x03
  else .ok { h with
    lv := #v[lvs.getD 0 Level.zero, lvs.getD 1 Level.zero, lvs.getD 2 Level.zero, lvs.getD 3 Level.zero],
    qrb := BitVec.ofNat 8 (bitsAt (g 12) 0 8), stg := BitVec.ofNat 8 (bitsAt (g 12) 8 8), lam := g 13, latch := none }

/-- The palette offset of `n` bytes in the scratch of the core's own palette (R290, R327, R331); none elsewhere. -/
def State.ownScratch (s : State) (c : CoreId) (va n : Nat) : Option Nat :=
  let off : Option Nat :=
    if inWindow va ∧ va < 2 ^ 55 then
      let o := va % 2 ^ 48
      if o < 0x40000 then some o
      else if 0x10000000 ≤ o ∧ o < 0x20000000 ∧ (o - 0x10000000) / 0x40000 = c.val then some (o % 0x40000)
      else none
    else none
  match off with
  | some o =>
    if partV (s.core c).part && decide (partSCRB (s.core c).part ≤ o) && decide (o + n ≤ 0x40000) then some o else none
  | none => none

/-- The fault of an address that is not in the scratch of the core's own palette (R10, R290). -/
def scratchFault (kind : Kind) (va : Nat) : FaultInfo :=
  if 2 ^ 55 ≤ va then tfault 0x0A 1 0 kind va else { cause := 0x06, kind := kind.num, faddr := va }

/-- The loop area of a core: aligned, and in its own scratch (R290). -/
def State.loopArea (s : State) (i : SlotId) (va : Nat) (kind : Kind) : Res Dest :=
  if va % 64 != 0 then .fault { cause := 0x05, kind := kind.num, faddr := va } s
  else match s.ownScratch (coreOf i) va 128 with
  | none => .fault (scratchFault kind va) s
  | some o => .ok ⟨.palette (coreOf i) true, s.palette (coreOf i) + o, none, false⟩ s

/-- `lsave [ga]` (R290, R291). -/
def execLsave (a : Reg) (s : State) : Host.Outcome State Fault Refusal :=
  let va := (s.g a).toNat
  let bytes := ((s.hart s.cur).saveWords.map (fun w => bytesOfNat 8 w.toNat)).flatten
  let r : Res Unit := match s.cur with
    | .slot i => (s.loopArea i va .write).bind fun d s => s.writeAt i d va (bytes.map some) .again
    | .tile t =>
      if va % 64 != 0 then .fault { cause := 0x05, kind := 2, faddr := va } s
      else (s.tileAim t va 128 .write).bind fun off s => .ok () (s.tmStore t off bytes)
  finishWith s s.cur r (fun _ t => t.setHart t.cur (t.hart t.cur).afterSave.advance)

/-- `lrest [ga]` (R290, R291). -/
def execLrest (a : Reg) (s : State) : Host.Outcome State Fault Refusal :=
  let va := (s.g a).toNat
  let r : Res (List Byte) := match s.cur with
    | .slot i => (s.loopArea i va .read).bind fun d s => s.readAt i d va 128 .again
    | .tile t =>
      if va % 64 != 0 then .fault { cause := 0x05, kind := 1, faddr := va } s
      else (s.tileAim t va 128 .read).bind fun off s =>
        if s.tmMarked t off 128 then .fault { cause := 0x13, kind := 1, faddr := va } s else .ok (s.tm t off 128) s
  finishWith s s.cur r (fun bytes t =>
    let w := (List.range 16).map (fun k => BitVec.ofNat 64 (natOfBytes ((bytes.drop (8 * k)).take 8)))
    match (t.hart t.cur).restoreWords w with
    | .ok h => t.setHart t.cur h.advance
    | .error c => t.raiseFault t.cur { cause := c })

end Sys2Proof.Machine
end

