-- ==== Sys2Proof/Machine/Memory.lean ====
section
/-!
DEFINITION. Loads, stores, ordered accesses, fences, prefetch, seal and unseal (spec/09_memory_instructions.md R306 to
R312; spec/04_copy_and_sync.md R157 to R160).
-/
namespace Sys2Proof.Machine

/-! ### Loads and stores (R306) -/

/-- A guarded load of `n` bytes (R306). -/
def loadOp (g : Guard) (d a : Reg) (off : BitVec 9) (n : Nat) (signed : Bool) (s : State) : Host.Outcome State Fault Refusal :=
  guarded g s (finishG s s.cur d (s.load s.cur d (mrAddr (s.g a) n off) n signed))

/-- A guarded store of `n` bytes (R306). -/
def storeOp (g : Guard) (d a : Reg) (off : BitVec 9) (n : Nat) (s : State) : Host.Outcome State Fault Refusal :=
  guarded g s (finish s s.cur (s.storeVal s.cur (mrAddr (s.g a) n off) n (s.g d)))

/-- `ld.i8 gd, [ga+off]` (R306). -/
def execLdI8 (g : Guard) (d a : Reg) (off : BitVec 9) (s : State) : Host.Outcome State Fault Refusal :=
  loadOp g d a off 1 true s

/-- `ld.n8 gd, [ga+off]` (R306). -/
def execLdN8 (g : Guard) (d a : Reg) (off : BitVec 9) (s : State) : Host.Outcome State Fault Refusal :=
  loadOp g d a off 1 false s

/-- `ld.i16 gd, [ga+off]` (R306). -/
def execLdI16 (g : Guard) (d a : Reg) (off : BitVec 9) (s : State) : Host.Outcome State Fault Refusal :=
  loadOp g d a off 2 true s

/-- `ld.n16 gd, [ga+off]` (R306). -/
def execLdN16 (g : Guard) (d a : Reg) (off : BitVec 9) (s : State) : Host.Outcome State Fault Refusal :=
  loadOp g d a off 2 false s

/-- `ld.i32 gd, [ga+off]` (R306). -/
def execLdI32 (g : Guard) (d a : Reg) (off : BitVec 9) (s : State) : Host.Outcome State Fault Refusal :=
  loadOp g d a off 4 true s

/-- `ld.n32 gd, [ga+off]` (R306). -/
def execLdN32 (g : Guard) (d a : Reg) (off : BitVec 9) (s : State) : Host.Outcome State Fault Refusal :=
  loadOp g d a off 4 false s

/-- `ld.d gd, [ga+off]` (R306). -/
def execLdD (g : Guard) (d a : Reg) (off : BitVec 9) (s : State) : Host.Outcome State Fault Refusal :=
  loadOp g d a off 8 false s

/-- `st.b [ga+off], gd` (R306). -/
def execStB (g : Guard) (d a : Reg) (off : BitVec 9) (s : State) : Host.Outcome State Fault Refusal :=
  storeOp g d a off 1 s

/-- `st.h [ga+off], gd` (R306). -/
def execStH (g : Guard) (d a : Reg) (off : BitVec 9) (s : State) : Host.Outcome State Fault Refusal :=
  storeOp g d a off 2 s

/-- `st.w [ga+off], gd` (R306). -/
def execStW (g : Guard) (d a : Reg) (off : BitVec 9) (s : State) : Host.Outcome State Fault Refusal :=
  storeOp g d a off 4 s

/-- `st.d [ga+off], gd` (R306). -/
def execStD (g : Guard) (d a : Reg) (off : BitVec 9) (s : State) : Host.Outcome State Fault Refusal :=
  storeOp g d a off 8 s

/-! ### Ordered accesses (R309) -/

/-- The executing slot; a core-profile instruction has no other agent (R247). -/
def onSlot (s : State) (k : SlotId → Host.Outcome State Fault Refusal) : Host.Outcome State Fault Refusal :=
  match s.cur with
  | .slot i => k i
  | .tile _ => .next (s.raiseFault s.cur { cause := 0x02 })

/-- The executing tile; a tile-profile instruction has no other agent (R247). -/
def onTile (s : State) (k : TileId → Host.Outcome State Fault Refusal) : Host.Outcome State Fault Refusal :=
  match s.cur with
  | .tile t => k t
  | .slot _ => .next (s.raiseFault s.cur { cause := 0x02 })

/-- `ld.acq.s gd, [ga]` (R309): a slot performs its accesses in program order, so every earlier access of the slot has
been performed, and no later one has (log 4). -/
def execLdAcq (_s : Scope) (d a : Reg) (s : State) : Host.Outcome State Fault Refusal :=
  onSlot s fun i => finishG s s.cur d (s.coreLoad i d (s.g a).toNat 8 false)

/-- What orders its slot's earlier accesses waits until every update that the slot has sent has been applied (R168, R169,
R309): the other accesses of a slot are performed in program order (log 4). -/
def settled (s : State) (i : SlotId) (k : Host.Outcome State Fault Refusal) : Host.Outcome State Fault Refusal :=
  if (s.slot i).out = 0 then k else .next (s.park (.slot i) .updates)

/-- `st.rel.s [ga], gb` (R309). -/
def execStRel (_s : Scope) (a b : Reg) (s : State) : Host.Outcome State Fault Refusal :=
  onSlot s fun i => settled s i (finish s s.cur (s.coreStore i (s.g a).toNat (bytesOfNat 8 (s.g b).toNat)))

/-- `fence.s` (R309): every earlier access of the slot has been performed (log 4). -/
def execFenceS (_s : Scope) (s : State) : Host.Outcome State Fault Refusal :=
  onSlot s fun i => settled s i (.next (s.done s.cur))

/-- The physical address that a prefetch names, when its page translates for a read (R29, R310), with the caches that its
translation fills. A walk that would set A makes it drop, as any prefetch may be (log 111). -/
def State.prefetchAddr (s : State) (i : SlotId) (va : Nat) : Option Nat × State :=
  let ctx := s.ctxOf (s.core (coreOf i)).lid
  let die := s.dieOf (coreOf i)
  let place (e : Word) (pa : Nat) : Option Nat := if pteMT e == 1 then none else some pa
  if inWindow va || decide (2 ^ 55 ≤ va) then (none, s)
  else match s.coreLookup (coreOf i) .read va with
  | .ok pa e _ => (place e pa, s)
  | .miss =>
    (match s.dieLookup die ctx .read va with
    | .ok pa e _ => (place e pa, ((s.dieEntry die ctx .read va).map (s.fillMicro (.slot i))).getD s)
    | .miss =>
      (match s.walkCtx ctx .read true va, s.walkTo ctx .read true va with
      | .leaf w _ _ _, .leaf e pa _ =>
        if usedEntry (ctxAD (s.asctxAt ctx)) .read w = w then (place w pa, (s.fillDie die e).fillMicro (.slot i) e) else (none, s)
      | _, _ => (none, s))
    | _ => (none, s))
  | _ => (none, s)

/-- `pref [ga]` (R310): starts the fill of a line that misses; otherwise it is dropped. -/
def execPref (a : Reg) (s : State) : Host.Outcome State Fault Refusal :=
  onSlot s fun i =>
    match s.prefetchAddr i ((s.g a).toNat / 256 * 256) with
    | (some pa, u) => .next ((if u.tentAt (pa / 256) then u else u.startFill (pa / 256)).done s.cur)
    | (none, u) => .next (u.done s.cur)

/-! ### Seal and unseal (R311, R157, R160) -/

/-- The ASID of the launch that holds a core. -/
def State.asidOf (s : State) (c : CoreId) : BitVec 16 := ctxASID (s.asctxAt (s.ctxOf (s.core c).lid))

/-- Two ranges overlap. -/
def rangesMeet (a n b m : Nat) : Bool := decide (a < b + m) && decide (b < a + n)

/-- The seal entries in the table, and those that an open invalidation will make. -/
def State.allSeals (s : State) : List Seal :=
  s.seals ++ s.invals.filterMap (fun p => if p.2.opening then p.2.entry else none)

/-- The status of a `seal` before its invalidation (R157, R311). -/
def State.sealStatus (s : State) (asid : BitVec 16) (a b : Nat) : Nat :=
  if a % 0x10000 != 0 || b % 0x10000 != 0 || b == 0 || decide (0x007F000000000000 < a + b) then 3
  else if s.allSeals.any (fun x => x.asid == asid && rangesMeet x.base x.len a b) then 2
  else if 64 ≤ s.allSeals.length then 1
  else 0

/-- The status of an `unseal` before its invalidation (R160, R311): an entry that another `unseal` has marked still holds its
range. -/
def State.unsealStatus (s : State) (asid : BitVec 16) (a b : Nat) : Nat :=
  if s.seals.any (fun x => x.asid == asid && x.base == a && x.len == b) then 0 else 1

/-- An invalidation is requested (R35); its first phase begins with its event. -/
def State.requestInval (s : State) (v : Inval) : State :=
  ({ s with invals := s.invals.put s.nextInval v, nextInval := s.nextInval + 1 } : State).post (.invalidationRequest s.nextInval none)

/-- The end of a seal: an entry made by its invalidation (R157). -/
def State.sealInval (s : State) (i : SlotId) (who : Option SlotId) (d : Reg) (a b : Nat) : Inval :=
  let asid := s.asidOf (coreOf i)
  { who := who, asid := asid, scope := .range a b, phase := .block, opening := true, dest := d, since := s.ck,
    entry := some ⟨asid, a, b, false, (s.core (coreOf i)).lid.getD 0⟩ }

/-- An `unseal` under way: its entry is marked, and its invalidation requested (R160). -/
def State.startUnseal (s : State) (i : SlotId) (who : Option SlotId) (d : Reg) (a b : Nat) : State :=
  let asid := s.asidOf (coreOf i)
  let hit (x : Seal) : Bool := x.asid == asid && x.base == a && x.len == b
  let s1 := { s with seals := s.seals.map (fun x => if hit x then { x with unsealing := true } else x) }
  s1.requestInval { who := who, asid := asid, scope := .range a b, phase := .block, opening := false, dest := d,
                    since := s.ck, entry := s.seals.find? hit }

/-- The status DEFERRED that a held instruction writes (R304). -/
def deferred : Word := 0xFF

/-- The instruction is held until the task commits (R175, R304): its operands are kept. -/
def State.hold (s : State) (i : SlotId) (ins : Instr) (a b c : Word) : State :=
  let x := s.slot i
  s.setSlot i { x with held := x.held ++ [⟨ins, a, b, c, none, none⟩] }

/-- `seal gd, ga, gb` (R311). -/
def execSeal (d a b : Reg) (s : State) : Host.Outcome State Fault Refusal :=
  onSlot s fun i =>
    let base := (s.g a).toNat
    let len := (s.g b).toNat
    if (s.slot i).speculative then
      .next (((s.hold i (.seal d a b) (s.g a) (s.g b) 0).wg s.cur d deferred).done s.cur)
    else match s.sealStatus (s.asidOf (coreOf i)) base len with
    | 0 => .next ((s.requestInval (s.sealInval i (some i) d base len)).park s.cur (.inval s.nextInval 0 0))
    | k => .next ((s.wg s.cur d (BitVec.ofNat 64 k)).done s.cur)

/-- `unseal gd, ga, gb` (R311). -/
def execUnseal (d a b : Reg) (s : State) : Host.Outcome State Fault Refusal :=
  onSlot s fun i =>
    let base := (s.g a).toNat
    let len := (s.g b).toNat
    if (s.slot i).speculative then
      .next (((s.hold i (.unseal d a b) (s.g a) (s.g b) 0).wg s.cur d deferred).done s.cur)
    else match s.unsealStatus (s.asidOf (coreOf i)) base len with
    | 0 => .next ((s.startUnseal i (some i) d base len).park s.cur (.inval s.nextInval 0 0))
    | k => .next ((s.wg s.cur d (BitVec.ofNat 64 k)).done s.cur)

/-- A held `seal` released at commit (R304): its status is discarded. -/
def State.releaseSeal (s : State) (i : SlotId) (a b : Nat) : State :=
  if s.sealStatus (s.asidOf (coreOf i)) a b = 0 then s.requestInval (s.sealInval i none 0 a b) else s

/-- A held `unseal` released at commit (R304). -/
def State.releaseUnseal (s : State) (i : SlotId) (a b : Nat) : State :=
  if s.unsealStatus (s.asidOf (coreOf i)) a b = 0 then s.startUnseal i none 0 a b else s

end Sys2Proof.Machine
end

