-- ==== Sys2Proof/Machine/Atomics.lean ====
section
/-!
DEFINITION. The atomics (spec/09_memory_instructions.md R313 to R317).
-/
namespace Sys2Proof.Machine

/-- `Amo` (R315): the new value of `n` bytes, none where nothing is written, and the flags of `amo.addf` (R316). -/
def amoNew (op : AmoOp) (n old b dIn : Nat) : Option Nat × Nst :=
  let m := 2 ^ (8 * n)
  let x := b % m
  let sgn (v : Nat) : Int := codeInt (8 * n) v
  match op with
  | .add => (some ((old + x) % m), 0)
  | .and => (some (old &&& x), 0)
  | .or => (some (old ||| x), 0)
  | .xor => (some (old ^^^ x), 0)
  | .minI => (some (if sgn x < sgn old then x else old), 0)
  | .maxI => (some (if sgn old < sgn x then x else old), 0)
  | .minN => (some (min old x), 0)
  | .maxN => (some (max old x), 0)
  | .swap => (some x, 0)
  | .cas => (if old = dIn % m then some x else none, 0)
  | .addfx => (some ((old + (if b % 2 ^ 64 < 2 ^ 63 then b % 2 ^ 64 else b % 2 ^ 64 + (2 ^ 128 - 2 ^ 64))) % m), 0)
  | .addf => let r := fadd .fp32 old x; (some r.1, r.2)

/-- An atomic performed at its place on `n` bytes (R314, R315): the state and the returned value. -/
def State.amoAt (s : State) (pa : Nat) (op : AmoOp) (w : Bool) (b dIn : Word) (by_ : Option SlotId) : State × Word × Nst :=
  let n := amoBytes op w
  let old := memNat s.mem pa n
  let (new, fl) := amoNew op n old b.toNat dIn.toNat
  let s1 := match new with
    | some v => s.placeWrite pa ((bytesOfNat n v).map some) by_
    | none => s
  (s1, BitVec.ofNat 64 old, fl)

/-- An atomic of a slot (R314 to R317): the returned value. -/
def State.coreAmo (s : State) (i : SlotId) (op : AmoOp) (w : Bool) (d : Reg) (va : Nat) (b dIn : Word) : Res Word :=
  let n := amoBytes op w
  match misaligned va n .atomic with
  | some f => .fault f s
  | none =>
    (s.aimed i va n .atomic).bind fun t s =>
      let x := s.slot i
      if x.speculative then
        if d = 0 then (s.bufferOp i (.atom t.pa op w b dIn t.page)).bind fun _ s => .ok 0 s
        else
          (s.readAt i t va n .again).bind fun bytes s =>
            let old := natOfBytes bytes
            let (new, fl) := amoNew op n old b.toNat dIn.toNat
            let s1 := s.raise (.slot i) fl
            match new with
            | some v => (s1.bufferOp i (.store t.pa ((bytesOfNat n v).map some) t.page)).bind fun _ s => .ok (BitVec.ofNat 64 old) s
            | none => .ok (BitVec.ofNat 64 old) s1
      else
        let rq : ReqOp := .atom op w d b dIn
        if t.away then s.sendAway i t va rq
        else (s.reach i t va n true rq).bind fun _ s =>
          if s.marked t.pa n then .fault { cause := 0x13, kind := 3, faddr := va } s
          else
            let r := s.amoAt t.pa op w b dIn (some i)
            .ok r.2.1 (r.1.raise (.slot i) r.2.2)

/-- The order includes a release (R172). -/
def orderReleases : Order → Bool
  | .rel => true
  | .ar => true
  | _ => false

/-- An atomic instruction (R169, R313, R315): with release order it waits for the slot's updates. -/
def atomOp (o : Order) (op : AmoOp) (w : Bool) (d a b : Reg) (s : State) : Host.Outcome State Fault Refusal :=
  onSlot s fun i =>
    let k := finishG s s.cur d (s.coreAmo i op w d (s.g a).toNat (s.g b) (s.g d))
    if orderReleases o then settled s i k else k

/-- `amo.add` (R315). -/
def execAmoAdd (o : Order) (_s : Scope) (w : Bool) (d a b : Reg) (s : State) : Host.Outcome State Fault Refusal :=
  atomOp o .add w d a b s

/-- `amo.and` (R315). -/
def execAmoAnd (o : Order) (_s : Scope) (w : Bool) (d a b : Reg) (s : State) : Host.Outcome State Fault Refusal :=
  atomOp o .and w d a b s

/-- `amo.or` (R315). -/
def execAmoOr (o : Order) (_s : Scope) (w : Bool) (d a b : Reg) (s : State) : Host.Outcome State Fault Refusal :=
  atomOp o .or w d a b s

/-- `amo.xor` (R315). -/
def execAmoXor (o : Order) (_s : Scope) (w : Bool) (d a b : Reg) (s : State) : Host.Outcome State Fault Refusal :=
  atomOp o .xor w d a b s

/-- `amo.min signed` (R315). -/
def execAmoMinI (o : Order) (_s : Scope) (w : Bool) (d a b : Reg) (s : State) : Host.Outcome State Fault Refusal :=
  atomOp o .minI w d a b s

/-- `amo.max signed` (R315). -/
def execAmoMaxI (o : Order) (_s : Scope) (w : Bool) (d a b : Reg) (s : State) : Host.Outcome State Fault Refusal :=
  atomOp o .maxI w d a b s

/-- `amo.min unsigned` (R315). -/
def execAmoMinN (o : Order) (_s : Scope) (w : Bool) (d a b : Reg) (s : State) : Host.Outcome State Fault Refusal :=
  atomOp o .minN w d a b s

/-- `amo.max unsigned` (R315). -/
def execAmoMaxN (o : Order) (_s : Scope) (w : Bool) (d a b : Reg) (s : State) : Host.Outcome State Fault Refusal :=
  atomOp o .maxN w d a b s

/-- `amo.swap` (R315). -/
def execAmoSwap (o : Order) (_s : Scope) (w : Bool) (d a b : Reg) (s : State) : Host.Outcome State Fault Refusal :=
  atomOp o .swap w d a b s

/-- `amo.cas` (R315). -/
def execAmoCas (o : Order) (_s : Scope) (w : Bool) (d a b : Reg) (s : State) : Host.Outcome State Fault Refusal :=
  atomOp o .cas w d a b s

/-- `amo.addfx` (R315, R316). -/
def execAmoAddfx (o : Order) (_s : Scope) (d a b : Reg) (s : State) : Host.Outcome State Fault Refusal :=
  atomOp o .addfx true d a b s

/-- `amo.addf` (R315, R316): its flags are set in the issuing slot. -/
def execAmoAddf (o : Order) (_s : Scope) (d a b : Reg) (s : State) : Host.Outcome State Fault Refusal :=
  atomOp o .addf false d a b s

end Sys2Proof.Machine
end

