-- ==== Sys2Proof/Machine/Context.lean ====
section
/-!
DEFINITION. Control registers as `krd` reads them (spec/07_isa_encoding.md R255 and the rules cited) and the saved
context of a thread slot (spec/12_faults_and_recovery.md R412, R414).
-/
namespace Sys2Proof.Machine

/-! ### Control registers of a slot -/

/-- A bit as a number. -/
def bitNat (b : Bool) (k : Nat) : Nat := if b then 2 ^ k else 0

/-- `k.tid` (R207). -/
def Slot.tidWord (x : Slot) (i : SlotId) : Word :=
  BitVec.ofNat 64 (x.tid.toNat * 2 ^ 48 + bitNat x.lc 47 + numOf i)
/-- `k.budget` (R220). -/
def Slot.budgetWord (x : Slot) : Word := BitVec.ofNat 64 (bitNat x.budEn 63 + x.budLeft.toNat)
/-- `k.uih` with QN (R153). -/
def Slot.uihWord (x : Slot) : Word := setBits x.uih 52 4 x.uiq.length
/-- The package coordinates of `k.core`, `k.tile` and ORIGIN (R202). -/
def State.placeBits (s : State) : Nat := s.pos.2.2 % 16 * 2 ^ 40 + s.pos.2.1 % 16 * 2 ^ 36 + s.pos.1 % 16 * 2 ^ 32
/-- `k.core` (R202). -/
def State.coreWord (s : State) (c : CoreId) : Word := BitVec.ofNat 64 (s.placeBits + c.val)
/-- `k.tile` (R202). -/
def State.tileWord (s : State) (t : TileId) : Word := BitVec.ofNat 64 (s.placeBits + t.val)

/-- The twelve words of the loop levels, as `krd` numbers them (R277). -/
def Hart.levelWords (h : Hart) : List Word := h.saveWords.take 12

/-- The loop registers by number, 0x020 to 0x02F (R255, R277). -/
def Hart.loopReg (h : Hart) (n : Nat) : Word :=
  match n with
  | 0x2C => h.qrb.setWidth 64
  | 0x2D => h.qa.setWidth 64
  | 0x2E => h.stg.setWidth 64
  | 0x2F => h.lam
  | _ => h.levelWords.getD (n - 0x20) 0

/-- Whether a number names a control register (R255). -/
def regListed (n : Nat) : Bool := decide (n ≤ 0x11) || (decide (0x20 ≤ n) && decide (n ≤ 0x2F))

/-- A control register of a core thread slot; one of the other profile reads zero (R255). -/
def State.coreReg (s : State) (i : SlotId) (n : Nat) : Word :=
  let x := s.slot i
  let c := s.core (coreOf i)
  match n with
  | 0x00 => x.tidWord i
  | 0x01 => x.ts.setWidth 64
  | 0x02 => x.dom.setWidth 64
  | 0x03 => s.coreWord (coreOf i)
  | 0x05 => c.stage
  | 0x06 => c.part
  | 0x07 => BitVec.ofNat 64 (partXB c.part)
  | 0x08 => x.ovh
  | 0x09 => x.budgetWord
  | 0x0A => x.xfer
  | 0x0B => x.uihWord
  | 0x0D => x.h.cause
  | 0x0E => x.h.epc.setWidth 64
  | 0x0F => BitVec.ofNat 64 s.time
  | 0x10 => c.dqspill
  | 0x11 => x.h.readNst
  | _ => if 0x20 ≤ n then x.h.loopReg n else 0

/-- A control register of a tile. -/
def State.tileReg (s : State) (t : TileId) (n : Nat) : Word :=
  let x := s.tile t
  match n with
  | 0x04 => s.tileWord t
  | 0x05 => x.stage
  | 0x07 => BitVec.ofNat 64 x.tclen
  | 0x0C => x.r.gprog
  | 0x0D => x.h.cause
  | 0x0E => x.h.epc.setWidth 64
  | 0x0F => BitVec.ofNat 64 s.time
  | 0x11 => x.h.readNst
  | _ => if 0x20 ≤ n then x.h.loopReg n else 0

/-- A control register of an agent. -/
def State.creg (s : State) : Agent → Nat → Word
  | .slot i, n => s.coreReg i n
  | .tile t, n => s.tileReg t n

/-! ### Saved contexts (R414) -/

/-- The number of a slot state in a saved context (R208, R414; log 33). -/
def SlotSt.num : SlotSt → Nat
  | .idle => 0 | .running => 1 | .waiting => 2 | .committing => 3 | .suspended => 4

/-- The loop-state save areas in the layout of `lsave`, then CDEP and ILD (R290, R414). -/
def LoopSave.words (x : LoopSave) (qa : BitVec 9) : List Word :=
  let h : Hart := { Hart.reset with lv := x.lv, qrb := x.qrb, stg := x.stg, lam := x.lam, qa := qa }
  h.saveWords.take 14 ++ [BitVec.ofNat 64 (x.cdep.toNat + x.ild.toNat * 2 ^ 16), 0]

/-- The bytes of words, little-endian. -/
def wordBytes (ws : List Word) : List Byte := (ws.map (fun w => bytesOfNat 8 w.toNat)).flatten

/-- The 4 KiB share of a slot (R414). -/
def State.slotContext (s : State) (i : SlotId) : List Byte :=
  let x := s.slot i
  let h := x.h
  let gs := (List.range 32).map (fun k => h.rg (BitVec.ofNat 5 k))
  let vs := (List.range 32).map (fun k => bytesOfNat 64 ((h.v.toList.getD k 0).toNat))
  let ps := (List.range 8).map (fun k => h.rp (BitVec.ofNat 3 k))
  let qs := BitVec.ofNat 64 (h.qrb.toNat + h.stg.toNat * 2 ^ 8 + h.qa.toNat * 2 ^ 16 + h.abase.toNat * 2 ^ 32)
  let pcs := BitVec.ofNat 64 (h.cdep.toNat + h.ild.toNat * 2 ^ 16 + x.st.num * 2 ^ 32 + h.pc.toNat % 2 ^ 18 * 2 ^ 36)
  let pair := match x.pair with
    | some (d, b) => BitVec.ofNat 64 (2 ^ 63 + d * 2 ^ 56 + b % 2 ^ 32)
    | none => 0
  let ks := [0x0D, 0x0E, 0x11, 0x0B, 0x08, 0x09, 0x00, 0x01, 0x02].map (s.coreReg i)
  let q := (List.range 8).map (fun k => x.uiq.getD k (0, 0))
  wordBytes gs ++ vs.flatten ++ wordBytes ps ++ wordBytes h.levelWords ++ wordBytes [qs, h.lam, pcs, pair] ++ wordBytes ks
    ++ wordBytes ((q.map (fun e => [e.1, e.2])).flatten) ++ wordBytes (x.trapSave.words h.qa)
    ++ wordBytes (x.uiSave.words h.qa) ++ List.replicate 1144 0

/-- The context of a slot saved in its share of the registers region (R412, R414), whose granules it covers (R419). -/
def State.saveContext (s : State) (i : SlotId) : State :=
  let c := coreOf i
  let pa := s.palette c + partXB (s.core c).part + 0x1000 * numOf i
  { s with mem := memPut s.mem pa (s.slotContext i), marks := marksAfter s.marks pa 0x1000 }

end Sys2Proof.Machine
end

