-- ==== Sys2Proof/Machine/Virtual.lean ====
section
/-!
DEFINITION. Memory by virtual address for the units that read and write it outside the instructions: deque controllers
and command processors (spec/06_execution_and_scheduling.md R211, R212, R223). They walk the page table of the launch's
context directly (R26), and wait where a walk waits: for an open invalidation (R35), for a leaf with MIG = 1 (R42), for a
line that the host may hold (R43).
-/
namespace Sys2Proof.Machine

/-- The pieces of a range that stay within one 64-byte block. -/
def chunks (va n : Nat) : List (Nat × Nat) :=
  if n = 0 then [] else (List.range ((va + n - 1) / 64 - va / 64 + 1)).map (fun k =>
    let lo := max va ((va / 64 + k) * 64)
    let hi := min (va + n) ((va / 64 + k + 1) * 64)
    (lo, hi - lo))

/-- A wait of a unit: it tries again after `n` ck. -/
def State.later {α : Type} (s : State) (n : Nat) : Res α := .wait (.retry (s.ck + n)) s

/-- The number of ck until a wait of a unit is over. -/
def State.delay (s : State) (w : Wait) : Nat :=
  match w with
  | .retry t => max 1 (t - s.ck)
  | _ => 1

/-- A window address decoded for a unit (R14 to R17): a core's deque controller reaches what its core does; a command
processor has no self range, is no agent to which tile memory opens, and reaches a palette as a remote core does (log 112). -/
def State.unitWindow (s : State) (me : Option CoreId) (kind : Kind) (va n : Nat) : Aim :=
  let off := va % 2 ^ 48
  match me with
  | some c => s.aimWindow c va n kind
  | none =>
    if off < 0x10000000 ∨ (0x40000000 ≤ off ∧ off < 0x80000000) then .fault (tfault 0x0A 2 0 kind va)
    else s.aimWindow (Fin.ofNat 1024 ((off - 0x10000000) / 0x40000 + 1)) va n kind

/-- The physical address of a window address, once its place admits an access (R17, R48). -/
def State.unitPlace (s : State) (me : Option CoreId) (kind : Kind) (va n : Nat) : Res Nat :=
  match s.unitWindow me kind va n with
  | .fault f => .fault f s
  | .ok d =>
    (match d.place with
    | .tileMem t =>
      (match s.windowTest t.val (d.pa - tileBase t) n with
      | .refuse h => s.later (max 1 (8 * h))
      | _ => .ok d.pa s)
    | _ => .ok d.pa s)
  | _ => s.later 1

/-- The die of a unit's walker: that of its core, or die 0 for a command processor (R31; log 112). -/
def State.unitDie (s : State) (me : Option CoreId) : Nat := (me.map s.dieOf).getD 0

/-- The physical address of `n` bytes of one block in a context, or what its walk comes to (R26); `me` is the core of a deque
controller, and none for a command processor. The walk fills the die TLB. -/
def State.vaPhysOf (s : State) (me : Option CoreId) (ctx : Nat) (kind : Kind) (user : Bool) (va n : Nat) : Res Nat :=
  if 2 ^ 55 ≤ va then .fault (tfault 0x0A 1 0 kind va) s
  else if inWindow va then s.unitPlace me kind va n
  else match s.walkTo ctx kind user va with
  | .leaf e pa u => .ok pa (u.fillDie (s.unitDie me) e)
  | .fault f => .fault f s
  | .wait k u => u.later k
  | .blocked _ => s.later 1

/-- The physical address of a command processor's access. -/
def State.vaPhys (s : State) (ctx : Nat) (kind : Kind) (user : Bool) (va : Nat) : Res Nat := s.vaPhysOf none ctx kind user va 1

/-- The bytes of ranges by virtual address. -/
def State.vreadParts (s : State) (me : Option CoreId) (kind : Kind) (ctx : Nat) (user : Bool) : List (Nat × Nat) → Res (List Byte)
  | [] => .ok [] s
  | (va, n) :: t =>
    (s.vaPhysOf me ctx kind user va n).bind fun pa s =>
      (s.vreadParts me kind ctx user t).bind fun l u => .ok (s.read pa n ++ l) u

/-- Bytes by virtual address, for an access kind of a command processor. -/
def State.vreadAs (s : State) (kind : Kind) (ctx : Nat) (user : Bool) (va n : Nat) : Res (List Byte) :=
  s.vreadParts none kind ctx user (chunks va n)

/-- Bytes by virtual address, read by a command processor. -/
def State.vread (s : State) (ctx : Nat) (user : Bool) (va n : Nat) : Res (List Byte) := s.vreadAs .read ctx user va n

/-- A unit writes bytes of one block at their place. -/
def State.unitStore (s : State) (pa : Nat) (bytes : List Byte) : Bool × State :=
  match s.phys pa with
  | .tileMem .. => (true, s.placeWrite pa (bytes.map some) none)
  | _ => s.unitWrite pa bytes

/-- The bytes written to ranges by virtual address; `va` is where the bytes begin. -/
def State.vwriteParts (s : State) (me : Option CoreId) (ctx : Nat) (user : Bool) (va : Nat) (bytes : List Byte) :
    List (Nat × Nat) → Res Unit
  | [] => .ok () s
  | (a, n) :: t =>
    (s.vaPhysOf me ctx .write user a n).bind fun pa s =>
      let r := s.unitStore pa ((bytes.drop (a - va)).take n)
      if r.1 then r.2.vwriteParts me ctx user va bytes t else r.2.later 1

/-- Bytes written by virtual address: every page is translated before the first byte is written. -/
def State.vwriteOf (s : State) (me : Option CoreId) (ctx : Nat) (user : Bool) (va : Nat) (bytes : List Byte) : Res Unit :=
  let pages := chunks va bytes.length
  (pages.foldl (fun (r : Res Unit) p => r.bind fun _ u => (u.vaPhysOf me ctx .write user p.1 p.2).bind fun _ v => .ok () v) (.ok () s)).bind
    fun _ u => u.vwriteParts me ctx user va bytes pages

/-- Bytes written by a command processor. -/
def State.vwrite (s : State) (ctx : Nat) (user : Bool) (va : Nat) (bytes : List Byte) : Res Unit := s.vwriteOf none ctx user va bytes

/-- Bytes that the deque controller of a core reads by virtual address. -/
def State.dequeRead (s : State) (c : CoreId) (va n : Nat) : Res (List Byte) :=
  s.vreadParts (some c) .read (s.ctxOf (s.core c).lid) true (chunks va n)

/-- Bytes that the deque controller of a core writes by virtual address. -/
def State.dequeWrite (s : State) (c : CoreId) (va : Nat) (bytes : List Byte) : Res Unit :=
  s.vwriteOf (some c) (s.ctxOf (s.core c).lid) true va bytes

/-- The place of `n` bytes of one block of a core's spill, whatever holds an access to them back. -/
def State.peekAt (s : State) (c : CoreId) (va n : Nat) : Option Nat :=
  if 2 ^ 55 ≤ va then none
  else if inWindow va then
    (match ({ s with clmap := s.clmap.map (fun p => (p.1, p.2 &&& ~~~(0x40000000#32))) } : State).unitWindow (some c) .read va n with
    | .ok d => some d.pa
    | _ => none)
  else match s.walkCtx (s.ctxOf (s.core c).lid) .read true va with
  | .leaf _ _ _ pa => some pa
  | .migrating pa => some pa
  | .fault _ => none

/-- Bytes of a core's spill as they stand: what its deque controller, which alone writes them, knows (R211). -/
def State.peek (s : State) (c : CoreId) (va n : Nat) : Option (List Byte) :=
  (chunks va n).foldr (fun p (r : Option (List Byte)) =>
    match s.peekAt c p.1 p.2, r with
    | some pa, some l => some (s.read pa p.2 ++ l)
    | _, _ => none) (some [])

/-- The 64-bit words of bytes. -/
def wordsOf (bytes : List Byte) : List Word :=
  (List.range (bytes.length / 8)).map (fun k => BitVec.ofNat 64 (natOfBytes ((bytes.drop (8 * k)).take 8)))

/-- The bytes of 64-bit words. -/
def bytesOfWords (ws : List Word) : List Byte := (ws.map (fun w => bytesOfNat 8 w.toNat)).flatten

end Sys2Proof.Machine
end

