-- ==== Sys2Proof/Machine/Deques.lean ====
section
/-!
DEFINITION. Task records, deques and their spill (spec/06_execution_and_scheduling.md R205 to R214), and the commit
front (spec/05_consistency.md R178, R187).
-/
namespace Sys2Proof.Machine

/-! ### Task records (R205, R206) -/

/-- A record from its eight words; LINK as the 9200 wrote it. -/
def TaskRec_ofWords (w : List Word) : TaskRec :=
  let g (k : Nat) : Word := w.getD k 0
  { ts := BitVec.ofNat 32 (bitsAt (g 0) 32 32), dom := BitVec.ofNat 4 (bitsAt (g 0) 28 4), lc := bitsAt (g 0) 27 1 == 1,
    pc := BitVec.ofNat 18 (bitsAt (g 0) 0 18), tid := BitVec.ofNat 16 (bitsAt (g 1) 48 16),
    budget := BitVec.ofNat 32 (bitsAt (g 1) 0 32), args := #v[g 2, g 3, g 4, g 5], lnk := bitsAt (g 6) 63 1 == 1,
    cser := BitVec.ofNat 32 (bitsAt (g 6) 16 32), ccore := BitVec.ofNat 10 (bitsAt (g 6) 0 10) }

/-- The eight words of a record (R205). -/
def recordWords (r : TaskRec) : List Word :=
  [BitVec.ofNat 64 (r.ts.toNat * 2 ^ 32 + r.dom.toNat * 2 ^ 28 + (if r.lc then 2 ^ 27 else 0) + r.pc.toNat),
   BitVec.ofNat 64 (r.tid.toNat * 2 ^ 48 + r.budget.toNat), r.args[0], r.args[1], r.args[2], r.args[3],
   BitVec.ofNat 64 ((if r.lnk then 2 ^ 63 else 0) + r.cser.toNat * 2 ^ 16 + r.ccore.toNat), 0]

/-- A reserved field of a record is nonzero (R205, R206). -/
def recordReserved (w : List Word) : Bool :=
  bitsAt (w.getD 0 0) 18 9 != 0 || bitsAt (w.getD 1 0) 32 16 != 0 || w.getD 7 0 != 0

/-! ### The spill (R211, R212) -/

/-- EN of `k.dqspill`. -/
def spillEN (q : Word) : Bool := bitsAt q 63 1 == 1
/-- The virtual address of the spill area. -/
def spillBase (q : Word) : Nat := bitsAt q 16 39 * 2 ^ 16
/-- The capacity in records. -/
def spillCap (q : Word) : Nat := 2 ^ (bitsAt q 12 4 + 10)
/-- The virtual address of spilled record `i`. -/
def spillAddr (q : Word) (i : Nat) : Nat := spillBase q + 64 + 64 * (i % spillCap q)

/-- TAIL and HEAD of a core's spill; both zero without one. -/
def State.spillEnds (s : State) (c : CoreId) : Nat × Nat :=
  let q := (s.core c).dqspill
  if !spillEN q then (0, 0)
  else match s.peek c (spillBase q) 16 with
  | some b => (natOfBytes (b.take 4), natOfBytes ((b.drop 8).take 4))
  | none => (0, 0)

/-- The number of spilled records. -/
def State.spilled (s : State) (c : CoreId) : Nat :=
  let e := s.spillEnds c
  (e.2 + 2 ^ 32 - e.1) % 2 ^ 32

/-- Spilled record `i` as it stands in memory. -/
def State.spillRec (s : State) (c : CoreId) (i : Nat) : Option TaskRec :=
  (s.peek c (spillAddr (s.core c).dqspill i) 64).map (fun b => TaskRec_ofWords (wordsOf b))

/-- The deque controller reads spilled record `i`. -/
def State.loadSpilled (s : State) (c : CoreId) (i : Nat) : Res TaskRec :=
  (s.dequeRead c (spillAddr (s.core c).dqspill i) 64).bind fun b u => .ok (TaskRec_ofWords (wordsOf b)) u

/-- The header written with new ends; its other bytes are zero. -/
def State.setSpillEnds (s : State) (c : CoreId) (tail head : Nat) : Res Unit :=
  s.dequeWrite c (spillBase (s.core c).dqspill)
    (bytesOfWords [BitVec.ofNat 64 (tail % 2 ^ 32), BitVec.ofNat 64 (head % 2 ^ 32), 0, 0, 0, 0, 0, 0])

/-- A record of a run that was aborted is not live any more (R182). -/
def State.dead (s : State) (r : TaskRec) : Bool := linkedTo r s.deadRuns

/-- Records written to the spill from HEAD on. -/
def State.spillOut (s : State) (c : CoreId) : List TaskRec → Nat → Res Unit
  | [], _ => .ok () s
  | r :: t, head =>
    (s.dequeWrite c (spillAddr (s.core c).dqspill head) (bytesOfWords (recordWords r))).bind
      fun _ u => u.spillOut c t (head + 1)

/-- A spill has room for 16 records more (R212). -/
def State.spillRoom (s : State) (c : CoreId) : Bool :=
  spillEN (s.core c).dqspill && decide (s.spilled c + 16 ≤ spillCap (s.core c).dqspill)

/-- The 16 oldest hardware records written to the spill at HEAD (R212). -/
def State.spillOldest (s : State) (c : CoreId) : Res Unit :=
  let d := (s.core c).deque
  let e := s.spillEnds c
  (s.spillOut c (d.drop (d.length - 16)).reverse e.2).bind fun _ u =>
    (u.setSpillEnds c e.1 (e.2 + 16)).bind fun _ v => .ok () (v.setCore c { v.core c with deque := d.take (d.length - 16) })

/-- A record placed at the head of a core's deque, if it has room (R212). -/
def State.pushRec (s : State) (c : CoreId) (r : TaskRec) : Res Bool :=
  let place (u : State) : Res Bool := let x := u.core c; .ok true (u.setCore c { x with deque := r :: x.deque })
  if (s.core c).deque.length < 32 then place s
  else if !s.spillRoom c then .ok false s
  else (s.spillOldest c).bind fun _ u => place u

/-- A deque that has taken back more records than its hardware part holds spills the oldest, where the spill has room (log
103). -/
def State.trimDeque (s : State) (c : CoreId) : State :=
  if (s.core c).deque.length ≤ 32 ∨ s.spillRoom c = false then s
  else match s.spillOldest c with
  | .ok _ u => u
  | _ => s

/-- Records of the spill below `head`, the newest first. -/
def State.loadHead (s : State) (c : CoreId) (head : Nat) : Nat → Res (List TaskRec)
  | 0 => .ok [] s
  | n + 1 =>
    (s.loadSpilled c ((head + 2 ^ 32 - 1) % 2 ^ 32)).bind fun r u =>
      (u.loadHead c ((head + 2 ^ 32 - 1) % 2 ^ 32) n).bind fun l v => .ok (r :: l) v

/-- Up to 16 records moved from the HEAD end of the spill into an empty hardware part, until it holds one that is live or
the spill is empty (R212). -/
def State.refill (s : State) (c : CoreId) : Nat → Res Unit
  | 0 => .ok () s
  | fuel + 1 =>
    let e := s.spillEnds c
    let n := min 16 ((e.2 + 2 ^ 32 - e.1) % 2 ^ 32)
    if !(s.core c).deque.isEmpty || n == 0 then .ok () s
    else
      (s.loadHead c e.2 n).bind fun rs u =>
        (u.setSpillEnds c e.1 ((e.2 + 2 ^ 32 - n) % 2 ^ 32)).bind fun _ v =>
          (v.setCore c { v.core c with deque := rs.filter (fun r => !s.dead r) }).refill c fuel

/-- The head of a core's deque taken by its owner (R212). -/
def State.popRec (s : State) (c : CoreId) : Res (Option TaskRec) :=
  (s.refill c (s.spilled c / 16 + 1)).bind fun _ u =>
    let x := u.core c
    match x.deque with
    | r :: t => .ok (some r) (u.setCore c { x with deque := t })
    | [] => .ok none u

/-- The record that a thief takes: the first live one at TAIL of the spill, else the oldest of the hardware part (R212). -/
def State.stealRec (s : State) (c : CoreId) : Nat → Res (Option TaskRec)
  | 0 =>
    (match (s.core c).deque.getLast? with
      | some r => .ok (some r) (s.setCore c { s.core c with deque := (s.core c).deque.dropLast })
      | none => .ok none s)
  | n + 1 =>
    let e := s.spillEnds c
    (s.loadSpilled c e.1).bind fun r u =>
      (u.setSpillEnds c (e.1 + 1) e.2).bind fun _ v => if v.dead r then v.stealRec c n else .ok (some r) v

/-! ### The commit front (R178) -/

/-- The record of an event in flight, with the core that it goes to. -/
def eventRec : Event → Option (CoreId × TaskRec)
  | .spawnArrival c _ r => some (c, r)
  | .stealReply c (some r) => some (c, r)
  | _ => none

/-- Two launches are one. -/
def State.sameLid (s : State) (c : CoreId) (lid : Option Nat) : Bool := (s.core c).lid == lid

/-- A core by number. -/
def coreNo (k : Nat) : CoreId := Fin.ofNat 1024 k
/-- A slot by number. -/
def slotNo (k : Nat) : SlotId := Fin.ofNat 4096 k

/-- The timestamps of the live tasks of a domain of a launch (R178), those of initial records that wait for room among them
(R212; log 123). -/
def State.liveTs (s : State) (lid : Option Nat) (d : Nat) : List Nat :=
  let here (r : TaskRec) : Option Nat := if r.dom.toNat = d then some r.ts.toNat else none
  let ofSlots := s.slots.flatMap (fun p =>
    if s.sameLid (coreNo (p.1 / 4)) lid then (p.2.task.toList ++ p.2.preload.toList).filterMap here else [])
  let ofCores := s.cores.flatMap (fun p =>
    if p.2.lid == lid then
      (p.2.deque ++ p.2.arms.map (fun a => a.task)).filterMap here
        ++ (List.range (s.spilled (coreNo p.1))).filterMap (fun k =>
            ((s.spillRec (coreNo p.1) (((s.spillEnds (coreNo p.1)).1 + k) % 2 ^ 32)).filter (fun r => !s.dead r)).bind here)
    else [])
  let flying := (s.agenda ++ s.timers.map (fun t => t.2)).filterMap (fun e =>
    (eventRec e).bind (fun x => if s.sameLid x.1 lid then here x.2 else none))
  let waiting := (((lid.bind s.launches.find).map Launch.toPush).getD []).filterMap (fun p => here p.2)
  ofSlots ++ ofCores ++ flying ++ waiting

/-- F(d) of a launch (R178). -/
def State.front (s : State) (lid : Option Nat) (d : Nat) : Nat := (s.liveTs lid d).foldl min (2 ^ 32)

/-- V(d) at a core: what the last message brought, and never above F(d) (R178). -/
def State.view (s : State) (c : CoreId) (d : Nat) : Nat :=
  min ((s.core c).views.getD (d - 1) (2 ^ 32)) (s.front (s.core c).lid d)

/-- `COMMIT_FRONT_MESSAGE` (R92, R178): a message of the steal network reaches a core, and its view rises. -/
def execCommitFrontMessage (s : State) : Host.Outcome State Fault Refusal :=
  match s.event with
  | some (.commitFrontMessage c d v) =>
    let x := s.core c
    .next (s.setCore c { x with views := x.views.setIfInBounds (d - 1) v })
  | _ => .next s

/-- A timestamp meets R187 for a creator on a slot. -/
def State.tsOk (s : State) (i : SlotId) (ts : BitVec 32) (dom : BitVec 4) : Bool :=
  let x := s.slot i
  dom == 0 || (if x.dom == dom then decide (x.ts.toNat ≤ ts.toNat) else decide (s.view (coreOf i) dom.toNat ≤ ts.toNat))

/-- The checks of a record by a create instruction, in the order of R206. -/
def State.recordFault (s : State) (i : SlotId) (w : List Word) : Option FaultInfo :=
  let r := TaskRec_ofWords w
  if recordReserved w then some { cause := 0x01 }
  else if r.pc.toNat % 4 != 0 then some { cause := 0x05 }
  else if r.lc && !(s.slot i).lc then some { cause := 0x01 }
  else if !s.tsOk i r.ts r.dom then some { cause := 0x0C }
  else none

/-- LINK as the create writes it (R206). -/
def State.linked (s : State) (i : SlotId) (r : TaskRec) : TaskRec :=
  let x := s.slot i
  { r with lnk := x.speculative, cser := x.ser, ccore := BitVec.ofNat 10 (coreOf i).val }

end Sys2Proof.Machine
end

