-- ==== Sys2Proof/Machine/Tasks.lean ====
section
/-!
DEFINITION. Creating, starting and stealing tasks (spec/09_memory_instructions.md R318 to R321;
spec/06_execution_and_scheduling.md R205 to R217).
-/
namespace Sys2Proof.Machine

/-! ### Create instructions (R318 to R321) -/

/-- A child begins inline on its creator's slot, as `callr` would call it (R217); a fault when ILD is 65,535 (R274). The start
costs no ck of a taken transfer (log 124). -/
def State.runInline (s : State) (i : SlotId) (d : Reg) (status : Nat) (r : TaskRec) : State :=
  let x := s.slot i
  if x.h.ild = 0xFFFF then s.raiseFault (.slot i) { cause := 0x01 }
  else
    let h := x.h.callTo (r.pc.setWidth 23)
    let h' := (((h.wg 1 r.args[0]).wg 2 r.args[1]).wg 3 r.args[2]).wg 4 r.args[3]
    s.setSlot i { x with h := { h' with ild := h'.ild + 1 }, inl := (d, status) :: x.inl, st := .running, wait := .none }

/-- A deque controller whose access to its spill waits tries again at a later ck (R42, R43). -/
def State.dequeWait (s : State) (c : CoreId) (w : Wait) : State :=
  match w with
  | .retry t => s.setCore c { s.core c with tryAt := t }
  | _ => s

/-- A checked record pushed by a slot (R212, R320); one that must wait for room, or for its spill, is not checked again (log 123). -/
def State.createPush (s : State) (i : SlotId) (d : Reg) (inlineStatus : Nat) (r : TaskRec) : Host.Outcome State Fault Refusal :=
  let r' := s.linked i r
  match s.pushRec (coreOf i) r' with
  | .ok true u => .next ((u.wg (.slot i) d 1).done (.slot i))
  | .ok false u =>
    if r.dom == (s.slot i).dom then .next (u.runInline i d inlineStatus r')
    else .next (u.park (.slot i) (.deque d r' inlineStatus))
  | .fault f u => .next (u.raiseFault (.slot i) f)
  | .wait w u => .next ((u.dequeWait (coreOf i) w).park (.slot i) (.deque d r' inlineStatus))
  | .stop f => .fault f

/-- A push that waits is tried again: the create completes once the record is in the deque (R212). -/
def State.waitingPush (s : State) (i : SlotId) (d : Reg) (r : TaskRec) (inlineStatus : Nat) : State :=
  if s.ck < (s.core (coreOf i)).tryAt then s
  else match s.pushRec (coreOf i) r with
  | .ok true u => u.complete i d 1
  | .ok false u => if r.dom == (s.slot i).dom then (u.wake i).runInline i d inlineStatus r else u
  | .fault f u => u.raiseFault (.slot i) f
  | .wait w u => u.dequeWait (coreOf i) w
  | .stop _ => s

/-- The record at an address, read whole as one access (R320). -/
def State.readRecord (s : State) (i : SlotId) (va : Nat) : Res (List Word) :=
  if va % 64 != 0 then .fault { cause := 0x05, kind := 1, faddr := va } s
  else (s.aimed i va 64 .read).bind fun t s => (s.readAt i t va 64 .again).bind fun b s => .ok (wordsOf b) s

/-- The outcome of a create whose record has been read. -/
def createWith (s : State) (i : SlotId) (d : Reg) (r : Res (List Word)) : Host.Outcome State Fault Refusal :=
  match r with
  | .ok w t =>
    match t.recordFault i w with
    | some f => .next (t.raiseFault (.slot i) f)
    | none => t.createPush i d 2 (TaskRec_ofWords w)
  | .fault f t => .next (t.raiseFault (.slot i) f)
  | .wait w t => .next (t.park (.slot i) w)
  | .stop f => let _ := s; .fault f

/-- `push gd, ga` (R320). -/
def execPush (d a : Reg) (s : State) : Host.Outcome State Fault Refusal :=
  onSlot s fun i => createWith s i d (s.readRecord i (s.g a).toNat)

/-- `pushts gd, ga, gb` (R321): TS and DOM come from `gb`. -/
def execPushts (d a b : Reg) (s : State) : Host.Outcome State Fault Refusal :=
  onSlot s fun i =>
    let x := s.g b
    if bitsAt x 36 28 != 0 then .next (s.raiseFault s.cur { cause := 0x01 })
    else
      createWith s i d ((s.readRecord i (s.g a).toNat).bind fun w s =>
        .ok (w.mapIdx (fun k v => if k = 0 then
          BitVec.ofNat 64 (bitsAt x 0 32 * 2 ^ 32 + bitsAt x 32 4 * 2 ^ 28 + bitsAt v 0 28) else v)) s)

/-- A launch holds a logical cluster (CLMASK, CLMASKH; R221). -/
def Launch.hasCluster (l : Launch) (n : Nat) : Bool :=
  if n < 64 then (l.rcd[8]).getLsbD n else (l.rcd[9]).getLsbD (n - 64)

/-- The launch of a core. -/
def State.launchOf (s : State) (c : CoreId) : Option Launch := (s.core c).lid.bind s.launches.find

/-- `spawn gd, ga, gb` (R216, R319): the record travels to its target core, and the slot waits for the answer. While the mesh is
rerouted, its router refuses it with a hint of 255 (R429). -/
def execSpawn (d a b : Reg) (s : State) : Host.Outcome State Fault Refusal :=
  onSlot s fun i =>
    let x := s.g a
    let c := coreNo (bitsAt x 0 10)
    if b.toNat % 4 != 0 || bitsAt x 50 14 != 0 || bitsAt x 10 22 != 0 then .next (s.raiseFault s.cur { cause := 0x01 })
    else if bitsAt x 32 18 % 4 != 0 then .next (s.raiseFault s.cur { cause := 0x05 })
    else if !s.clusterPresent (c.val / 8) || !((s.launchOf (coreOf i)).map (fun l => l.hasCluster (c.val / 8))).getD false then
      .next (s.raiseFault s.cur { cause := 0x0A, synd := 7 })
    else if clmapChg (s.clmapAt (c.val / 8)) then .next (s.park s.cur .change)
    else if s.rerouting then .next (s.park s.cur (.retry (s.ck + 2040)))
    else
      let y := s.slot i
      let arg (k : Nat) : Word := s.g (b + BitVec.ofNat 5 k)
      let r : TaskRec := { ts := y.ts, dom := y.dom, lc := false, pc := BitVec.ofNat 18 (bitsAt x 32 18), tid := y.tid,
                           budget := 0, args := #v[arg 0, arg 1, arg 2, arg 3], lnk := false, cser := 0, ccore := 0 }
      .next ((s.send 0 (s.coreRouter (coreOf i)) (s.coreRouter c) 0 (.spawnArrival c i (s.linked i r))).park s.cur (.spawn d))

/-- A slot is free for a spawn: idle, no preload, no suspended context (R216). -/
def Slot.isFree (x : Slot) : Bool := x.st == .idle && x.preload.isNone

/-- The lowest-numbered slot of a core that satisfies a test. -/
def State.findSlot (s : State) (c : CoreId) (p : Slot → Bool) : Option SlotId :=
  ((List.range 4).find? (fun k => p (s.slot (slotOf c k)))).map (slotOf c)

/-- `SPAWN_ARRIVAL` (R216, R217): the child starts on the lowest free slot, or runs inline at its creator; a
cluster in change makes it wait (R48). -/
def execSpawnArrival (s : State) : Host.Outcome State Fault Refusal :=
  match s.event with
  | some (.spawnArrival c src r) =>
    match (s.slot src).wait with
    | .spawn d =>
      if clmapChg (s.clmapAt (c.val / 8)) then .next (s.after 1 (.spawnArrival c src r))
      else (match s.findSlot c Slot.isFree with
        | some k => .next ((s.startOn k r).complete src d 0)
        | none => .next ((s.wake src).runInline src d 2 r))
    | _ => .next s
  | _ => .next s

/-! ### Task start and stealing (R207, R210, R213, R214) -/

/-- `TASK_START` (R207, R210): an idle slot takes its preloaded record, or the head of its deque. -/
def execTaskStart (s : State) : Host.Outcome State Fault Refusal :=
  match s.event with
  | some (.taskStart i) =>
    let x := s.slot i
    if x.st != .idle then .next s
    else match x.preload with
    | some r => .next ((s.setSlot i { x with preload := none }).startOn i r)
    | none =>
      match s.popRec (coreOf i) with
      | .ok (some r) u => .next (u.startOn i r)
      | .ok none u => .next u
      | .fault _ u => .next u
      | .wait w u => .next (u.dequeWait (coreOf i) w)
      | .stop f => .fault f
  | _ => .next s

/-- The victim at a position of a core's sweep (R213). -/
def sweepVictim (l k : Nat) : Nat :=
  if k < 7 then l ^^^ (k + 1) else ((l / 8 + (k - 6)) % 128) * 8 + l % 8

/-- The next victim from a position that is present and in the launch, with its position (R213). -/
def State.nextVictim (s : State) (c : CoreId) : Nat → Nat → Option (Nat × Nat)
  | 0, _ => none
  | n + 1, k =>
    let v := sweepVictim c.val (k % 134)
    let ok := s.clusterPresent (v / 8) && ((s.launchOf c).map (fun l => l.hasCluster (v / 8))).getD false
    if ok then some (v, k % 134) else s.nextVictim c n (k + 1)

/-- Requests in order of arrival with one more. -/
def addThief (x : Nat × Nat) : List (Nat × Nat) → List (Nat × Nat)
  | [] => [x]
  | y :: t => if x.2 < y.2 then x :: y :: t else y :: addThief x t

/-- A core that may steal sends a request to its next victim over the steal network (R92, R213, R214); while it is rerouted,
nothing enters it (R429). -/
def State.sendSteal (s : State) (c : CoreId) : State :=
  if s.rerouting then s
  else match s.nextVictim c 134 (s.core c).sweep with
  | none => s
  | some (v, k) =>
    let s1 := s.setCore c { s.core c with stealing := true, sweep := k }
    let y := s1.core (coreNo v)
    let t := max 1 (s.stealTime (s.coreRouter c) (s.coreRouter (coreNo v)))
    s1.setCore (coreNo v) { y with thieves := addThief (c.val, s.ck + t) y.thieves }

/-- A victim's reply to a thief. -/
def State.replySteal (s : State) (v : CoreId) (t : Nat) (r : Option TaskRec) : State :=
  s.sendOnSteal (s.coreRouter v) (s.coreRouter (coreNo t)) 0 (.stealReply (coreNo t) r)

/-- The requests that arrive at a victim in this ck: they join its queue of 8, or are answered busy; a cluster in change
refuses them (R48, R214). The oldest is served, at most one in 4 ck. -/
def State.stealStep (s : State) (v : CoreId) : State :=
  let x := s.core v
  let here := x.thieves.filter (fun t => decide (t.2 ≤ s.ck))
  let chg := clmapChg (s.clmapAt (v.val / 8))
  let gone := if chg then here.filter (fun t => t.2 == s.ck) else here.drop 8
  let s1 := gone.foldl (fun (u : State) t => u.replySteal v t.1 none)
    (s.setCore v { x with thieves := x.thieves.filter (fun t => !gone.contains t) })
  if s.rerouting then s
  else if !(here.filter (fun t => !gone.contains t)).isEmpty && decide (x.serveAt ≤ s.ck) then s1.post (.stealRequest v) else s1

/-- `STEAL_REQUEST` (R214): the victim's oldest request is answered. -/
def execStealRequest (s : State) : Host.Outcome State Fault Refusal :=
  match s.event with
  | some (.stealRequest v) =>
    let x := s.core v
    match x.thieves with
    | [] => .next s
    | t :: rest =>
      if s.rerouting then .next s
      else match s.stealRec v (s.spilled v) with
      | .ok r u => .next ((u.setCore v { u.core v with thieves := rest, serveAt := s.ck + 4 }).replySteal v t.1 r)
      | .fault _ u => .next ((u.setCore v { u.core v with thieves := rest, serveAt := s.ck + 4 }).replySteal v t.1 none)
      | .wait w u => .next (match w with
        | .retry n => u.setCore v { u.core v with serveAt := n }
        | _ => u)
      | .stop f => .fault f
  | _ => .next s

/-- `STEAL_REPLY` (R213, R214): the sweep goes on, and a record starts on an idle slot or joins the thief's deque. -/
def execStealReply (s : State) : Host.Outcome State Fault Refusal :=
  match s.event with
  | some (.stealReply c r) =>
    let x := s.core c
    let s1 := s.setCore c { x with stealing := false, sweep := (x.sweep + 1) % 134 }
    match r with
    | none => .next s1
    | some rec =>
      if s.dead rec then .next s1
      else match s1.findSlot c Slot.isFree with
      | some i => .next (s1.startOn i rec)
      | none => let y := s1.core c; .next (s1.setCore c { y with deque := rec :: y.deque })
  | _ => .next s

/-! ### Budgets, pre-emption, user interrupts (R152, R220, R239, R406, R412) -/

/-- A boundary event of a slot: its handler is entered, or the fault escalates (R402, R407). -/
def State.boundaryFault (s : State) (i : SlotId) (cause : Nat) : State :=
  s.takeFault i { cause := cause, asy := true } (s.slot i).h.pc

/-- `BUDGET_OVERRUN` (R220): the fault is taken at the boundary; EN is cleared, so it is taken once. -/
def execBudgetOverrun (s : State) : Host.Outcome State Fault Refusal :=
  match s.event with
  | some (.budgetOverrun i) =>
    let s := s.noteUndo i
    let x := s.slot i
    .next ((s.setSlot i { x with budEn := false, budLeft := 0, due := x.due.filter (fun d => d != .budget) }).boundaryFault i 0x0D)
  | _ => .next s

/-- The user-interrupt trap of an overflowed queue (R152). -/
def State.queueOverflow (s : State) (i : SlotId) : State :=
  let s := s.noteUndo i
  let x := s.slot i
  (s.setSlot i { x with due := x.due.filter (fun d => d != .queueOverflow) }).boundaryFault i 0x1A

/-- QOV, EN and ACT of `k.uih` (R153). -/
def uihEN (u : Word) : Bool := bitsAt u 63 1 == 1
/-- ACT of `k.uih` (R153). -/
def uihACT (u : Word) : Bool := bitsAt u 62 1 == 1

/-- `USER_INTERRUPT_ENTRY` (R152): the oldest queued interrupt is taken. -/
def execUserInterruptEntry (s : State) : Host.Outcome State Fault Refusal :=
  match s.event with
  | some (.userInterruptEntry i) =>
    let s := s.noteUndo i
    let x := s.slot i
    match x.uiq with
    | [] => .next s
    | (xfer, uih) :: rest =>
      let u := setBits (setBits x.uih 0 18 (x.h.pc.toNat)) 62 1 1
      let h := { x.h.clearLoops with latch := none, pc := BitVec.ofNat 23 (bitsAt uih 0 18) }
      .next (s.setSlot i { x with h := h, uiSave := x.h.saveLoops, uih := u, xfer := xfer, uiq := rest })
  | _ => .next s

/-- `eret` from a user-interrupt handler (R152, R296). -/
def State.uiReturn (s : State) (i : SlotId) : State :=
  let x := s.slot i
  let h := x.h.restoreLoops x.uiSave
  s.setSlot i { x with h := { h with latch := none, pc := BitVec.ofNat 23 (bitsAt x.uih 0 18) }, uih := setBits x.uih 62 1 0 }

/-- The record of the running task goes to the head of its core's deque, and its slot becomes idle (R239). -/
def State.giveBack (s : State) (i : SlotId) : State :=
  match (s.slot i).task with
  | none => s
  | some r =>
    let s1 := s.abortTask i
    let c := s1.core (coreOf i)
    let x := s1.slot i
    let s2 : State := { s1 with aborted := s1.aborted ++ [(r, x.aborts, x.dataAborted)] }
    (s2.setSlot i x.retire).setCore (coreOf i) { c with deque := r :: c.deque }

/-- A waiting slot that a pre-emption suspends at once, or aborts (R412). -/
def Slot.yields (x : Slot) : Bool :=
  match x.wait with
  | .sync _ => true
  | .txn .. => true
  | .barrier .. => true
  | .idle => true
  | .post .. => true
  | .deque .. => true
  | .copyUnit => true
  | .change => true
  | .commit => x.spec == .speculative
  | _ => false

/-- `PREEMPTION_REQUEST` (R239, R412): a speculative task is aborted and its record goes back to the deque; any other
slot becomes suspended, with cause 0x1B in its saved `k.cause`; one whose instruction is to complete first keeps the request
due. -/
def execPreemptionRequest (s : State) : Host.Outcome State Fault Refusal :=
  match s.event with
  | some (.preemptionRequest i) =>
    let x := s.slot i
    let clear (u : State) : State :=
      let y := u.slot i
      u.setSlot i { y with due := y.due.filter (fun d => d != .preempt) }
    if x.st == .idle || x.st == .suspended then .next (clear s)
    else if x.speculative then .next (clear (s.giveBack i))
    else if x.st != .running && !x.yields then .next (s.setSlot i { x with due := x.due.filter (fun d => d != .preempt) ++ [.preempt] })
    else
      let s1 := s.returnPreload i
      let y := s1.slot i
      let c := causeWord (causeTEN y.h.cause) (causeACT y.h.cause) (causeTVEC y.h.cause) { cause := 0x1B, asy := true }
      let keep := match y.wait with
        | .post .. => y.wait
        | .barrier .. => y.wait
        | .deque .. => y.wait
        | _ => .none
      .next (clear ((s1.setSlot i { y with h := { y.h with cause := c, latch := none }, st := .suspended, wait := keep }).saveContext i))
  | _ => .next s

/-- `RESUMPTION` (R412): the slot continues at its saved PC; a wait instruction repeats its wait. -/
def execResumption (s : State) : Host.Outcome State Fault Refusal :=
  match s.event with
  | some (.resumption i) =>
    let x := s.slot i
    let h := { x.h with latch := none }
    if x.st != .suspended then .next s
    else match x.wait with
    | .barrier d b =>
      let s1 := s.setSlot i { x with h := h, st := .waiting }
      if ((s.domains.find d).map (fun y => decide (b < y.step))).getD true then
        .next ((s1.setSlot i { s1.slot i with pair := none }).complete i 0 0)
      else .next s1
    | .post .. => .next (s.setSlot i { x with h := h, st := .waiting })
    | .deque .. => .next (s.setSlot i { x with h := h, st := .waiting })
    | _ => .next (s.setSlot i { x with h := h, st := .running, wait := .none })
  | _ => .next s

/-! ### Arm entries (R151) -/

/-- The state of a sync word (R148), from its 128 bits. -/
structure SyncWord where
  err : Bool
  ov : Bool
  rsvd : Nat
  acnt : Nat
  bcnt : Nat
  gen : Nat
  atgt : Nat
  btgt : Nat
deriving DecidableEq, Repr

/-- A sync word from its 128 bits (R148). -/
def SyncWord.ofNat (n : Nat) : SyncWord :=
  let f (lo len : Nat) : Nat := n / 2 ^ lo % 2 ^ len
  { err := f 127 1 == 1, ov := f 126 1 == 1, rsvd := f 112 14, acnt := f 96 16, bcnt := f 64 32, gen := f 48 16,
    atgt := f 32 16, btgt := f 0 32 }

/-- The 128 bits of a sync word (R148). -/
def SyncWord.toNat (w : SyncWord) : Nat :=
  (if w.err then 2 ^ 127 else 0) + (if w.ov then 2 ^ 126 else 0) + w.rsvd * 2 ^ 112 + w.acnt * 2 ^ 96 + w.bcnt * 2 ^ 64
    + w.gen * 2 ^ 48 + w.atgt * 2 ^ 32 + w.btgt

/-- The word releases a waiter for generation G (R150). -/
def SyncWord.releases (w : SyncWord) (g : Nat) : Bool := w.err || decide ((w.gen + 2 ^ 16 - g % 2 ^ 16) % 2 ^ 16 < 2 ^ 15)

/-- The sync word at a physical address. -/
def State.syncAt (s : State) (pa : Nat) : SyncWord := SyncWord.ofNat (memNat s.mem pa 16)

/-- A record released by an arm entry goes to the head of the core's deque, unless there is no room (R151, R212). -/
def State.pushArmed (s : State) (c : CoreId) (a : Arm) : State :=
  match s.pushRec c a.task with
  | .ok true u =>
    let y := u.core c
    u.setCore c { y with arms := y.arms.erase a }
  | .wait w u => u.dequeWait c w
  | _ => s

/-- The arm entries of a core that have been released, pushed in the order of arming. -/
def State.pushDue (s : State) (c : CoreId) : State :=
  (s.core c).arms.foldl (fun u a => if a.due then u.pushArmed c a else u) s

/-- The arm entries of a core that the sync word at an offset releases (R150, R151). -/
def State.releaseArms (s : State) (c : CoreId) (off : Nat) : State :=
  let w := s.syncAt (s.palette c + off)
  let x := s.core c
  (s.setCore c { x with arms := x.arms.map (fun a =>
    if a.sync = off ∧ w.releases a.gen.toNat then { a with due := true } else a) }).pushDue c

/-- `ARM_ENTRY_PUSH` (R151): records held back by a full deque are pushed once an entry has freed. -/
def execArmEntryPush (s : State) : Host.Outcome State Fault Refusal :=
  match s.event with
  | some (.armEntryPush c) => .next (s.pushDue c)
  | _ => .next s

end Sys2Proof.Machine
end

