-- ==== Sys2Proof/Machine/Sync.lean ====
section
/-!
DEFINITION. Sync words, transaction barriers, arming and core barrier arrivals (spec/09_memory_instructions.md R323 to
R329; spec/04_copy_and_sync.md R148 to R155).
-/
namespace Sys2Proof.Machine

/-! ### Updates (R149, R155) -/

/-- `SyncUpdate` without its wakes: the word, and whether a phase ended (R149). -/
def SyncWord.update (w : SyncWord) (bytes arr : Nat) (err : Bool) : SyncWord × Bool :=
  if w.rsvd != 0 then ({ w with err := true }, false)
  else
    let b := w.bcnt + bytes
    let a := w.acnt + arr
    let w1 := { w with
      bcnt := min b 0xFFFFFFFF, acnt := min a 0xFFFF,
      ov := w.ov || decide (0xFFFFFFFF < b) || decide (0xFFFF < a), err := w.err || err }
    if w1.btgt ≤ w1.bcnt ∧ w1.atgt ≤ w1.acnt then
      ({ w1 with gen := (w1.gen + 1) % 2 ^ 16, bcnt := w1.bcnt - w1.btgt, acnt := w1.acnt - w1.atgt }, true)
    else (w1, false)

/-- The core whose palette holds a physical address, and the palette offset. -/
def State.paletteOf (s : State) (pa : Nat) : Option (CoreId × Nat) :=
  match s.phys pa with
  | .palette p off =>
    ((List.range 128).find? (fun n => s.clusterPresent n && clmapPhys (s.clmapAt n) == p / 8)).map
      (fun n => (coreNo (n * 8 + p % 8), off))
  | _ => none

/-- A user interrupt queued at a slot, or lost to a full queue (R152). -/
def State.queueUi (s : State) (i : SlotId) (xfer uih : Word) : State :=
  let x := s.slot i
  if x.uiq.length < 8 then
    let s1 := s.setSlot i { x with uiq := x.uiq ++ [(xfer, uih)] }
    if x.wait == .idle && uihEN x.uih then s1.complete i 0 0 else s1
  else s.setSlot i { x with uih := setBits x.uih 61 1 1, due := x.due ++ [.queueOverflow] }

/-- The waits that an update of a sync word at an offset of a core's palette ends (R297, R325). -/
def State.wakeSync (s : State) (c : CoreId) (pa : Nat) (phase : Bool) : State :=
  (List.range 4).foldl (fun u k =>
    let i := slotOf c k
    match (u.slot i).wait with
    | .sync p => if p = pa then u.wake i else u
    | .idle => if phase && (u.slot i).st == .waiting then u.complete i 0 0 else u
    | _ => u) s

/-- An update that a slot sent has been applied: with the last, a wait for them ends (R168, R169). -/
def State.applied (s : State) (i : SlotId) : State :=
  let x := s.slot i
  let s1 := s.setSlot i { x with out := x.out - 1 }
  if x.out ≤ 1 && x.wait == .updates then s1.wake i else s1

/-- The core of a copy. -/
def State.copyCore (s : State) (id : Nat) : CoreId := ((s.copies.find id).map (fun c => coreOf c.slot)).getD 0

/-- The sync word at a palette address has been updated: who waits for it is answered (R143, R169). -/
def State.answerUpdate (s : State) (pa : Nat) (ack : Option Reply) : State :=
  match ack with
  | some (.copy id k) =>
    s.send 1 ((pa - 0x200000000000) / 0x40000 / 8) (s.coreRouter (s.copyCore id)) 0 (.updateAcknowledgment id k)
  | some (.slot i) => s.applied i
  | none => s

/-- An update applied to the sync word at `pa` (R149, R151, R152). Only an update looks at the arms and the waits of the word: a
store that makes it release a generation is seen at its next update (log 118). -/
def State.applySync (s : State) (pa bytes arr : Nat) (err : Bool) (ui : Option (Nat × Nat × Nat)) : State :=
  let r := (s.syncAt pa).update bytes arr err
  let s1 := s.store pa (bytesOfNat 16 r.1.toNat) none
  match s.paletteOf pa with
  | none => s1
  | some (c, off) =>
    let s2 := (s1.releaseArms c off).wakeSync c pa r.2
    match ui with
    | some (slot, xid, uih) =>
      if r.2 then
        s2.queueUi (slotOf c slot) (BitVec.ofNat 64 (off * 2 ^ 32 + r.1.gen * 2 ^ 16 + xid)) (BitVec.ofNat 64 uih)
      else s2
    | none => s2

/-- The palette at an address belongs to a cluster in change (R48). -/
def State.changing (s : State) (pa : Nat) : Bool :=
  match s.paletteOf pa with
  | some (c, _) => clmapChg (s.clmapAt (c.val / 8))
  | none => false

/-- `SYNC_UPDATE` (R149, R151, R152): the palette applies the update, pushes armed records, queues the interrupt and
wakes waiting slots; who waits for it is answered. An update that loses its bank, or that meets a cluster in change, comes
again (R48, R62), as does one to a line that a commit has claimed (R180). -/
def execSyncUpdate (s : State) : Host.Outcome State Fault Refusal :=
  match s.event with
  | some (.syncUpdate pa bytes arr err ui ack) =>
    let e : Event := .syncUpdate pa bytes arr err ui ack
    let r := s.takeBanks (.event e) pa 16
    if s.changing pa then .next (s.after 1 e)
    else if s.claimed pa 16 then .next (s.after 16 e)
    else if r.1 then .next ((r.2.applySync pa bytes arr err ui).answerUpdate pa ack)
    else .next (r.2.after 1 e)
  | _ => .next s

/-- `TRANSACTION_BARRIER_UPDATE` (R155): the slice applies the update under one stamp, or refuses it for a later try
(R77 to R79). -/
def execTransactionBarrierUpdate (s : State) : Host.Outcome State Fault Refusal :=
  match s.event with
  | some (.transactionBarrierUpdate pa bytes arr err src) =>
    let e : Event := .transactionBarrierUpdate pa bytes arr err src
    match (s.underway e).answer (.event e) ⟨.slice, pa, none, false⟩ 16 true with
    | .refuse h resv => .next ((s.snoopHost pa 16 true).refuseEvent e pa none h resv
        ((src.map (fun x => 2 * s.meshTime (s.coreRouter (coreOf x.1)) (sliceRouter (sliceOf pa)))).getD 0))
    | .serve =>
      let s1 := (s.closeReq (.event e) pa).store pa (bytesOfNat 16 ((s.syncAt pa).update bytes arr err).1.toNat) none
      .next (match src with
        | some (i, _) => s1.applied i
        | none => s1)
  | _ => .next s

/-! ### Addresses -/

/-- The sync word that a local-window address names (R10, R134, R323): 16-byte aligned, in the scratch of a palette. -/
def State.syncAim (s : State) (me : CoreId) (va : Nat) (kind : Kind) : Except FaultInfo (CoreId × Nat) :=
  let bad (c : Nat) : FaultInfo := { cause := c, kind := kind.num, faddr := va }
  if va % 16 != 0 then .error (bad 0x05)
  else if 2 ^ 55 ≤ va then .error (tfault 0x0A 1 0 kind va)
  else if !inWindow va then .error (bad 0x06)
  else
    let o := va % 2 ^ 48
    let place : Option (CoreId × Nat) :=
      if o < 0x40000 then some (me, o)
      else if 0x10000000 ≤ o ∧ o < 0x20000000 then some (coreNo ((o - 0x10000000) / 0x40000), o % 0x40000)
      else none
    match place with
    | none => .error (bad 0x06)
    | some (c, off) =>
      if c != me && !s.clusterPresent (c.val / 8) then .error (tfault 0x0A 7 0 kind va)
      else if partV (s.core c).part && decide (partSCRB (s.core c).part ≤ off) then .ok (c, off)
      else .error (bad 0x06)

/-- A transaction barrier's address checked for an access kind (R324, R326). -/
def State.txnAim (s : State) (i : SlotId) (va : Nat) (kind : Kind) : Res Dest :=
  match misaligned va 16 kind with
  | some f => .fault f s
  | none =>
    if inWindow va && decide (va < 2 ^ 55) then .fault (tfault 0x0B 5 0 kind va) s
    else (s.aimed i va 16 kind).bind fun d s =>
      if d.place == .device then .fault (tfault 0x0B 5 0 kind va) s else .ok d s

/-- An update's fields in `gb` (R323): reserved bits, error flag, arrivals and bytes. -/
def updReserved (x : Word) : Bool := bitsAt x 49 15 != 0

/-! ### `sadd`, `xbar.arr`, `swait`, `twait` -/

/-- A slot has sent one update more. -/
def State.sentOne (s : State) (i : SlotId) : State :=
  let x := s.slot i
  s.setSlot i { x with out := x.out + 1 }

/-- The update of a sync word sent by a slot (R64, R323). -/
def State.sendSync (s : State) (i : SlotId) (c : CoreId) (off : Nat) (x : Word) : State :=
  (s.sentOne i).send 0 (s.coreRouter (coreOf i)) (s.coreRouter c) 0
    (.syncUpdate (s.palette c + off) (bitsAt x 0 32) (bitsAt x 32 16) (bitsAt x 48 1 == 1) none (some (.slot i)))

/-- The update of a transaction barrier sent by a slot (R64, R324). -/
def State.sendTxn (s : State) (i : SlotId) (va pa : Nat) (x : Word) : State :=
  (s.sentOne i).send 0 (s.coreRouter (coreOf i)) (sliceRouter (sliceOf pa)) 0
    (.transactionBarrierUpdate pa (bitsAt x 0 32) (bitsAt x 32 16) (bitsAt x 48 1 == 1) (some (i, va)))

/-- `sadd.s ga, gb` (R323): a release, so it waits for the slot's earlier updates (R199). -/
def execSadd (_s : Scope) (a b : Reg) (s : State) : Host.Outcome State Fault Refusal :=
  onSlot s fun i =>
    match s.syncAim (coreOf i) (s.g a).toNat .write with
    | .error f => .next (s.raiseFault s.cur f)
    | .ok (c, off) =>
      if updReserved (s.g b) then .next (s.raiseFault s.cur { cause := 0x01 })
      else if c != coreOf i && clmapChg (s.clmapAt (c.val / 8)) then .next (s.park s.cur .change)
      else if (s.slot i).speculative then
        .next ((s.hold i (.sadd _s a b) (BitVec.ofNat 64 c.val) (BitVec.ofNat 64 off) (s.g b)).done s.cur)
      else settled s i (.next ((s.sendSync i c off (s.g b)).done s.cur))

/-- `xbar.arr.s ga, gb` (R324): a release, so it waits for the slot's earlier updates (R199). -/
def execXbarArr (_s : Scope) (a b : Reg) (s : State) : Host.Outcome State Fault Refusal :=
  onSlot s fun i =>
    finish s s.cur ((s.txnAim i (s.g a).toNat .atomic).bind fun d t =>
      if d.sld then .fault { cause := 0x09, kind := 3, faddr := (s.g a).toNat } t
      else if updReserved (s.g b) then .fault { cause := 0x01 } t
      else if (t.slot i).speculative then
        let x := t.slot i
        .ok () (t.setSlot i { x with held := x.held ++ [⟨.xbarArr _s a b, BitVec.ofNat 64 d.pa, s.g a, s.g b, none, d.page⟩] })
      else if (t.slot i).out != 0 then .wait .updates t
      else .ok () (t.sendTxn i (s.g a).toNat d.pa (s.g b)))

/-- `swait ga, gb` (R325): continues when the word releases the generation; a slot of another core polls, and a cluster in
change refuses its read (R48). -/
def execSwait (a b : Reg) (s : State) : Host.Outcome State Fault Refusal :=
  onSlot s fun i =>
    match s.syncAim (coreOf i) (s.g a).toNat .read with
    | .error f => .next (s.raiseFault s.cur f)
    | .ok (c, off) =>
      let pa := s.palette c + off
      if (s.slot i).speculative then .next (s.park s.cur .commit)
      else if c != coreOf i && clmapChg (s.clmapAt (c.val / 8)) then
        finish s s.cur (s.refuse s.cur pa (s.g a).toNat none .again (some 255) false)
      else
        if (s.syncAt pa).releases (bitsAt (s.g b) 0 16) then .next (s.done s.cur)
        else
          let s1 := s.park s.cur (.sync pa)
          .next (if c = coreOf i then s1 else s1.rearm 32 (.swaitPoll i))

/-- `SWAIT_POLL` (R325): the slot reads the word afresh. -/
def execSwaitPoll (s : State) : Host.Outcome State Fault Refusal :=
  match s.event with
  | some (.swaitPoll i) =>
    match (s.slot i).wait with
    | .sync _ => .next (s.wake i)
    | _ => .next s
  | _ => .next s

/-- The watches that a slice holds (R326). -/
def State.watches (s : State) (slice : Nat) : Nat :=
  (s.slots.filter (fun p => match p.2.wait with
    | .txn q true => sliceOf q == slice
    | _ => false)).length

/-- `twait ga, gb` (R326). -/
def execTwait (a b : Reg) (s : State) : Host.Outcome State Fault Refusal :=
  onSlot s fun i =>
    let r : Res Unit := (s.txnAim i (s.g a).toNat .read).bind fun d s =>
      if (s.slot i).speculative then .wait .commit s
      else (s.readAt i d (s.g a).toNat 16 .again).bind fun bytes s =>
        if (SyncWord.ofNat (natOfBytes bytes)).releases (bitsAt (s.g b) 0 16) then .ok () s
        else
          let free := decide (s.watches (sliceOf d.pa) < 64)
          .wait (.txn d.pa free) (if free then s else s.rearm 256 (.twaitRetry i))
    finish s s.cur r

/-- `TWAIT_RETRY` (R326): without a free watch, the slot reads again after 256 ck. -/
def execTwaitRetry (s : State) : Host.Outcome State Fault Refusal :=
  match s.event with
  | some (.twaitRetry i) =>
    match (s.slot i).wait with
    | .txn _ false => .next (s.wake i)
    | _ => .next s
  | _ => .next s

/-! ### `sarm` (R327) -/

/-- A record armed on a sync word and generation of the core's own palette (R327): its status. -/
def State.armRec (s : State) (i : SlotId) (d : Reg) (off g : Nat) (r : TaskRec) : Host.Outcome State Fault Refusal :=
  let c := coreOf i
  if (s.syncAt (s.palette c + off)).releases g then s.createPush i d 1 r
  else
    let x := s.core c
    if x.arms.length < 16 then
      .next (((s.setCore c { x with arms := x.arms ++ [⟨off, BitVec.ofNat 16 g, s.linked i r, false⟩] }).wg s.cur d 0).done s.cur)
    else .next ((s.wg s.cur d 2).done s.cur)

/-- `sarm gd, ga, gb` (R327). -/
def execSarm (d a b : Reg) (s : State) : Host.Outcome State Fault Refusal :=
  onSlot s fun i =>
    let va := (s.g a).toNat
    if va % 16 != 0 then .next (s.raiseFault s.cur { cause := 0x05, kind := 3, faddr := va })
    else match s.ownScratch (coreOf i) va 16 with
    | none => .next (s.raiseFault s.cur (scratchFault .atomic va))
    | some off =>
      match s.readRecord i (s.g b).toNat with
      | .fault f t => .next (t.raiseFault s.cur f)
      | .wait w t => .next (t.park s.cur w)
      | .stop f => .fault f
      | .ok w t =>
        match t.recordFault i w with
        | some f => .next (t.raiseFault s.cur f)
        | none =>
          let r := TaskRec_ofWords w
          let g := bitsAt (s.g d) 0 16
          if (t.slot i).speculative then
            let x := t.slot i
            let e : Held := ⟨.sarm d a b, BitVec.ofNat 64 off, BitVec.ofNat 64 g, 0, some (t.linked i r), none⟩
            .next (((t.setSlot i { x with held := x.held ++ [e] }).wg s.cur d deferred).done s.cur)
          else t.armRec i d off g r

/-! ### Core barrier arrivals (R328, R329) -/

/-- The domain that an instruction names: of the launch, with V = 1 and CARR nonzero (R328). -/
def State.coreDomain (s : State) (i : SlotId) (d : Nat) : Option Domain :=
  match s.domains.find d with
  | some x => if some x.lid == (s.core (coreOf i)).lid && x.ent[0].getLsbD 63 && x.carr != 0 then some x else none
  | none => none

/-- The place in the list of arrivals of the oldest unreleased barrier with room (R328). -/
def openBarrier (carr : Nat) : List Nat → Nat
  | [] => 0
  | n :: t => if n < carr then 0 else 1 + openBarrier carr t

/-- One more arrival at place `k`. -/
def addArrival : Nat → List Nat → List Nat
  | 0, [] => [1]
  | 0, n :: t => (n + 1) :: t
  | k + 1, [] => 0 :: addArrival k []
  | k + 1, n :: t => n :: addArrival k t

/-- A core arrival at a domain, and the pair that its slot records (R328). -/
def State.arriveCore (s : State) (i : SlotId) (d : Nat) (x : Domain) : State :=
  let k := openBarrier x.carr x.coreArr
  let s1 := { s with domains := s.domains.put d { x with coreArr := addArrival k x.coreArr } }
  s1.setSlot i { s1.slot i with pair := some (d, x.step + k) }

/-- `bar.arr ga` (R328): a release, so it waits for the slot's earlier updates (R192, R199). -/
def execBarArr (a : Reg) (s : State) : Host.Outcome State Fault Refusal :=
  onSlot s fun i =>
    let v := s.g a
    if bitsAt v 6 58 != 0 then .next (s.raiseFault s.cur { cause := 0x01 })
    else match s.coreDomain i (bitsAt v 0 6) with
    | none => .next (s.raiseFault s.cur { cause := 0x14 })
    | some x =>
      if (s.slot i).speculative then .next ((s.hold i (.barArr a) v 0 0).done s.cur)
      else settled s i (.next ((s.arriveCore i (bitsAt v 0 6) x).done s.cur))

/-- `bar.wait ga` (R329). -/
def execBarWait (a : Reg) (s : State) : Host.Outcome State Fault Refusal :=
  onSlot s fun i =>
    let v := s.g a
    let d := bitsAt v 0 6
    if bitsAt v 6 58 != 0 then .next (s.raiseFault s.cur { cause := 0x01 })
    else match s.coreDomain i d with
    | none => .next (s.raiseFault s.cur { cause := 0x14 })
    | some x =>
      let y := s.slot i
      if y.speculative then .next (s.park s.cur .commit)
      else match y.pair with
      | some (d', b) =>
        if d' = d then
          (if b < x.step then .next ((s.setSlot i { y with pair := none }).done s.cur) else .next (s.park s.cur (.barrier d b)))
        else .next (s.park s.cur (.barrier d x.step))
      | none => .next (s.park s.cur (.barrier d x.step))

end Sys2Proof.Machine
end

