-- ==== Sys2Proof/Machine/SliceEvents.lean ====
section
/-!
DEFINITION. The events of slices, walkers and translation caches (spec/02_memory_hierarchy.md R62, R70, R74 to R79, R100,
R494; spec/01_address_spaces.md R26, R35 to R45; spec/13_links_and_host.md R456).
-/
namespace Sys2Proof.Machine

/-! ### Requests (R62, R70, R77 to R79, R315) -/

/-- The place that a physical address names, for a request of a slot. -/
def State.placeOf (s : State) (i : SlotId) (pa : Nat) : Place :=
  match s.phys pa with
  | .scratch _ _ => .scratch
  | .palette p _ =>
    match (List.range 1024).find? (fun c => s.clusterPresent (c / 8) && s.physCore (coreNo c) == p) with
    | some c => .palette (coreNo c) (decide (coreNo c = coreOf i))
    | none => .palette (coreOf i) true
  | .tileMem t _ => .tileMem (Fin.ofNat 128 t)
  | .device => .device
  | _ => .slice

/-- A request whose place has accepted it keeps no reservation (R79). -/
def State.acceptReq (s : State) (id : Nat) (q : Req) : State :=
  ({ s with reqs := s.reqs.put id { q with reserved := false, claimed := false, kept := false } }.grantClaim q.slice).answerKept (q.pa / 256)

/-- The response of a place to a slot: at once from a slice (log 5), and over the mesh from a palette or a tile (R64, R493). -/
def State.respond (s : State) (i : SlotId) (id : Nat) (q : Req) (x : Word) (flags : BitVec 7) : State :=
  let me := s.coreRouter (coreOf i)
  let e : Event := .responseArrival id x flags
  match s.phys q.pa with
  | .palette p _ => s.send 1 (p / 8) me 0 e
  | .tileMem t _ => s.send 1 (tileRouter t) me 4 e
  | _ => s.post e

/-- Where a request of a slot goes (R161), and whether it lies in a sealed range (R157). -/
def State.destOf (s : State) (i : SlotId) (q : Req) : Dest :=
  ⟨s.placeOf i q.pa, q.pa, q.page, (q.page.map (fun p => s.sealedAt p.asid q.va)).getD false⟩

/-- The place performs a request of a slot, and answers it (R74, R75, R315); an instruction that translates and checks its
access anew is issued again. -/
def State.performReq (s : State) (i : SlotId) (id : Nat) (q : Req) : State :=
  match q.op with
  | .again => s.wake i
  | .load _ n signed =>
    if s.marked q.pa n && !covered (if (s.slot i).speculative then (s.slot i).buf else []) q.pa n then (s.endReq id).raiseFault (.slot i) { cause := 0x13, kind := 1, faddr := q.va }
    else
      let v := natOfBytes (overlay (if (s.slot i).speculative then (s.slot i).buf else []) q.pa (s.read q.pa n))
      let d := s.destOf i q
      (((s.acceptReq id q).recordRead i d n).replicaUse (coreOf i) d q.va n).respond i id q
        (if signed then sext64 (8 * n) v else BitVec.ofNat 64 v) 0
  | .store bytes => ((s.acceptReq id q).placeWrite q.pa (bytes.map some) (some i)).respond i id q 0 0
  | .atom op w _ b dIn =>
    if s.marked q.pa (amoBytes op w) then (s.endReq id).raiseFault (.slot i) { cause := 0x13, kind := 3, faddr := q.va }
    else
      let r := (s.acceptReq id q).amoAt q.pa op w b dIn (some i)
      r.1.respond i id q r.2.1 r.2.2

/-- The slot of a request, while it still waits for it. -/
def State.waiter (s : State) (id : Nat) (q : Req) : Option SlotId :=
  match q.who with
  | .agent (.slot i) => if (s.slot i).wait = .request id then some i else none
  | _ => none

/-- KIND of a request (R403). -/
def ReqOp.kind : ReqOp → Nat
  | .store _ => 2
  | .atom .. => 3
  | _ => 1

/-- A fault of a request at its place (R17, R28). -/
def State.reqFault (s : State) (i : SlotId) (id : Nat) (q : Req) (cause synd : Nat) : State :=
  (s.endReq id).raiseFault (.slot i) { cause := cause, synd := synd, kind := q.op.kind, faddr := q.va }

/-- A request arrives at its slice: it is performed, kept, or refused (R74, R77 to R79). -/
def State.serveReq (s : State) (id : Nat) (q : Req) (i : SlotId) : State :=
  match s.answer q.who (s.destOf i q) q.op.size q.op.isWrite with
  | .serve => s.performReq i id q
  | .refuse h resv =>
    let s1 := s.snoopHost q.pa q.op.size q.op.isWrite
    let s2 := if resv then s1.startFill (q.pa / 256) q.op.isWrite else s1
    if q.reserved && resv then { s2 with reqs := s2.reqs.put id { q with kept := true } } else s2.refusal id q h resv

/-- A request comes again (R78): a slice performs it or refuses it once more, a window or another core's palette receives
it over the mesh, and a copy unit's is made anew with its copy. While the mesh is rerouted, the routers refuse it (R429). -/
def State.againReq (s : State) (id : Nat) (q : Req) : State :=
  match q.who with
  | .unit k =>
    (match s.copies.find k with
      | some c => { s with copies := s.copies.put k { c with refused := false } }
      | none => s.endReq id)
  | .event e => s.post e
  | .engine _ => s.endReq id
  | .agent _ =>
    match s.waiter id q with
    | none => s.endReq id
    | some i =>
      match q.op with
      | .again => s.wake i
      | _ =>
        if s.rerouting && !(s.placeOf i q.pa).own then s.refusal id q (some 255) false
        else match s.placeOf i q.pa with
        | .palette c _ => s.send 0 (s.coreRouter (coreOf i)) (s.coreRouter c) 0 (.remotePaletteAccess id)
        | .tileMem t => s.send 0 (s.coreRouter (coreOf i)) (tileRouter t.val) 4 (.windowPortServe id)
        | _ => s.serveReq id q i

/-- `SLICE_REQUEST` (R74, R77 to R79): a slice answers a request that it has kept. -/
def execSliceRequest (s : State) : Host.Outcome State Fault Refusal :=
  match s.event with
  | some (.sliceRequest id) =>
    match s.reqs.find id with
    | none => .next s
    | some q => .next (s.againReq id q)
  | _ => .next s

/-- `REQUEST_RETRY` (R78): the requester sends the request again. -/
def execRequestRetry (s : State) : Host.Outcome State Fault Refusal :=
  match s.event with
  | some (.requestRetry id) =>
    match s.reqs.find id with
    | none => .next s
    | some q => .next (s.againReq id q)
  | _ => .next s

/-- `RESPONSE_ARRIVAL` (R315): the register is written, returned flags are set, and the instruction completes. -/
def execResponseArrival (s : State) : Host.Outcome State Fault Refusal :=
  match s.event with
  | some (.responseArrival id x flags) =>
    match s.reqs.find id with
    | none => .next s
    | some q =>
      match s.waiter id q with
      | none => .next (s.endReq id)
      | some i =>
        let d : Reg := match q.op with
          | .load d _ _ => d
          | .atom _ _ d _ _ => d
          | _ => 0
        .next (((s.endReq id).raise (.slot i) flags).complete i d x)
  | _ => .next s

/-- `REMOTE_PALETTE_ACCESS` (R62): an access that came over the mesh is served at its bank, or contends again in the next
ck; a cluster in change, or a commit that has claimed the line, refuses it (R48, R180). -/
def execRemotePaletteAccess (s : State) : Host.Outcome State Fault Refusal :=
  match s.event with
  | some (.remotePaletteAccess id) =>
    match s.reqs.find id with
    | none => .next s
    | some q =>
      match s.waiter id q with
      | none => .next (s.endReq id)
      | some i =>
        let chg := match s.placeOf i q.pa with
          | .palette c own => !own && clmapChg (s.clmapAt (c.val / 8))
          | _ => false
        let back := s.meshTime (q.pa % 2 ^ 28 / 2 ^ 21) (s.coreRouter (coreOf i))
        if chg then .next (s.refusal id q (some 255) false back)
        else if s.claimed q.pa q.op.size then .next (s.refusal id q (some 2) false back)
        else
          let r := s.takeBanks q.who q.pa q.op.size
          if r.1 then .next (r.2.performReq i id q) else .next (r.2.after 1 (.remotePaletteAccess id))
  | _ => .next s

/-- `WINDOW_PORT_SERVE` (R17, R70, R180): a window access is served when its bank is free; else the port holds it, if it has room,
or refuses it; a held one is refused once the window is closed. -/
def execWindowPortServe (s : State) : Host.Outcome State Fault Refusal :=
  match s.event with
  | some (.windowPortServe id) =>
    match s.reqs.find id with
    | none => .next s
    | some q =>
      match s.waiter id q, s.phys q.pa with
      | some i, .tileMem t off =>
        let ti : TileId := Fin.ofNat 128 t
        let x := s.tile ti
        let gone := s.setTile ti { x with port := x.port.erase id }
        let back := s.meshTime (tileRouter t) (s.coreRouter (coreOf i)) + 4
        (match s.windowTest t off q.op.size with
          | .refuse h => .next (gone.refusal id q (some h) false back)
          | .fault c y => .next (gone.reqFault i id q c y)
          | .ok =>
            let d : Dest := ⟨.tileMem ti, q.pa, none, false⟩
            if s.claimed q.pa q.op.size then .next (gone.refusal id q (some 2) false back)
            else if !s.portBusy d q.op.size then .next ((gone.takePort d q.op.size).performReq i id q)
            else if x.port.contains id then .next s
            else if x.port.length < 8 then .next (s.setTile ti { x with port := x.port ++ [id] })
            else .next (s.refusal id q (some 0) false back))
      | _, _ => .next (s.endReq id)
  | _ => .next s

/-! ### Fills and HBM slots (R77, R96 to R100, R494) -/

/-- The granules of a fill over CXL whose data carries poison are marked (R419, R456). -/
def State.poisonFill (s : State) (line : Nat) : State :=
  if s.phys (line * 256) == .hbm then s
  else { s with marks := ((List.range 4).filter (fun k => Config.poison s.ck (4 * line + k))).foldl (fun l k => insertNat (4 * line + k) l) s.marks }

/-- `L2_FILL` (R494, R456): a fill has come, or a line has been written back: the line is ready, or its way is free, and the
requests that its slice keeps are answered. -/
def execL2Fill (s : State) : Host.Outcome State Fault Refusal :=
  match s.event with
  | some (.l2Fill line) =>
    match s.lines.find line with
    | some l =>
      (match l.st with
        | .filling => .next ({ s.poisonFill line with lines := s.lines.put line { l with st := .ready } }.answerKept line)
        | .writing => .next ({ s with lines := s.lines.del line }.answerKept line)
        | _ => .next s)
    | none => .next s
  | _ => .next s

/-- `HBM_DYNAMIC_SLOT` (R100, R494): refresh or row management takes the slot, or the pseudo-channel serves a write, whose
way is then free, or a read, which comes to its slice 120 + 24 ck later. -/
def execHbmDynamicSlot (s : State) : Host.Outcome State Fault Refusal :=
  match s.event with
  | some (.hbmDynamicSlot p) =>
    match s.hbmQ.find p with
    | none => .next s
    | some x =>
      if Config.housekeeping p (s.ck / 16) then .next { s with hbmQ := s.hbmQ.put p { x with rows := [] } }
      else match x.serve with
      | none => .next s
      | some (line, write, y) =>
        let s1 : State := { s with hbmQ := s.hbmQ.put p y }
        if write then
          match s1.lines.find line with
          | some l => .next (if l.st = .writing then { s1 with lines := s1.lines.del line }.answerKept line else s1)
          | none => .next s1
        else .next (s1.after 144 (.l2Fill line))
  | _ => .next s

/-! ### Walks (R26, R31, R42, R420) -/

/-- The access kind of a number (R403). -/
def kindOf : Nat → Kind
  | 1 => .read | 2 => .write | 3 => .atomic | _ => .code

/-- The launch of an agent. -/
def State.lidOf (s : State) : Agent → Option Nat
  | .slot i => (s.core (coreOf i)).lid
  | .tile t => (s.tile t).lid

/-- The die of an agent: a tile's by its number (R85), a core's by its physical core. -/
def State.dieOfAgent (s : State) : Agent → Nat
  | .slot i => s.dieOf (coreOf i)
  | .tile t => t.val / 64

/-- What an agent waits for. -/
def State.waitOf (s : State) : Agent → Wait
  | .slot i => (s.slot i).wait
  | .tile t => (s.tile t).wait

/-- The agent's instruction is issued anew. -/
def State.reissue (s : State) (ag : Agent) : State :=
  match ag with
  | .slot i => s.wake i
  | .tile t => s.setTile t { s.tile t with wait := .none }

/-- The walker of a die is done with an agent's walk. -/
def State.endWalk (s : State) (ag : Agent) : State := { s with walks := s.walks.filter (fun w => w.2 != ag) }

/-- An invalidation holds a lookup back (R35): the agent waits, and has no access in flight meanwhile. -/
def State.parkLookup (s : State) (ag : Agent) (id va : Nat) (kind : Kind) : State :=
  (match ag with
    | .slot _ => s.dropReqs (fun q => q.who == Requester.agent ag)
    | .tile _ => s).park ag (.inval id va kind.num)

/-- The die TLB has been consulted for an agent (R31, R494): a hit fills the micro-TLB too (log 99), and a miss starts a walk,
once one of the 32 of the die's walker is free. -/
def State.lookDie (s : State) (ag : Agent) (va : Nat) (kind : Kind) : State :=
  let ctx := s.ctxOf (s.lidOf ag)
  let die := s.dieOfAgent ag
  match s.dieLookup die ctx kind va with
  | .fault f => s.raiseFault ag f
  | .blocked id => s.parkLookup ag id va kind
  | .ok .. =>
    (match s.dieEntry die ctx kind va with
      | some e => (s.fillMicro ag e).reissue ag
      | none => s)
  | .miss =>
    if s.walksOf die < 32 then
      ({ s with walks := s.walks ++ [(die, ag)] } : State).after (s.walkTime die (s.walkAddrs ctx va)) (.pageWalk ag va kind.num 1)
    else s.after 1 (.pageWalk ag va kind.num 0)

/-- The last level of an agent's walk (R26, R494): an entry whose line is not in L2 is filled first, one level after the other;
the TLBs are filled, the fault is raised, or the walk is repeated (R42). -/
def State.walkFor (s : State) (ag : Agent) (va : Nat) (kind : Kind) : State :=
  let ctx := s.ctxOf (s.lidOf ag)
  match (s.walkAddrs ctx va).find? (fun ea => s.lineAnswer (ea / 256) false != .serve) with
  | some ea => (s.startFill (ea / 256)).after 1 (.pageWalk ag va kind.num 1)
  | none =>
  match s.walkTo ctx kind true va with
  | .fault f => (s.endWalk ag).raiseFault ag f
  | .blocked id => (s.endWalk ag).parkLookup ag id va kind
  | .wait n u => if n = 1 then u.after 1 (.pageWalk ag va kind.num 1) else (u.endWalk ag).after n (.walkRetry ag va kind.num)
  | .leaf e _ u => (((u.endWalk ag).fillDie (s.dieOfAgent ag) e).fillMicro ag e).reissue ag

/-- `PAGE_WALK` (R26, R31, R494). -/
def execPageWalk (s : State) : Host.Outcome State Fault Refusal :=
  match s.event with
  | some (.pageWalk ag va kind read) =>
    .next (if s.waitOf ag != .walk va then s.endWalk ag
      else if read = 0 then s.lookDie ag va (kindOf kind) else s.walkFor ag va (kindOf kind))
  | _ => .next s

/-- `WALK_RETRY` (R42): the walk begins again from the root. -/
def execWalkRetry (s : State) : Host.Outcome State Fault Refusal :=
  match s.event with
  | some (.walkRetry ag va kind) => .next (if s.waitOf ag != .walk va then s else s.lookDie ag va (kindOf kind))
  | _ => .next s

/-! ### CXL (R43 to R45, R201, R419, R456) -/

/-- `BIRSP` (R43): the host gives up a 64-byte line; the slice's line is ready once no BIRsp is awaited, and a victim may be
filled again (log 41). -/
def execBirsp (s : State) : Host.Outcome State Fault Refusal :=
  match s.event with
  | some (.birsp line k) =>
    let m := ~~~(1#4 <<< k)
    match s.gone.find line, s.lines.find line with
    | some g, _ => .next { s with gone := if g &&& m = 0 then s.gone.del line else s.gone.put line (g &&& m) }
    | none, none => .next s
    | none, some l =>
      let asked := l.asked &&& m
      let l' := { l with hostHeld := l.hostHeld &&& m, asked := asked,
                         st := if l.st == .birsp && asked == 0 then .ready else l.st }
      let s1 : State := { s with lines := s.lines.put line l' }
      .next (if l'.st == .ready then s1.answerKept line else s1)
  | _ => .next s

/-- A line that must wait before an agent outside takes it: pinned, tentative or in flight (R44, R456). -/
def State.lineHeld (s : State) (line : Nat) : Bool :=
  match s.lines.find line with
  | some l => l.pins != 0 || s.tentAt line || l.st != .ready
  | none => s.tentAt line

/-- A slice gives up its copy of a line to an agent outside: a line that must wait, or that no way is free to write back,
delays the answer (R44, R456). -/
def State.giveUp (s : State) (line : Nat) (e : Event) : State :=
  if s.lineHeld line || (((s.lines.find line).map Line.dirty).getD false && s.setBusy line) then s.after 1 e
  else s.dropLine line true

/-- `BISNP` (R44): the slice's copy of a second-tier line is written back and dropped, or the answer is delayed. -/
def execBisnp (s : State) : Host.Outcome State Fault Refusal :=
  match s.event with
  | some (.bisnp line) => .next (if s.phys (line * 256) != .tier2 then s else s.giveUp line (.bisnp line))
  | _ => .next s

/-- `HOST_SNOOP` (R45, R456): the slice's copy of a host line is written back and dropped once it is not pinned. -/
def execHostSnoop (s : State) : Host.Outcome State Fault Refusal :=
  match s.event with
  | some (.hostSnoop line) => .next (if s.phys (line * 256) != .host then s else s.giveUp line (.hostSnoop line))
  | _ => .next s

/-- An access of the host to a line of HBM: its slice serves it, or refuses it as any request (R77 to R79). -/
def State.hostAccess (s : State) (e : Event) (pa : Nat) (writes : Bool) (k : State → State) : State :=
  match s.lineAnswer (pa / 256) writes with
  | .serve => if s.mayServe (.event e) pa then k (s.closeReq (.event e) pa) else s.refuseEvent e pa none none true
  | .refuse h resv => s.refuseEvent e pa none h resv

/-- `CXL_MEM_WRITE` (R201): a host write to HBM takes effect at its slice under a stamp. -/
def execCxlMemWrite (s : State) : Host.Outcome State Fault Refusal :=
  match s.event with
  | some (.cxlMemWrite pa data) =>
    .next (if s.phys pa != .hbm || data.length != 64 || pa % 64 != 0 then s
      else s.hostAccess (.cxlMemWrite pa data) pa true (fun u => u.store pa data none))
  | _ => .next s

/-- The host may hold a 64-byte line from now on (R43). -/
def State.hostHolds (s : State) (pa : Nat) : State :=
  match s.lines.find (pa / 256) with
  | some l => { s with lines := s.lines.put (pa / 256) { l with hostHeld := l.hostHeld ||| (1#4 <<< (pa % 256 / 64)) } }
  | none => s

/-- `CXL_MEM_READ` (R43): a host read of a 64-byte line of HBM is served at its slice, with the poison that it
carries, and the host may hold the line from then on (R456). -/
def execCxlMemRead (s : State) : Host.Outcome State Fault Refusal :=
  match s.event with
  | some (.cxlMemRead pa) =>
    .next (if s.phys pa != .hbm then s else s.hostAccess (.cxlMemRead pa) pa false (fun u =>
      { u.hostHolds pa with cxlOut := u.cxlOut ++ [.memData (pa / 64 * 64) (u.read (pa / 64 * 64) 64) (u.marked (pa / 64 * 64) 64)] }))
  | _ => .next s

/-- `ECC_UNCORRECTABLE` (R419, R432): the granule's mark is set, and a memory error is logged. -/
def execEccUncorrectable (s : State) : Host.Outcome State Fault Refusal :=
  match s.event with
  | some (.eccUncorrectable none g) => .next { s with marks := insertNat g s.marks, errors := s.errors ++ [(none, 64 * g)] }
  | some (.eccUncorrectable (some t) g) =>
    let x := s.tile t
    .next (({ s with errors := s.errors ++ [(some t, g)] } : State).setTile t { x with accMarks := insertNat g x.accMarks })
  | _ => .next s

/-! ### Invalidations (R35 to R40) -/

/-- The invalidation covers the page of a translation. -/
def Inval.coversPage (v : Inval) (p : PageTag) : Bool := v.covers p.asid p.glob p.va p.bits
/-- The invalidation covers a cached entry. -/
def Inval.coversEntry (v : Inval) (e : TlbEntry) : Bool := v.covers e.asid (pteBit e.leaf 8) e.va e.bits

/-- A buffered effect holds a covered store (R36). -/
def BufOp.page : BufOp → Option PageTag
  | .store _ _ p => p
  | .atom _ _ _ _ _ p => p

/-- The speculative tasks whose commit buffer, or whose held operations, hold a covered store (log 104). -/
def State.coveredTasks (s : State) (v : Inval) : List SlotId :=
  s.slots.filterMap (fun p =>
    if h : p.1 < 4096 then
      if p.2.speculative && (p.2.buf.any (fun o => (o.page.map v.coversPage).getD false)
          || p.2.held.any (fun o => (o.page.map v.coversPage).getD false)) then some ⟨p.1, h⟩ else none
    else none)

/-- An irrevocable task has still to release an update that translated through a covered page (R36, R304; log 104). -/
def State.releasesCovered (s : State) (v : Inval) : Bool :=
  s.slots.any (fun p => p.2.task.isSome && p.2.spec == .irrevocable && p.2.held.any (fun o => (o.page.map v.coversPage).getD false))

/-- The end of an `unseal` drops the replica of a line (R160). -/
def Inval.dropsReplica (v : Inval) (l : Replica) : Bool :=
  match v.entry with
  | some e => !v.opening && l.asid == e.asid.toNat && decide (e.base ≤ 64 * l.line) && decide (64 * l.line < e.base + e.len)
  | none => false

/-- The domains with a member on a die (R38). -/
def State.domainsOn (s : State) (die : Nat) : List Nat :=
  (s.domains.filter (fun p => (List.range 64).any (fun k => p.2.member (64 * die + k)))).map (fun p => p.1)

/-- A request of a command processor for the host is entered among the open invalidations (R35). -/
def State.hostInval (s : State) : Option (BitVec 16 × InvScope) → State
  | none => s
  | some (a, sc) =>
    { s with
      invals := s.invals.put s.nextInval { who := none, asid := a, scope := sc, phase := .block, entry := none,
                                           opening := false, dest := 0, since := s.ck }
      nextInval := s.nextInval + 1 }

/-- `INVALIDATION_REQUEST` (R36, R39): covered entries are dropped, covered tasks are aborted, and the drain begins. -/
def execInvalidationRequest (s0 : State) : Host.Outcome State Fault Refusal :=
  match s0.event with
  | some (.invalidationRequest id0 host) =>
    let id := if host.isSome then s0.nextInval else id0
    let s := s0.hostInval host
    match s.invals.find id with
    | none => .next s
    | some v =>
      let keep (l : List TlbEntry) : List TlbEntry := l.filter (fun e => !v.coversEntry e)
      let s1 : State := { s with
        invals := s.invals.put id { v with phase := .drain, since := s.ck }
        cores := s.cores.map (fun p => (p.1, { p.2 with
          utlb := keep p.2.utlb
          reps := p.2.reps.filter (fun l => !v.dropsReplica l) }))
        launches := s.launches.map (fun p => (p.1, { p.2 with locked := p.2.locked.map (fun e =>
          if v.coversEntry e.2.1 && e.2.2.isNone then (e.1, e.2.1, some (s.domainsOn e.1)) else e) }))
        tiles := s.tiles.map (fun p => if (s.domainOf p.1).isSome then p else (p.1, { p.2 with rtlb := keep p.2.rtlb }))
        dtlb := s.dtlb.map (fun p => (p.1, keep p.2)) }
      .next ((s1.coveredTasks v).foldl (fun u i => if (u.slot i).speculative then u.abortTask i else u) s1)
  | _ => .next s0

/-- The entries of the locked array of a die that serve a tile (R31, R34, R38): of one that an invalidation covers, only the
domains that it still serves. -/
def State.lockedOf (s : State) (t : Nat) : List TlbEntry :=
  let dom := (s.domainOf t).map (fun p => p.1)
  s.launches.flatMap (fun p => p.2.locked.filterMap (fun e =>
    if e.1 = t / 64 && (match e.2.2, dom with
      | none, _ => true
      | some l, some d => l.contains d
      | some _, none => false) then some e.2.1 else none))

/-- A pending line, timed write or locked translation of a tile holds the drain open (R36, R38). -/
def State.tileHoldsDrain (s : State) (v : Inval) (t : Nat) (x : Tile) : Bool :=
  let cov (p : Option PageTag) : Bool := (p.map v.coversPage).getD false
  x.lands.any (fun l => cov l.page) || x.writes.any (fun l => cov l.page) || x.rtlb.any v.coversEntry
    || ((s.domainOf t).isSome && x.lid.isSome && (s.lockedOf t).any v.coversEntry)

/-- A tentative line of a domain holds the drain open (R36). -/
def State.tentHoldsDrain (s : State) (v : Inval) (d : Nat) : Bool :=
  s.tent.any (fun p => p.2.dom == d && (p.2.page.map v.coversPage).getD false)

/-- The domain holds the drain of an invalidation open (R36, R38, R40). -/
def State.domainHoldsDrain (s : State) (v : Inval) (d : Nat) : Bool :=
  s.tentHoldsDrain v d || s.tiles.any (fun p =>
    ((s.domains.find d).map (fun x => x.member p.1)).getD false && s.tileHoldsDrain v p.1 p.2)

/-- A request that translated through a covered page has not been served (R36). -/
def Req.holdsDrain (q : Req) (v : Inval) : Bool := (q.page.map v.coversPage).getD false

/-- A piece of a copy has not finished its line, or its writes (R36). -/
def Piece.holdsDrain (p : Piece) (v : Inval) : Bool :=
  (p.page.map v.coversPage).getD false
    || (match p.todo with
      | some l => l.any (fun r => (r.page.map v.coversPage).getD false)
      | none => false)

/-- An update of a transaction barrier is on its way to its slice (R36). -/
def isTxnUpdate : Event → Bool
  | .transactionBarrierUpdate .. => true
  | _ => false

/-- Such an update has not been applied. -/
def State.txnInFlight (s : State) : Bool :=
  s.agenda.any isTxnUpdate || s.timers.any (fun p => isTxnUpdate p.2)
    || s.reqs.any (fun q => match q.2.who with | .event e => isTxnUpdate e | _ => false)

/-- The block phase has reached every TLB of both dies, 32 ck after its start (R36). -/
def Inval.blocked (v : Inval) (ck : Nat) : Bool := decide (v.since + 32 ≤ ck)

/-- Every condition of the drain phase holds (R36). -/
def State.drained (s : State) (v : Inval) : Bool :=
  !s.reqs.any (fun q => q.2.holdsDrain v) && !s.pieces.any (fun p => p.2.holdsDrain v) && !s.txnInFlight
    && !s.tent.any (fun p => (p.2.page.map v.coversPage).getD false)
    && !s.tiles.any (fun p => s.tileHoldsDrain v p.1 p.2)
    && (s.coveredTasks v).isEmpty && !s.releasesCovered v

/-- An invalidation that arrived earlier has not ended its drain: it is served first (R35). -/
def State.servedFirst (s : State) (id : Nat) : Bool :=
  s.invals.any (fun p => decide (p.1 < id) && p.2.phase != .ack)

/-- `INVALIDATION_DRAIN_END` (R35, R36): the acknowledgment phase begins. -/
def execInvalidationDrainEnd (s : State) : Host.Outcome State Fault Refusal :=
  match s.event with
  | some (.invalidationDrainEnd id) =>
    match s.invals.find id with
    | some v =>
      if v.phase == .drain && v.blocked s.ck && s.drained v && !s.servedFirst id then
        .next ({ s with invals := s.invals.put id { v with phase := .ack, since := s.ck } }.after 32 (.invalidationAcknowledge id))
      else .next s
    | none => .next s
  | _ => .next s

/-- The wait is for an invalidation. -/
def Wait.isInval (w : Wait) (id : Nat) : Bool :=
  match w with
  | .inval k _ _ => k == id
  | _ => false

/-- The agents that wait for an invalidation issue their instructions anew. -/
def State.wakeInval (s : State) (id : Nat) : State :=
  let s1 := s.slots.foldl (fun (u : State) p =>
    if h : p.1 < 4096 then if p.2.wait.isInval id then u.wake ⟨p.1, h⟩ else u else u) s
  s1.tiles.foldl (fun (u : State) p =>
    if h : p.1 < 128 then if p.2.wait.isInval id then u.reissue (.tile ⟨p.1, h⟩) else u else u) s1

/-- `INVALIDATION_ACKNOWLEDGE` (R36): waiting lookups resume, a seal entry is made or freed (R157, R160), and the
requester completes. -/
def execInvalidationAcknowledge (s : State) : Host.Outcome State Fault Refusal :=
  match s.event with
  | some (.invalidationAcknowledge id) =>
    match s.invals.find id with
    | none => .next s
    | some v =>
      let seals := match v.entry with
        | none => s.seals
        | some e =>
          if v.opening then s.seals ++ [e]
          else s.seals.filter (fun x => !(x.asid == e.asid && x.base == e.base && x.len == e.len))
      let s1 : State := { s with invals := s.invals.del id, seals := seals }
      let s2 := match v.who with
        | some i => if (s1.slot i).wait.isInval id then s1.complete i v.dest 0 else s1
        | none => s1
      .next (s2.wakeInval id)
  | _ => .next s

end Sys2Proof.Machine
end

