-- ==== Sys2Proof/Machine/Copies.lean ====
section
/-!
DEFINITION. Copies (spec/04_copy_and_sync.md R133 to R146; spec/09_memory_instructions.md R333, R334): parameter blocks,
pieces, copy agents, completion and cancelling.
-/
namespace Sys2Proof.Machine

/-! ### Parameter blocks (R136 to R139) -/

/-- Word `k` of a copy's block. -/
def Copy.w (c : Copy) (k : Nat) : Word := c.blk.toList.getD k 0
/-- XID. -/
def Copy.xid (c : Copy) : Nat := bitsAt (c.w 0) 48 16
/-- UI. -/
def Copy.ui (c : Copy) : Bool := bitsAt (c.w 0) 47 1 == 1
/-- UISLOT. -/
def Copy.uiSlot (c : Copy) : Nat := bitsAt (c.w 0) 45 2
/-- UIH. -/
def Copy.uihOff (c : Copy) : Nat := bitsAt (c.w 0) 0 18
/-- The element size of a gather or scatter. -/
def Copy.elem (c : Copy) : Nat := 2 ^ bitsAt (c.w 0) 39 3
/-- The size of an index. -/
def Copy.idxSize (c : Copy) : Nat := if bitsAt (c.w 0) 42 1 = 1 then 8 else 4
/-- SRC. -/
def Copy.src (c : Copy) : Nat := (c.w 1).toNat
/-- DST. -/
def Copy.dst (c : Copy) : Nat := (c.w 2).toNat
/-- LEN of a linear or remote copy, N of a gather or scatter. -/
def Copy.len (c : Copy) : Nat := bitsAt (c.w 4) 0 32
/-- XB, NY and NZ of a box. -/
def Copy.box (c : Copy) : Nat × Nat × Nat := (bitsAt (c.w 4) 0 16, bitsAt (c.w 4) 16 16, bitsAt (c.w 4) 32 16)
/-- A signed 32-bit stride in bits `lo + 31` to `lo` of a word. -/
def strideAt (x : Word) (lo : Nat) : Int := codeInt 32 (bitsAt x lo 32)

/-- The bytes that a copy moves (R138, R139). -/
def Copy.total (c : Copy) : Nat :=
  match c.kind with
  | .lin => c.len
  | .remote => c.len
  | .box => c.box.1 * c.box.2.1 * c.box.2.2
  | .gather => c.len * c.elem
  | .scatter => c.len * c.elem

/-- Fields that a kind leaves unused must be zero (R136, R137). -/
def Copy.unusedSet (c : Copy) : Bool :=
  let w0 := c.w 0
  let indexed := c.kind == .gather || c.kind == .scatter
  bitsAt w0 18 21 != 0
    || (if c.kind == .remote then bitsAt w0 43 2 == 3 else bitsAt w0 43 2 != 0)
    || (!indexed && bitsAt w0 39 4 != 0)
    || (match c.kind with
      | .lin => bitsAt (c.w 4) 32 32 != 0 || c.w 5 != 0 || c.w 6 != 0
      | .box => bitsAt (c.w 4) 48 16 != 0
      | .gather => bitsAt (c.w 4) 32 32 != 0 || c.w 6 != 0
      | .scatter => bitsAt (c.w 4) 32 32 != 0 || c.w 6 != 0
      | .remote => bitsAt (c.w 4) 57 7 != 0 || bitsAt (c.w 5) 40 24 != 0)

/-- UIH is 4-byte aligned and below XB of the issuing core, where UI asks for an interrupt (R136). -/
def Copy.uihBad (c : Copy) (part : Word) : Bool := c.ui && (c.uihOff % 4 != 0 || decide (partXB part ≤ c.uihOff))

/-- The block is malformed (R139). -/
def Copy.malformed (c : Copy) (part : Word) : Bool :=
  let indexed := c.kind == .gather || c.kind == .scatter
  c.unusedSet || c.uihBad part
    || ((c.kind == .box || indexed) && decide (0xFFFFFFFF < c.total))
    || (indexed && (c.src % c.elem != 0 || c.dst % c.elem != 0 || (c.w 5).toNat % c.idxSize != 0))
    || (c.kind == .remote && bitsAt (c.w 4) 56 1 == 0 && bitsAt (c.w 4) 32 24 != 0)

/-- The bounding range of a box from a base with two strides: its first address and the address after its last. -/
def boxRange (base : Nat) (xb ny nz : Nat) (sy sz : Int) : Int × Int :=
  let ey : Int := ((ny : Int) - 1) * sy
  let ez : Int := ((nz : Int) - 1) * sz
  ((base : Int) + min 0 ey + min 0 ez, (base : Int) + max 0 ey + max 0 ez + (xb : Int))

/-- The bounding ranges of a linear or box copy overlap (R139). -/
def Copy.overlaps (c : Copy) : Bool :=
  let meet (a b : Int × Int) : Bool := decide (a.1 < b.2) && decide (b.1 < a.2)
  if c.total = 0 then false
  else match c.kind with
  | .lin => meet ((c.src : Int), (c.src + c.len : Int)) ((c.dst : Int), (c.dst + c.len : Int))
  | .box =>
    let (xb, ny, nz) := c.box
    meet (boxRange c.src xb ny nz (strideAt (c.w 5) 0) (strideAt (c.w 5) 32))
      (boxRange c.dst xb ny nz (strideAt (c.w 6) 0) (strideAt (c.w 6) 32))
  | _ => false

/-- A 64-bit address from an integer. -/
def addrOf (x : Int) : Nat := (x % (2 ^ 64 : Int)).toNat

/-- The run of bytes that begins at byte `b` of the copy order, given the index of its element: source, destination and
length (R138). -/
def Copy.runAt (c : Copy) (b idx : Nat) : Nat × Nat × Nat :=
  let wrap (n : Nat) : Nat := n % 2 ^ 64
  match c.kind with
  | .lin => (wrap (c.src + b), wrap (c.dst + b), c.len - b)
  | .remote => (wrap (c.src + b), wrap (c.dst + b), c.len - b)
  | .box =>
    let (xb, ny, _) := c.box
    let x := b % xb
    let y : Int := (b / xb % ny : Nat)
    let z : Int := (b / (xb * ny) : Nat)
    (addrOf (c.src + z * strideAt (c.w 5) 32 + y * strideAt (c.w 5) 0 + x),
     addrOf (c.dst + z * strideAt (c.w 6) 32 + y * strideAt (c.w 6) 0 + x), xb - x)
  | .gather => (wrap (c.src + idx * c.elem + b % c.elem), wrap (c.dst + b), c.elem - b % c.elem)
  | .scatter => (wrap (c.src + b), wrap (c.dst + idx * c.elem + b % c.elem), c.elem - b % c.elem)

/-! ### Translation for copy units and agents (R31, R141) -/

/-- What the translation and the checks of one run come to. -/
inductive CopyAim where
  | ok (d : Dest) (s : State)
  /-- A fault of the piece: code, cause and syndrome (R144). -/
  | fault (code cause synd : Nat)
  /-- It is tried again after some ck (R36, R42, R48). -/
  | later (n : Nat) (s : State)

/-- What a unit's translation comes to. -/
inductive UnitTr where
  | ok (pa : Nat) (e : Word) (page : PageTag) (s : State)
  | fault (f : FaultInfo)
  | later (n : Nat) (s : State)

/-- The walk of a unit at the ck of its answer (R26, R494): an entry whose line is not in L2 is filled first. -/
def State.unitWalkEnd (s : State) (ag : Option SlotId) (die ctx : Nat) (kind : Kind) (va : Nat) : UnitTr :=
  match (s.walkAddrs ctx va).find? (fun ea => s.lineAnswer (ea / 256) false != .serve) with
  | some ea => .later 1 ((s.startFill (ea / 256)).setUnitWalk die ctx va (some (s.ck + 1, true)))
  | none =>
    match s.walkTo ctx kind true va with
    | .fault f => .fault f
    | .wait n u => .later n (u.setUnitWalk die ctx va (if n = 1 then some (s.ck + 1, true) else none))
    | .blocked _ => .later 1 (s.setUnitWalk die ctx va none)
    | .leaf x pa u =>
      let u1 := (u.setUnitWalk die ctx va none).fillDie die x
      .ok pa x.leaf ⟨x.va, x.bits, x.asid, pteBit x.leaf 8⟩ (match ag with
        | some i => u1.fillMicro (.slot i) x
        | none => u1)

/-- The die TLB answers a unit, or its walk begins, answered `before` ck later than its levels take (R31, R494). -/
def State.unitDieLook (s : State) (ag : Option SlotId) (die ctx : Nat) (kind : Kind) (va before : Nat) : UnitTr :=
  match s.dieLookup die ctx kind va with
  | .ok pa e page =>
    let u := s.setUnitWalk die ctx va none
    .ok pa e page (match ag, s.dieEntry die ctx kind va with
      | some i, some x => u.fillMicro (.slot i) x
      | _, _ => u)
  | .fault f => .fault f
  | .blocked _ => .later 1 s
  | .miss => let r := s.beginUnitWalk die ctx va before; .later r.1 r.2

/-- A paged address through the caches and the walker of a die, with the times of R494: a copy unit (`ag`) consults and fills its
core's micro-TLB, and the die TLB 10 ck after a miss; a copy agent has the die TLB alone (R31, R141). -/
def State.unitXlate (s : State) (ag : Option SlotId) (die ctx : Nat) (kind : Kind) (va : Nat) : UnitTr :=
  match s.lookup ctx kind true va ((ag.map (fun i => (s.core (coreOf i)).utlb)).getD []) with
  | .ok pa e page => .ok pa e page s
  | .fault f => .fault f
  | .blocked _ => .later 1 s
  | .miss =>
    let asked := s.unitWalk die ctx va
    match asked, ag with
    | none, some _ => .later dieLookupTime (s.setUnitWalk die ctx va (some (s.ck + dieLookupTime, false)))
    | some w, _ =>
      if s.ck < w.ready then .later (w.ready - s.ck) s
      else if w.walk then s.unitWalkEnd ag die ctx kind va
      else s.unitDieLook ag die ctx kind va 0
    | none, none => s.unitDieLook none die ctx kind va dieLookupTime
/-- The context of a copy: that of the launch of the issuing core. -/
def State.copyCtx (s : State) (c : Copy) : Nat := s.ctxOf (s.core (coreOf c.slot)).lid

/-- The checks of a source or index read of `n` bytes (R142, R144): of a palette, as the issuing core's own load or
remote load would be checked (log 24). -/
def State.copySource (s : State) (c : Copy) (va n : Nat) : CopyAim :=
  let me := coreOf c.slot
  if 2 ^ 55 ≤ va then .fault 0x02 0x0A 1
  else if inWindow va then
    match s.aimWindow me va n .read with
    | .ok d => .ok d s
    | .fault f => .fault 0x02 f.cause f.synd
    | _ => .later 1 s
  else match s.unitXlate (some c.slot) (s.dieOf me) (s.copyCtx c) .read va with
  | .ok pa e page t => if pteMT e == 1 then .fault 0x07 0 0 else .ok ⟨.slice, pa, some page, false⟩ t
  | .fault f => .fault 0x02 f.cause f.synd
  | .later n t => .later n t

/-- The checks of a destination write of `n` bytes (R16, R17, R144, R157), at the agent of a die. -/
def State.copyDest (s : State) (c : Copy) (die va n : Nat) : CopyAim :=
  let me := coreOf c.slot
  let pal (k : CoreId) (off : Nat) : CopyAim :=
    if k != me && !s.clusterPresent (k.val / 8) then .fault 0x02 0x0A 7
    else match palCause (s.core k).part off n .copy with
    | some x => .fault 0x02 x 0
    | none => .ok ⟨.palette k false, s.palette k + off, none, false⟩ s
  if 2 ^ 55 ≤ va then .fault 0x02 0x0A 1
  else if inWindow va then
    let o := va % 2 ^ 48
    if o < 0x40000 then pal me o
    else if 0x10000000 ≤ o ∧ o < 0x20000000 then pal (coreNo ((o - 0x10000000) / 0x40000)) (o % 0x40000)
    else match s.aimWindow me va n .write with
    | .ok d => .ok d s
    | .fault f => .fault 0x02 f.cause f.synd
    | _ => .later 1 s
  else match s.unitXlate none die (s.copyCtx c) .write va with
  | .ok pa e page t =>
    if s.sealedAt page.asid va then .fault 0x09 0x09 0 else .ok ⟨if pteMT e == 1 then .device else .slice, pa, some page, false⟩ t
  | .fault f => .fault 0x02 f.cause f.synd
  | .later k t => if s.sealedAt (ctxASID (s.asctxAt (s.copyCtx c))) va then .fault 0x09 0x09 0 else .later k t

/-! ### Updates and completion (R143 to R146, R149) -/

/-- An update of a copy's sync word, sent from a router; without one, an acknowledgment that is asked for goes to the copy
unit itself (R64, R143). -/
def State.copyUpdate (s : State) (c : Copy) (src bytes arr : Nat) (err : Bool) (ack : Option (Nat × Nat)) : State :=
  let ui := if c.ui then some (c.uiSlot, c.xid, c.uihOff) else none
  match c.sync with
  | some (k, off) =>
    s.send 0 src (s.coreRouter (coreNo k)) 0
      (.syncUpdate (s.palette (coreNo k) + off) bytes arr err ui (ack.map (fun a => Reply.copy a.1 a.2)))
  | none =>
    match ack with
    | some (id, x) => s.send 1 src (s.coreRouter (coreOf c.slot)) 0 (.updateAcknowledgment id x)
    | none => s

/-- The state with a copy replaced. -/
def State.setCopy (s : State) (id : Nat) (c : Copy) : State := { s with copies := s.copies.put id c }

/-- A copy stops: of several stops the one at the lowest byte stands (R144). -/
def Copy.stopAt (c : Copy) (x : CopyStop) : Copy :=
  match c.stop with
  | some y => if x.prog < y.prog then { c with stop := some x } else c
  | none => { c with stop := some x }

/-- A copy with nothing more to send and nothing unacknowledged completes. -/
def State.closeCopy (s : State) (id : Nat) : State :=
  match s.copies.find id with
  | none => s
  | some c =>
    if !c.held && !c.closing && c.opn.isEmpty && c.upd.isEmpty && (c.stop.isSome || decide (c.total ≤ c.sent)) then
      (s.setCopy id { c with closing := true }).post (.copyCompletion id)
    else s

/-- STAT of a copy at its end (R146): code, cause, syndrome, side and PROG. -/
def Copy.status (c : Copy) : CopyStop :=
  match c.stop with
  | some x => x
  | none => if c.marked then ⟨0x06, 0x13, 0, 0, c.total⟩ else ⟨0x01, 0, 0, 0, c.total⟩

/-- STAT as a word (R146). -/
def CopyStop.word (x : CopyStop) : Nat :=
  x.code * 2 ^ 56 + x.cause * 2 ^ 48 + x.synd * 2 ^ 44 + x.side * 2 ^ 42 + x.prog % 2 ^ 40

/-- `COPY_COMPLETION` (R143 to R146): STAT is written, then the single arrival is sent; the copy unit keeps the copy, no longer in
flight, until the arrival is acknowledged. A write that loses its bank, that meets its cluster in change, or whose line a commit
has claimed, is tried again (R48, R62, R180). -/
def execCopyCompletion (s : State) : Host.Outcome State Fault Refusal :=
  match s.event with
  | some (.copyCompletion id) =>
    match s.copies.find id with
    | none => .next s
    | some c =>
      let me := coreOf c.slot
      let pa := s.palette me + c.block + 56
      let r := s.takeBanks (.event (.copyCompletion id)) pa 8
      if s.changing pa then .next (s.after 1 (.copyCompletion id))
      else if s.claimed pa 8 then .next (s.after 16 (.copyCompletion id))
      else if !r.1 then .next (r.2.after 1 (.copyCompletion id))
      else
        let s1 := r.2.store pa (bytesOfNat 8 c.status.word) none
        .next (if c.sync.isNone then { s1 with copies := s1.copies.del id }
          else (s1.setCopy id { c with done := true }).copyUpdate c (s.coreRouter me) 0 1 (c.status.code != 1) (some (id, c.total)))
  | _ => .next s

/-- `UPDATE_ACKNOWLEDGMENT` (R143, R147): the copy unit holds the acknowledgment of a piece, of a packet's update, or of the
arrival. -/
def execUpdateAcknowledgment (s : State) : Host.Outcome State Fault Refusal :=
  match s.event with
  | some (.updateAcknowledgment id k) =>
    match s.copies.find id with
    | none => .next s
    | some c =>
      .next (if c.done then { s with copies := s.copies.del id }
        else if c.kind == .remote then (s.setCopy id { c with upd := c.upd.erase k }).closeCopy id
        else (s.setCopy id { c with opn := c.opn.erase k }).closeCopy id)
  | _ => .next s

/-- A piece that failed (R144). -/
def State.failPiece (s : State) (id : Nat) (c : Copy) (k code cause synd side : Nat) : State :=
  (s.setCopy id ({ c with opn := c.opn.erase k }.stopAt ⟨code, cause, synd, side, k⟩)).closeCopy id

/-! ### Issue and start (R133 to R135, R138, R139) -/

/-- A copy that may start does (R135): it stops at once where its block is malformed or overlaps (R139). -/
def State.startCopy (s : State) (id : Nat) : State :=
  match s.copies.find id with
  | none => s
  | some c =>
    let c1 := { c with held := false }
    let c2 :=
      if c1.malformed (s.core (coreOf c.slot)).part then { c1 with stop := some ⟨0x04, 0, 0, 0, 0⟩ }
      else if c1.overlaps then { c1 with stop := some ⟨0x05, 0, 0, 0, 0⟩ }
      else c1
    let s1 := s.setCopy id c2
    if c2.kind == .remote && c2.stop.isNone then s1.post (.uetPacketTransmit id 0) else s1.closeCopy id

/-- The copies of a core in flight (R133), those held for an uncommitted task among them (R333). -/
def State.copiesOf (s : State) (c : CoreId) : List (Nat × Copy) := s.copies.filter (fun p => coreOf p.2.slot == c && !p.2.done)

/-- The parameter block read at issue, with the checks of R134. -/
def State.readBlock (s : State) (i : SlotId) (va : Nat) : Res (Nat × List Word × Option (Nat × Nat)) :=
  if va % 64 != 0 then .fault { cause := 0x05, kind := 1, faddr := va } s
  else match s.ownScratch (coreOf i) va 64 with
  | none => .fault (scratchFault .read va) s
  | some off =>
    let d : Dest := ⟨.palette (coreOf i) true, s.palette (coreOf i) + off, none, false⟩
    (s.readAt i d va 64 .again).bind fun bytes t =>
      let w := wordsOf bytes
      let sync := (w.getD 3 0).toNat
      if sync = 0 then .ok (off, w, none) t
      else match t.syncAim (coreOf i) sync .write with
      | .error f => .fault f t
      | .ok (c, o) => .ok (off, w, some (c.val, o)) t

/-- A copy instruction (R133 to R135, R333): its start is a release, so it waits for the slot's earlier updates (R197). -/
def copyOp (kind : CopyKind) (ins : Instr) (a : Reg) (s : State) : Host.Outcome State Fault Refusal :=
  onSlot s fun i =>
    let va := (s.g a).toNat
    if 16 ≤ (s.copiesOf (coreOf i)).length then .next (s.park s.cur .copyUnit)
    else if !(s.slot i).speculative && (s.slot i).out != 0 then .next (s.park s.cur .updates)
    else
      finishWith s s.cur (s.readBlock i va) fun r t =>
        let g (k : Nat) : Word := r.2.1.getD k 0
        let x := t.slot i
        let c : Copy := {
          kind := kind, va := va, block := r.1, blk := #v[g 0, g 1, g 2, g 3, g 4, g 5, g 6, g 7], slot := i,
          held := x.speculative, sync := r.2.2, sent := 0, opn := [], stop := none, marked := false, closing := false, done := false,
          port := 0, pdc := none, psn := 0, kept := [], upd := [], refused := false, tryAt := 0 }
        let id := t.nextCopy
        let t1 : State := { t with copies := t.copies.put id c, nextCopy := id + 1 }
        (if x.speculative then t1.hold i ins (BitVec.ofNat 64 id) 0 0 else t1.startCopy id).done t1.cur

/-- `cp.lin ga` (R333). -/
def execCpLin (a : Reg) (s : State) : Host.Outcome State Fault Refusal := copyOp .lin (.cpLin a) a s

/-- `cp.box ga` (R333). -/
def execCpBox (a : Reg) (s : State) : Host.Outcome State Fault Refusal := copyOp .box (.cpBox a) a s

/-- `cp.gather ga` (R333). -/
def execCpGather (a : Reg) (s : State) : Host.Outcome State Fault Refusal := copyOp .gather (.cpGather a) a s

/-- `cp.scatter ga` (R333). -/
def execCpScatter (a : Reg) (s : State) : Host.Outcome State Fault Refusal := copyOp .scatter (.cpScatter a) a s

/-- `cp.remote ga` (R333). -/
def execCpRemote (a : Reg) (s : State) : Host.Outcome State Fault Refusal := copyOp .remote (.cpRemote a) a s

/-- The oldest started copy of a core issued with an address stops sending (R145, R334; log 48). -/
def State.cancelCopy (s : State) (c : CoreId) (va : Nat) : State :=
  match (s.copiesOf c).find? (fun p => p.2.va == va && !p.2.held) with
  | none => s
  | some (id, x) =>
    if x.closing || decide (x.total ≤ x.sent) then s else (s.setCopy id (x.stopAt ⟨0x03, 0, 0, 0, x.sent⟩)).closeCopy id

/-- `cp.cancel ga` (R334). -/
def execCpCancel (a : Reg) (s : State) : Host.Outcome State Fault Refusal :=
  onSlot s fun i =>
    if (s.slot i).speculative then .next ((s.hold i (.cpCancel a) (s.g a) 0 0).done s.cur)
    else .next ((s.cancelCopy (coreOf i) (s.g a).toNat).done s.cur)

/-! ### Pieces (R141, R142, R144) -/

/-- A copy's next translation, or its next read of its index array, waits for some ck (R36, R42, R62, R70). -/
def State.copyWaits (s : State) (id n : Nat) : State :=
  match s.copies.find id with
  | some c => { s with copies := s.copies.put id { c with tryAt := s.ck + n } }
  | none => s

/-- The copy unit reads the index array of a copy at a place, or is refused and waits for its retry (R78, R79). -/
def State.readIndex (s : State) (id : Nat) (d : Dest) (n : Nat) : Bool × State :=
  match s.answer (.unit id) d n false with
  | .serve =>
    let k := s.takeBanks (.unit id) d.pa n
    if s.portBusy d n then (false, s.copyWaits id 1)
    else if k.1 then (true, (k.2.takePort d n).closeReq (.unit id) d.pa)
    else (false, k.2.copyWaits id 1)
  | .refuse h resv =>
    let u := (s.refuseReq (.unit id) d.pa d.pa d.page .again h resv).2
    (false, match u.copies.find id with
      | some c => { u with copies := u.copies.put id { c with refused := true } }
      | none => u)

/-- The index of the element that byte `b` belongs to (R138); a fault of the index array has SIDE 0b10, and an array in device
registers ends the copy as a source there does (log 119). -/
def State.copyIndex (s : State) (id : Nat) (c : Copy) (b : Nat) : Except (Option CopyStop × State) (Nat × State) :=
  if c.kind != .gather && c.kind != .scatter then .ok (0, s)
  else
    let n := c.idxSize
    match s.copySource c (((c.w 5).toNat + b / c.elem * n) % 2 ^ 64) n with
    | .fault code cause synd => .error (some ⟨code, cause, synd, 2, b⟩, s)
    | .later k t => .error (none, t.copyWaits id k)
    | .ok d t =>
      match t.readIndex id d n with
      | (false, u) => .error (none, u)
      | (true, u) =>
        if u.marked d.pa n then .error (some ⟨0x02, 0x13, 0, 2, b⟩, u) else .ok (natOfBytes (u.read d.pa n), u)

/-- The runs of one piece from byte `b` on: bytes in copy order that stay within one line of the source (R141), and the byte
after them; a piece ends before an element whose index faults, and one whose index must be waited for holds the piece back. -/
def State.pieceRuns (s : State) (id : Nat) (c : Copy) (line : Option Nat) : Nat → Nat → Except State (List SrcRun × Nat × State)
  | 0, b => .ok ([], b, s)
  | fuel + 1, b =>
    if c.total ≤ b then .ok ([], b, s)
    else match s.copyIndex id c b with
    | .error (some _, u) => .ok ([], b, u)
    | .error (none, u) => .error u
    | .ok (idx, u) =>
      let (src, dst, len) := c.runAt b idx
      if (match line with | some l => l != src / 256 | none => false) then .ok ([], b, u)
      else
        let n := min len (256 - src % 256)
        match u.pieceRuns id c (some (src / 256)) fuel (b + n) with
        | .ok (l, e, v) => .ok ((src % 256, dst, n) :: l, e, v)
        | .error v => .error v

/-- The agent of a source address: a slice (R142). -/
def State.agentOf (s : State) (pa : Nat) : Nat :=
  match s.phys pa with
  | .scratch k _ => k
  | .palette p _ => 32 * (p / 512) + p / 8 % 64 / 2
  | .tileMem t _ => t / 2
  | _ => sliceOf pa

/-- A piece goes to its agent over the mesh (R64, R141). -/
def State.sendPiece (s : State) (c : Copy) (p : Piece) : State :=
  let s1 : State := { s with pieces := s.pieces.put s.nextPiece p, nextPiece := s.nextPiece + 1 }
  s1.send 0 (s.coreRouter (coreOf c.slot)) (sliceRouter p.agent) 0 (.copyPiece s.nextPiece)

/-- One try to emit the next piece of a copy: whether it was sent, and the state (R141). -/
def State.emitPiece (s : State) (id : Nat) (c : Copy) : Bool × State :=
  match s.copyIndex id c c.sent with
  | .error (some x, t) => (true, (t.setCopy id (c.stopAt x)).closeCopy id)
  | .error (none, t) => (false, t)
  | .ok (idx, t) =>
    let (src, _, len) := c.runAt c.sent idx
    match t.copySource c src (min len (256 - src % 256)) with
    | .fault code cause synd => (true, (t.setCopy id (c.stopAt ⟨code, cause, synd, 0, c.sent⟩)).closeCopy id)
    | .later n u => (false, u.copyWaits id n)
    | .ok d u =>
      match u.pieceRuns id c none (c.total - c.sent) c.sent with
      | .error v => (false, v)
      | .ok (runs, e, v) =>
        let p : Piece := { copy := id, first := c.sent, agent := v.agentOf d.pa, line := d.pa / 256 * 256, page := d.page, runs := runs,
                           len := e - c.sent, marks := [], arrived := false, todo := none, aimed := false, begun := false }
        (true, (v.setCopy id { c with sent := e, opn := c.opn ++ [c.sent] }).sendPiece c p)

/-- The copies of a core that still send, oldest first, tried until one sends (R141). -/
def State.emitFirst (s : State) : List (Nat × Copy) → State
  | [] => s
  | (id, c) :: t =>
    if c.held || c.stop.isSome || c.kind == .remote || c.refused || decide (s.ck < c.tryAt) || decide (c.total ≤ c.sent) then
      s.emitFirst t
    else match s.emitPiece id c with
    | (true, u) => u
    | (false, u) => u.emitFirst t

/-- A core's copy unit in one ck: at most one piece, with at most 64 unacknowledged (R141), and none while the mesh is
rerouted (R429). -/
def State.copyStep (s : State) (c : CoreId) : State :=
  let l := s.copiesOf c
  if s.rerouting then s
  else if (l.map (fun p => if p.2.kind == .remote then 0 else p.2.opn.length)).foldl (· + ·) 0 < 64 then s.emitFirst l else s

/-- The place of a physical address, as a copy agent sees it. -/
def State.agentPlace (s : State) (pa : Nat) : Place :=
  match s.phys pa with
  | .scratch _ _ => .scratch
  | .palette _ _ => .palette 0 false
  | .tileMem t _ => .tileMem (Fin.ofNat 128 t)
  | .device => .device
  | _ => .slice

/-- The destination bytes of a piece that come from a marked source granule: the mark travels with the data (R419). -/
def State.markedRuns (s : State) (line : Nat) (segs : List SrcRun) : List (Nat × Nat) :=
  (segs.map (fun x =>
    (blocksOf (line + x.1) x.2.2).filterMap (fun g =>
      let lo := max (line + x.1) (g * 64)
      let hi := min (line + x.1 + x.2.2) (g * 64 + 64)
      if g ∈ s.marks ∧ lo < hi then some (x.2.1 + (lo - (line + x.1)), hi - lo) else none))).flatten

/-- The parts of a run that are one write each: within 64 bytes of a palette or of tile memory, and within a line of 256
elsewhere (R63, R141). A scatter writes an element of 128 bytes whole (R140). -/
def splitRun (whole va : Nat) (bytes : List Byte) : List DstRun :=
  let n := if inWindow va && decide (va % 2 ^ 48 < 0x80000000) then max 64 whole else 256
  if bytes.isEmpty then [] else (List.range ((va + bytes.length - 1) / n - va / n + 1)).map (fun k =>
    let a := max va ((va / n + k) * n)
    let b := min (va + bytes.length) ((va / n + k + 1) * n)
    { va := a, pal := none, pa := 0, page := none, bytes := (bytes.drop (a - va)).take (b - a) })

/-- A piece replaced. -/
def State.setPiece (s : State) (p : Nat) (x : Piece) : State := { s with pieces := s.pieces.put p x }

/-- A piece that failed: it writes nothing, and its copy stops (R144). -/
def State.endPiece (s : State) (p : Nat) (x : Piece) (code cause synd side : Nat) : State :=
  let s1 : State := { s with pieces := s.pieces.del p }
  match s1.copies.find x.copy with
  | some c => s1.failPiece x.copy c x.first code cause synd side
  | none => s1

/-- What comes of the translation of the destinations of a piece. -/
inductive Dests where
  | ok (l : List DstRun) (s : State)
  | fault (code cause synd : Nat)
  | later (n : Nat) (s : State)
  | device (pa : Nat)

/-- Every destination of a piece translated and checked before any byte of it is written (R141, R144). A write to ASCTX or
CLMAP, which only firmware and the command processors write (R20, R46), is left out. -/
def State.aimRuns (s : State) (c : Copy) (die : Nat) : List DstRun → Dests
  | [] => .ok [] s
  | r :: t =>
    match s.copyDest c die r.va r.bytes.length with
    | .fault code cause synd => .fault code cause synd
    | .later n u => .later n u
    | .ok d u =>
      let pal := match d.place with
        | .palette k _ => some (k, r.va % 0x40000)
        | _ => none
      match d.place, s.deviceRead d.pa r.bytes.length with
      | .device, none => .device d.pa
      | place, _ =>
        match u.aimRuns c die t with
        | .ok l v => .ok (if place == .device then l else { r with pal := pal, pa := d.pa, page := d.page } :: l) v
        | x => x

/-- The router of a destination. -/
def State.runRouter (s : State) (r : DstRun) : Nat :=
  match r.pal with
  | some (k, _) => s.coreRouter k
  | none =>
    match s.phys r.pa with
    | .tileMem t _ => tileRouter t
    | .scratch k _ => sliceRouter k
    | _ => sliceRouter (sliceOf r.pa)

/-- A piece whose bytes have all been accepted: its agent is done with it, and sends the update of its bytes (R143). -/
def State.pieceDone (s : State) (p : Nat) (x : Piece) : State :=
  let s1 : State := { s with pieces := s.pieces.del p }
  match s1.copies.find x.copy with
  | some c =>
    (s1.setCopy x.copy { c with marked := c.marked || !x.marks.isEmpty }).copyUpdate c (sliceRouter x.agent) x.len 0 false
      (some (x.copy, x.first))
  | none => s1

/-- The ck that a push takes for the 64 bytes after its first (R64). -/
def pushExtra (r : DstRun) : Nat := (r.bytes.length - 1) / 64

/-- The ck between a write of a piece and its next: a link carries 64 bytes a ck, and the next may go to another place (R64). -/
def State.pushGap (s : State) (x : Piece) (r next : DstRun) : Nat :=
  max 1 ((pushExtra next + 1 + s.meshTime (sliceRouter x.agent) (s.runRouter next)) - s.meshTime (sliceRouter x.agent) (s.runRouter r))

/-- The agent of a piece translates its destinations, and pushes it on its way (R141). -/
def State.aimPiece (s : State) (p : Nat) (x : Piece) (c : Copy) (l : List DstRun) : Host.Outcome State Fault Refusal :=
  match s.aimRuns c (x.agent / 32) l with
  | .fault code cause synd => .next (s.endPiece p x code cause synd 1)
  | .later n u => .next ((u.setPiece p { x with todo := some l }).after n (.copyPiece p))
  | .device pa => .fault (.deviceRegister pa)
  | .ok [] u => .next (u.pieceDone p x)
  | .ok (r :: t) u =>
    .next ((u.setPiece p { x with todo := some (r :: t), aimed := true }).send 2 (sliceRouter x.agent) (u.runRouter r) (pushExtra r)
      (.piecePush p))

/-- The access of a copy agent leaves the window port that holds it (R70). -/
def State.unport (s : State) (e : Event) (d : Dest) : State :=
  match d.place, s.openReq (.event e) d.pa with
  | .tileMem t, some (id, _) => let x := s.tile t; s.setTile t { x with port := x.port.erase id }
  | _, _ => s

/-- The access of a copy agent that loses its bank of tile memory is held at the window port, which has room for 8; a ninth is
refused with H = 0 (R70). -/
def State.holdEvent (s : State) (e : Event) (d : Dest) (back : Nat) : State :=
  match d.place with
  | .tileMem t =>
    let x := s.tile t
    let keep (id : Nat) (u : State) : State :=
      if x.port.contains id then u
      else if x.port.length < 8 then u.setTile t { x with port := x.port ++ [id] }
      else u.refuseEvent e d.pa d.page (some 0) false back
    (match s.openReq (.event e) d.pa with
      | some (id, _) => keep id s
      | none =>
        if x.port.length < 8 then
          keep s.nextReq { s with
            nextReq := s.nextReq + 1
            reqs := s.reqs.put s.nextReq { who := .event e, pa := d.pa, va := d.pa, op := .again, count := 0, reserved := false,
                                           claimed := false, kept := false, page := d.page, turn := 0 } }
        else s.refuseEvent e d.pa d.page (some 0) false back)
  | _ => s.after 1 e

/-- The agent of a piece reads its source: at once, or after a refusal, a wait at a window port or a lost bank; or the piece
fails (R17, R62, R70, R78, R144). -/
def State.readPiece (s : State) (p : Nat) (x : Piece) (c : Copy) : Host.Outcome State Fault Refusal :=
  let lo := (x.runs.map (fun r => r.1)).foldl min 255
  let hi := (x.runs.map (fun r => r.1 + r.2.2)).foldl max 0
  let e : Event := .copyPiece p
  let d : Dest := ⟨s.agentPlace x.line, x.line + lo, x.page, false⟩
  let outside := match d.place with
    | .tileMem t => (match s.windowTest t.val (d.pa - tileBase t) (hi - lo) with
      | .fault a y => some (a, y)
      | _ => none)
    | _ => none
  match outside with
  | some (a, y) => .next (s.endPiece p x 0x02 a y 0)
  | none =>
    if s.changing d.pa then .next (s.refuseEvent e d.pa x.page (some 255) false)
    else match ({ s with rerouting := false } : State).answer (.event e) d (hi - lo) false with
    | .refuse h resv => .next ((s.unport e d).refuseEvent e d.pa x.page h resv)
    | .serve =>
      let k := s.takeBanks (.event e) d.pa (hi - lo)
      if s.portBusy d (hi - lo) then .next (s.holdEvent e d 0)
      else if !k.1 then .next (k.2.after 1 e)
      else
        let t := ((k.2.takePort d (hi - lo)).unport e d).closeReq (.event e) d.pa
        let data := x.runs.map (fun r => (r.2.1, t.read (x.line + r.1) r.2.2))
        let r := t.draw
        let turn := Config.copyWinner r.2 % max 1 data.length
        let l := (data.drop turn ++ data.take turn).flatMap (fun y => splitRun (if c.kind == .scatter then c.elem else 64) y.1 y.2)
        r.1.aimPiece p { x with marks := t.markedRuns x.line x.runs, page := none } c l

/-- `COPY_PIECE` (R141, R142, R144): a piece reaches its agent, which holds 16 in flight; the agent reads its source and
translates its destinations, or tries again. -/
def execCopyPiece (s : State) : Host.Outcome State Fault Refusal :=
  match s.event with
  | some (.copyPiece p) =>
    match s.pieces.find p with
    | none => .next s
    | some x =>
      match s.copies.find x.copy with
      | none => .next { s with pieces := s.pieces.del p }
      | some c =>
        if !x.arrived && decide (16 ≤ (s.pieces.filter (fun q => q.2.agent == x.agent && q.2.arrived)).length) then
          .next (s.after 1 (.copyPiece p))
        else
          let y := { x with arrived := true }
          let u := s.setPiece p y
          match x.todo with
          | some l => if x.aimed then .next s else u.aimPiece p y c l
          | none => u.readPiece p y c
  | _ => .next s

/-- The reuse latches that are tagged with a physical q register which a copy-unit write reaches are cleared (R246). -/
def State.unlatchAt (s : State) (pal : Option (CoreId × Nat)) (pa n : Nat) : State :=
  match pal with
  | none => s
  | some (k, _) =>
    (List.range 4).foldl (fun (u : State) j =>
      let i := slotOf k j
      let x := u.slot i
      match x.h.latch with
      | some (true, q) =>
        if rangesMeet (u.qAddr i q) 64 pa n then u.setSlot i { x with h := { x.h with latch := none } } else u
      | _ => u) s

/-- The marks of a piece's source travel with the bytes of a run (R419). -/
def State.markRun (s : State) (x : Piece) (r : DstRun) (pa : Nat) : State :=
  let hit := (x.marks.map (fun m =>
    let lo := max r.va m.1
    let hi := min (r.va + r.bytes.length) (m.1 + m.2)
    if lo < hi then blocksOf (pa + (lo - r.va)) (hi - lo) else [])).flatten
  { s with marks := hit.foldl (fun l g => insertNat g l) s.marks }

/-- What the window of a tile says to a write (R17); elsewhere nothing stands in its way. -/
def State.windowAt (s : State) (pa n : Nat) : WinAns :=
  match s.phys pa with
  | .tileMem t off => s.windowTest t off n
  | _ => .ok

/-- What the windows say to the writes of a piece, the first of which comes next (R17, R144): before it has made any, to all of
them, so that a piece that fails writes nothing; after that a window that has closed, or another that does not take in the
write, refuses it until one does (R70; log 117). -/
def State.pieceWindow (s : State) (x : Piece) (pa : Nat) (r : DstRun) (rest : List DstRun) : WinAns :=
  if x.begun then
    match s.windowAt pa r.bytes.length with
    | .fault _ _ =>
      (match s.phys pa with
        | .tileMem t _ => .refuse (((s.domainOf t).map (fun d => d.2.windowHint)).getD 255)
        | _ => .ok)
    | a => a
  else
    let all := s.windowAt pa r.bytes.length
      :: (rest.filter (fun q => q.pal.isNone)).map (fun q => s.windowAt q.pa q.bytes.length)
    match all.find? (fun a => match a with | .fault .. => true | _ => false) with
    | some a => a
    | none => (all.find? (fun a => a != .ok)).getD .ok

/-- The next run of a piece at its destination: one write, at once or after a refusal, a change of the cluster map, a wait at
a window port or a lost bank (R48, R62, R70, R78, R141). -/
def State.pushRun (s : State) (p : Nat) (x : Piece) (r : DstRun) (rest : List DstRun) : State :=
  let e : Event := .piecePush p
  let n := r.bytes.length
  let pa := match r.pal with
    | some (k, off) => s.palette k + off
    | none => r.pa
  let d : Dest := ⟨s.agentPlace pa, pa, r.page, false⟩
  let back := 2 * s.meshTime (sliceRouter x.agent) (s.runRouter r)
  match s.pieceWindow x pa r rest with
  | .fault a y => (s.unport e d).endPiece p x 0x02 a y 1
  | .refuse h => (s.unport e d).refuseEvent e pa r.page (some h) false back
  | .ok =>
    if s.changing pa then s.refuseEvent e pa r.page (some 255) false back
    else match (s.underway e).answer (.event e) d n true with
    | .refuse h resv => ((s.unport e d).snoopHost pa n true).refuseEvent e pa r.page h resv back
    | .serve =>
      let k := s.takeBanks (.event e) pa n
      if s.portBusy d n then s.holdEvent e d back
      else if !k.1 then k.2.after 1 e
      else
        let u := ((((((k.2.takePort d n).unport e d).closeReq (.event e) pa).placeWrite pa (r.bytes.map some) none).unlatchAt r.pal pa n).markRun x r pa)
        match rest with
        | [] => u.pieceDone p x
        | q :: _ => (u.setPiece p { x with todo := some rest, begun := true }).after (s.pushGap x r q) e

/-- `PIECE_PUSH` (R141, R143, R144): the next destination write of a piece, and the update of its bytes once all are
accepted. -/
def execPiecePush (s : State) : Host.Outcome State Fault Refusal :=
  match s.event with
  | some (.piecePush p) =>
    match s.pieces.find p with
    | none => .next s
    | some x =>
      match x.todo with
      | some (r :: rest) => .next (s.pushRun p x r rest)
      | _ => .next (s.pieceDone p x)
  | _ => .next s

end Sys2Proof.Machine
end

