-- ==== Sys2Proof/Machine/Windows.lean ====
section
/-!
DEFINITION. Slack windows (spec/06_execution_and_scheduling.md R232 to R234; spec/09_memory_instructions.md R331, R332;
spec/12_faults_and_recovery.md R423): posts, openings, closes, delivery and timeouts.
-/
namespace Sys2Proof.Machine

/-! ### Finding windows -/

/-- A window of a launch by its WID: its domain and the window (R232). -/
def State.windowOf (s : State) (lid : Option Nat) (wid : Nat) : Option (Nat × Domain × Window) :=
  s.domains.findSome? (fun p =>
    if some p.2.lid == lid then (p.2.windows.find? (fun (w : Window) => w.wid == wid)).map (fun w => (p.1, p.2, w)) else none)

/-- A domain with one of its windows replaced. -/
def Domain.setWindow (d : Domain) (w : Window) : Domain :=
  { d with windows := d.windows.map (fun (x : Window) => if x.wid == w.wid then w else x) }

/-- The state with a domain replaced. -/
def State.setDomain (s : State) (d : Nat) (x : Domain) : State := { s with domains := s.domains.put d x }

/-- The member tiles of a domain, lowest number first (R229). -/
def Domain.tiles (x : Domain) : List TileId := (List.finRange 128).filter (fun t => x.member t.val)

/-- The window's record for a superstep has been delivered (R234). -/
def Window.deliveredIn (w : Window) (step : Nat) : Bool := (w.delivered.map (fun r => r.2 == step)).getD false

/-! ### Posts from cores (R233, R234, R331, R332) -/

/-- A reserved field of a post record is nonzero (R233). -/
def postReserved (w : Word) : Bool := bitsAt w 32 32 != 0 || bitsAt w 1 7 != 0

/-- The record as delivered (R233): POSTER and DEF written. -/
def postWord (w : Word) (poster : Nat) (dflt : Bool) : Word :=
  BitVec.ofNat 64 (poster * 2 ^ 16 + bitsAt w 8 8 * 2 ^ 8 + (if dflt then 1 else 0))

/-- The ck from the reading of a record to its arrival at the controller (R234). -/
def State.postDelay (s : State) (i : SlotId) (x : Domain) : Nat :=
  match x.tiles with
  | t :: _ => if s.dieOf (coreOf i) = t.val / 64 then 20 else 28
  | [] => 20

/-- A post record of a slot: its status at once, or the post on its way to the controller; `d` is the register of the `wpost`
that waits for the answer, none for a held one (R331). -/
def State.sendPost (s : State) (i : SlotId) (d : Option Reg) (w : List Word) : State × Option Nat :=
  let g (k : Nat) : Word := w.getD k 0
  match s.windowOf (s.core (coreOf i)).lid (bitsAt (g 0) 8 8) with
  | none => (s, some 3)
  | some (k, x, v) =>
    if postReserved (g 0) then (s, some 4)
    else
      let rcd : Vector Word 8 := #v[postWord (g 0) (coreOf i).val false, g 1, g 2, g 3, g 4, g 5, g 6, g 7]
      (s.after (s.postDelay i x) (.windowPostArrival i d k v.wid rcd), none)

/-- `wpost gd, ga` (R331). -/
def execWpost (d a : Reg) (s : State) : Host.Outcome State Fault Refusal :=
  onSlot s fun i => settled s i <|
    let va := (s.g a).toNat
    let r : Res (Nat × List Word) :=
      if va % 64 != 0 then .fault { cause := 0x05, kind := 1, faddr := va } s
      else match s.ownScratch (coreOf i) va 64 with
      | none => .fault (scratchFault .read va) s
      | some off =>
        if (s.slot i).speculative then .ok (off, []) s
        else (s.readAt i ⟨.palette (coreOf i) true, s.palette (coreOf i) + off, none, false⟩ va 64 .again).bind
          fun b t => .ok (off, wordsOf b) t
    match r with
    | .fault f t => .next (t.raiseFault s.cur f)
    | .wait w t => .next (t.park s.cur w)
    | .stop f => .fault f
    | .ok (off, w) t =>
      if (t.slot i).speculative then
        .next (((t.hold i (.wpost d a) (BitVec.ofNat 64 off) 0 0).wg s.cur d deferred).done s.cur)
      else
        match t.sendPost i (some d) w with
        | (u, some st) => .next ((u.wg s.cur d (BitVec.ofNat 64 st)).done s.cur)
        | (u, none) =>
          match u.windowOf (u.core (coreOf i)).lid (bitsAt (w.getD 0 0) 8 8) with
          | some (k, _, v) => .next (u.park s.cur (.post k v.wid))
          | none => .next u

/-- A held `wpost` released at commit (R304): the record is read then, and a refusal is lost. -/
def State.releasePost (s : State) (i : SlotId) (off : Nat) : State :=
  (s.sendPost i none (wordsOf (s.read (s.palette (coreOf i) + off) 64))).1

/-- The answer of the controller reaches the slot, whose `wpost` completes, unless a held one sent the post; a suspended slot
repeats its wait on resumption and finds the answer in its saved registers (R331, R412). -/
def State.answerPost (s : State) (i : SlotId) (rd : Option Reg) (d wid status : Nat) : State :=
  let x := s.slot i
  match rd with
  | none => s
  | some r =>
    if x.wait != .post d wid then s
    else if x.st = .suspended then
      s.setSlot i { x with h := (x.h.wg r (BitVec.ofNat 64 status)).advance, wait := .none }
    else s.complete i r (BitVec.ofNat 64 status)

/-- `WINDOW_POST_ARRIVAL` (R234, R331, R423): the controller accepts the first post of an opening. -/
def execWindowPostArrival (s : State) : Host.Outcome State Fault Refusal :=
  match s.event with
  | some (.windowPostArrival i rd d wid post) =>
    match s.domains.find d with
    | none => .next (s.answerPost i rd d wid 3)
    | some x =>
      match x.windows.find? (fun (w : Window) => w.wid == wid) with
      | none => .next (s.answerPost i rd d wid 3)
      | some w =>
        if !w.isOpen then .next (s.answerPost i rd d wid 1)
        else if w.posted.isSome then .next (s.answerPost i rd d wid 2)
        else if w.deliveredIn x.step then .next (s.answerPost i rd d wid 1)
        else .next ((s.setDomain d (x.setWindow { w with posted := some post })).answerPost i rd d wid 0)
  | _ => .next s

/-- `wquery gd, ga` (R332). -/
def execWquery (d a : Reg) (s : State) : Host.Outcome State Fault Refusal :=
  onSlot s fun i =>
    let v := s.g a
    if bitsAt v 8 56 != 0 then .next (s.raiseFault s.cur { cause := 0x01 })
    else
      let r : Nat := match s.windowOf (s.core (coreOf i)).lid (bitsAt v 0 8) with
        | none => 8
        | some (_, _, w) =>
          (if w.stopped.isSome then 4 else 0) + (if w.posted.isSome && w.isOpen then 2 else 0) + (if w.isOpen then 1 else 0)
      .next ((s.wg s.cur d (BitVec.ofNat 64 r)).done s.cur)

/-! ### Openings and closes (R232, R234, R423) -/

/-- A line journaled into the shadow of its tile; past 4,096 lines the superstep becomes unprotected (R423, R425). -/
def State.journalLine (s : State) (d wid l : Nat) : State :=
  match s.domains.find d with
  | none => s
  | some x =>
    if !x.pent || x.unprot then s
    else
      let t : TileId := Fin.ofNat 128 (l / 65536)
      let line := l % 65536
      let y := s.tile t
      let old := y.journal.filter (fun j => !(j.wid == wid && j.line == line))
      if old.length + y.shadow.length < 4096 then
        let j : Journal := ⟨wid, line, BitVec.ofNat 2048 (s.tmNat t (256 * line) 256), s.lineMarks (tileBase t + 256 * line)⟩
        s.setTile t { y with journal := old ++ [j] }
      else s.setDomain d { x with unprot := true }

/-- A window journaled at its close, or at a freeze (R423). -/
def State.journalWindow (s : State) (d : Nat) (w : Window) : State :=
  w.wrote.foldl (fun u l => u.journalLine d w.wid l) s

/-- The tiles that wait for the delivery of a window issue their `wtake` again. -/
def State.wakeWindow (s : State) (d wid : Nat) : State :=
  (List.finRange 128).foldl (fun (u : State) t =>
    if (u.tile t).wait == Wait.window d wid then u.setTile t { u.tile t with wait := .none } else u) s

/-- The record that a close delivers (R234): the accepted post, or the default record. -/
def Window.delivery (w : Window) : Vector Word 8 :=
  match w.posted with
  | some r => r
  | none => w.defpost.set 0 (postWord w.defpost[0] 0xFFFF true)

/-- A window's record is delivered to every member, once for a superstep (R234). -/
def State.deliverWindow (s : State) (d wid : Nat) : State :=
  match s.domains.find d with
  | none => s
  | some x =>
    match x.windows.find? (fun (w : Window) => w.wid == wid) with
    | none => s
    | some w =>
      if w.deliveredIn x.step then s
      else (s.setDomain d (x.setWindow { w with delivered := some (w.delivery, x.step), prior := w.delivered })).wakeWindow d wid

/-- A window closes: what was written in it is journaled (R234, R423). -/
def State.shutWindow (s : State) (d wid : Nat) : State :=
  match s.domains.find d with
  | none => s
  | some x =>
    match x.windows.find? (fun (w : Window) => w.wid == wid) with
    | none => s
    | some w =>
      let s1 := s.journalWindow d w
      match s1.domains.find d with
      | none => s1
      | some y => s1.setDomain d (y.setWindow { w with isOpen := false, stopped := none, wrote := [] })

/-- A window delivers its record, if it has not yet, and closes (R234). -/
def State.closeWindow (s : State) (d wid : Nat) : State := (s.deliverWindow d wid).shutWindow d wid

/-- The phase clock shows the close offset of a window, which stays open to the end of this ck (R232, R234). -/
def Window.closing (w : Window) (x : Domain) : Bool :=
  w.isOpen && w.close == x.off && x.lead == 0 && w.stopped.isNone && !w.deliveredIn x.step

/-- `WINDOW_OPEN` (R232, R423): the window opens; in a repeat the tiles write back the journaled lines and a kept post
stands. -/
def execWindowOpen (s : State) : Host.Outcome State Fault Refusal :=
  match s.event with
  | some (.windowOpen d wid) =>
    match s.domains.find d with
    | none => .next s
    | some x =>
      match x.windows.find? (fun (w : Window) => w.wid == wid) with
      | none => .next s
      | some w =>
        let s1 := s.setDomain d (x.setWindow { w with isOpen := true, posted := if w.kept then w.posted else none,
                                                       kept := false, stopped := none, wrote := [] })
        .next (x.tiles.foldl (fun (u : State) t =>
          (u.tile t).journal.foldl (fun (v : State) j =>
            if j.wid = wid then
              let pa := tileBase t + 256 * j.line
              (v.tmStore t (256 * j.line) (bytesOfNat 256 j.bytes.toNat)).setLineMarks pa j.marks
            else v) u) s1)
  | _ => .next s

/-- `WINDOW_CLOSE` (R234): the record is delivered to every member in one ck. In the ck of its close offset the window stays
open after that; a hold window without a post is not delivered then. -/
def execWindowClose (s : State) : Host.Outcome State Fault Refusal :=
  match s.event with
  | some (.windowClose d wid) =>
    match s.domains.find d with
    | none => .next s
    | some x =>
      match x.windows.find? (fun (w : Window) => w.wid == wid) with
      | none => .next s
      | some w =>
        if !w.closing x then .next (s.closeWindow d wid)
        else if w.hold && w.posted.isNone then .next s
        else .next (s.deliverWindow d wid)
  | _ => .next s

/-- `WINDOW_TIMEOUT` (R234, R402): every member takes the window-timeout fault, and the window closes. -/
def execWindowTimeout (s : State) : Host.Outcome State Fault Refusal :=
  match s.event with
  | some (.windowTimeout d wid) =>
    match s.domains.find d with
    | none => .next s
    | some x =>
      let s1 := (s.shutWindow d wid).wakeWindow d wid
      .next (x.tiles.foldl (fun u t => u.tileFault t { cause := 0x0F, asy := true } (u.tile t).h.pc) s1)
  | _ => .next s

end Sys2Proof.Machine
end

