-- ==== Sys2Proof/Machine/Torus.lean ====
section
/-!
DEFINITION. The timed-link torus as the package's own side sees it (spec/13_links_and_host.md R433 to R437, R443): places,
routes, and flits put in line for a port.
-/
namespace Sys2Proof.Machine

/-- The 12-bit number of a package: z, y and x (R435). -/
def pkgNo (p : Nat × Nat × Nat) : Nat := p.2.2 % 16 * 256 + p.2.1 % 16 * 16 + p.1 % 16
/-- The coordinates of a package number. -/
def pkgPos (n : Nat) : Nat × Nat × Nat := (n % 16, n / 16 % 16, n / 256 % 16)
/-- This package's number. -/
def State.here (s : State) : Nat := pkgNo s.pos
/-- The package is part of a torus (R203, R433). -/
def State.inTorus (s : State) : Bool := s.extents.1 != 0 && s.extents.2.1 != 0 && s.extents.2.2 != 0

/-- One dimension of a route: none where the coordinates agree, else whether it goes toward + (R437). -/
def dimStep (ext a b : Nat) : Option Bool :=
  if a = b ∨ ext = 0 then none else some (decide ((b + ext - a) % ext ≤ (a + ext - b) % ext))

/-- The direction in which a flit at `p` for `d` leaves (R437): 0 is +X, 1 is −X, 2 is +Y, 3 is −Y, 4 is +Z, 5 is −Z. -/
def State.routeFrom (s : State) (p d : Nat × Nat × Nat) : Option Nat :=
  match dimStep s.extents.1 p.1 d.1 with
  | some up => some (if up then 0 else 1)
  | none =>
    match dimStep s.extents.2.1 p.2.1 d.2.1 with
    | some up => some (if up then 2 else 3)
    | none =>
      match dimStep s.extents.2.2 p.2.2 d.2.2 with
      | some up => some (if up then 4 else 5)
      | none => none

/-- The direction in which a flit for a package leaves here. -/
def State.routeDir (s : State) (dst : Nat) : Option Nat := s.routeFrom s.pos (pkgPos dst)

/-- The place one hop from `p` in a direction (R433). -/
def State.stepFrom (s : State) (p : Nat × Nat × Nat) (dir : Nat) : Nat × Nat × Nat :=
  let step (e a : Nat) : Nat := if e = 0 then a else if dir % 2 = 0 then (a + 1) % e else (a + e - 1) % e
  if dir < 2 then (step s.extents.1 p.1, p.2.1, p.2.2)
  else if dir < 4 then (p.1, step s.extents.2.1 p.2.1, p.2.2)
  else (p.1, p.2.1, step s.extents.2.2 p.2.2)

/-- The neighbour of this package in a direction. -/
def State.neighbour (s : State) (dir : Nat) : Nat := pkgNo (s.stepFrom s.pos dir)

/-- A port by number. -/
def State.linkPort (s : State) (p : Nat) : LinkPort := s.ports.toList.getD p LinkPort.reset
/-- The state with a port replaced. -/
def State.setPort (s : State) (p : Nat) (x : LinkPort) : State := { s with ports := s.ports.setIfInBounds p x }

/-- The live port of a direction, its first before its second (log 30). -/
def State.portOf (s : State) (dir : Nat) : Option Nat :=
  if !(s.linkPort (2 * dir)).failed then some (2 * dir)
  else if !(s.linkPort (2 * dir + 1)).failed then some (2 * dir + 1)
  else none

/-- The links of a direction are used: its dimension has an extent above 1 (R433). -/
def State.dirUsed (s : State) (dir : Nat) : Bool :=
  decide (1 < (if dir < 2 then s.extents.1 else if dir < 4 then s.extents.2.1 else s.extents.2.2))

/-- The port for a package: that of its route, or past a lost link one step in the next live dimension (R437, R439). -/
def State.portFor (s : State) (dst : Nat) : Option Nat :=
  match s.routeDir dst with
  | none => none
  | some d =>
    match s.portOf d with
    | some p => some p
    | none => ((List.range 6).map (fun k => (d / 2 * 2 + 2 + k) % 6)).findSome? (fun e =>
        if e / 2 != d / 2 && s.dirUsed e then s.portOf e else none)

/-- The class of a payload, 0 first (R437); RETRY goes with the second class (log 30). -/
def flitClass : FlitBody → Nat
  | .time .. => 0
  | .record _ => 2
  | .ready .. => 2
  | .update .. => 2
  | .data .. => 3
  | _ => 1

/-- TYPE of a payload (R436). -/
def flitType : FlitBody → Nat
  | .idle => 0
  | .data .. => 1
  | .arrive .. => 2
  | .release .. => 3
  | .hold .. => 4
  | .go .. => 5
  | .time .. => 6
  | .retry _ => 7
  | .alarm .. => 8
  | .record _ => 9
  | .ready .. => 9
  | .update .. => 10
  | .reserved n => n

/-- The 8-byte header of a flit (R435). -/
def flitHeader (f : Flit) : Word :=
  BitVec.ofNat 64 (flitType f.body % 16 * 2 ^ 60 + f.domn % 64 * 2 ^ 54 + f.seq % 4096 * 2 ^ 42 + f.dst % 4096 * 2 ^ 30
    + f.src % 4096 * 2 ^ 18 + f.slot % 2 ^ 18)

/-- The acknowledgment word of a flit (R435). -/
def flitAck (f : Flit) : BitVec 32 :=
  match f.ack with
  | some a => BitVec.ofNat 32 (2 ^ 31 + a % 4096 * 2 ^ 16)
  | none => 0

/-- CRC-32C of bytes, by its reflected polynomial, bit by bit (R435): what the register holds after `n` bits of a byte. -/
def crcBits : Nat → Nat → Nat
  | 0, c => c
  | n + 1, c => crcBits n (if c % 2 = 1 then (c / 2) ^^^ 0x82F63B78 else c / 2)

/-- CRC-32C (R435). -/
def crc32c (l : List Byte) : BitVec 32 :=
  BitVec.ofNat 32 (l.foldl (fun c b => crcBits 8 (c ^^^ b.toNat)) 0xFFFFFFFF ^^^ 0xFFFFFFFF)

/-- The 128 bytes of a flit with the 112 bytes of its payload (R435): the header, the payload, the acknowledgment word and the
CRC over them. -/
def flitBytes (f : Flit) (payload : List Byte) : List Byte :=
  let body := bytesOfNat 8 (flitHeader f).toNat ++ payload ++ bytesOfNat 4 (flitAck f).toNat
  body ++ bytesOfNat 4 (crc32c body).toNat

/-- The CRC of a flit's 128 bytes holds (R438). -/
def flitHolds (l : List Byte) : Bool := natOfBytes (l.drop 124) == (crc32c (l.take 124)).toNat

/-- A flit put in line at a port. -/
def State.enqueueFlit (s : State) (p : Nat) (f : Flit) : State :=
  let x := s.linkPort p
  let c := flitClass f.body
  s.setPort p { x with outq := x.outq.setIfInBounds c (x.outq.toList.getD c [] ++ [f]) }

/-- A flit that passes on toward its destination (R437); one without a live route is dropped with its package lost. -/
def State.forward (s : State) (f : Flit) : State :=
  match s.portFor f.dst with
  | some p => s.enqueueFlit p f
  | none => s

/-- A flit of this package to another (R435). -/
def State.sendFlit (s : State) (dst domn : Nat) (body : FlitBody) : State :=
  s.forward { domn := domn, seq := 0, dst := dst, src := s.here, slot := s.time / 10 % 2 ^ 18, ack := none, body := body }

/-! ### Member boxes (R229, R443) -/

/-- XJOB of a domain table entry. -/
def Domain.xjob (x : Domain) : Nat := bitsAt x.ent[3] 48 16
/-- The low corner of the member box. -/
def Domain.lo (x : Domain) : Nat × Nat × Nat := (bitsAt x.ent[3] 36 4, bitsAt x.ent[3] 40 4, bitsAt x.ent[3] 44 4)
/-- The high corner of the member box. -/
def Domain.hi (x : Domain) : Nat × Nat × Nat := (bitsAt x.ent[3] 24 4, bitsAt x.ent[3] 28 4, bitsAt x.ent[3] 32 4)

/-- A package lies in the member box. -/
def Domain.inBox (x : Domain) (n : Nat) : Bool :=
  let p := pkgPos n
  decide (x.lo.1 ≤ p.1) && decide (p.1 ≤ x.hi.1) && decide (x.lo.2.1 ≤ p.2.1) && decide (p.2.1 ≤ x.hi.2.1)
    && decide (x.lo.2.2 ≤ p.2.2) && decide (p.2.2 ≤ x.hi.2.2)

/-- The other member packages of a cross-package domain. -/
def State.peers (s : State) (x : Domain) : List Nat :=
  if x.xpkg then (List.range 4096).filter (fun n => x.inBox n && n != s.here) else []

/-- This package reports to the other members that it is ready for a superstep, with its domain time (R413, R443). -/
def State.reportReady (s : State) (d : Nat) (x : Domain) : State :=
  (s.peers x).foldl (fun u n => u.sendFlit n d (.ready x.step s.time)) (s.setDomain d { x with xwhen := max x.xwhen s.time })

/-- The root of the gather tree (R443). -/
def Domain.root (x : Domain) : Nat × Nat × Nat :=
  let mid (l h : Nat) : Nat := l + (h - l) / 2
  (mid x.lo.1 x.hi.1, mid x.lo.2.1 x.hi.2.1, mid x.lo.2.2 x.hi.2.2)

/-- The largest distances to the root, in hops (R443). -/
def Domain.reach (x : Domain) : Nat :=
  let far (l m h : Nat) : Nat := max (m - l) (h - m)
  far x.lo.1 x.root.1 x.hi.1 + far x.lo.2.1 x.root.2.1 x.hi.2.1 + far x.lo.2.2 x.root.2.2 x.hi.2.2

/-- The neighbour of a place toward the root: along X, then Y, then Z (R443); none at the root. -/
def towardRoot (r p : Nat × Nat × Nat) : Option (Nat × Nat × Nat) :=
  let step (a b : Nat) : Nat := if a < b then a + 1 else a - 1
  if p.1 != r.1 then some (step p.1 r.1, p.2.1, p.2.2)
  else if p.2.1 != r.2.1 then some (p.1, step p.2.1 r.2.1, p.2.2)
  else if p.2.2 != r.2.2 then some (p.1, p.2.1, step p.2.2 r.2.2)
  else none

/-- This package's parent in the gather tree. -/
def State.parentOf (s : State) (x : Domain) : Option Nat := (towardRoot x.root s.pos).map pkgNo

/-- This package's children in the gather tree. -/
def State.childrenOf (s : State) (x : Domain) : List Nat :=
  (s.peers x).filter (fun n => towardRoot x.root (pkgPos n) == some s.pos)

/-- The hops between two places on dimension-order routes (R437). -/
def State.hops (s : State) (a b : Nat × Nat × Nat) : Nat :=
  let d (e x y : Nat) : Nat := if e = 0 then 0 else min ((y + e - x) % e) ((x + e - y) % e)
  d s.extents.1 a.1 b.1 + d s.extents.2.1 a.2.1 b.2.1 + d s.extents.2.2 a.2.2 b.2.2

/-- The links of a list that the route from `p` to `d` meets, within some hops (R439). -/
def State.linksOn (s : State) (links : List (Nat × Nat)) : Nat → Nat × Nat × Nat → Nat × Nat × Nat → Nat
  | 0, _, _ => 0
  | n + 1, p, d =>
    match s.routeFrom p d with
    | none => 0
    | some dir => (if links.contains (pkgNo p, dir) then 1 else 0) + s.linksOn links n (s.stepFrom p dir) d

/-- A link as the packages at its two ends name it. -/
def State.bothEnds (s : State) (pkg dir : Nat) : List (Nat × Nat) :=
  [(pkg, dir), (pkgNo (s.stepFrom (pkgPos pkg) dir), dir ^^^ 1)]

/-- The route of two members of a domain, or its tree, uses a link (R439). -/
def State.usesLink (s : State) (x : Domain) (pkg dir : Nat) : Bool :=
  let ps := (insertNat s.here (s.peers x)).map pkgPos
  ps.any (fun a => ps.any (fun b => s.linksOn (s.bothEnds pkg dir) 24 a b != 0))

/-- DMAX, the largest hop count between two members (R446): a route that meets a lost link takes two hops more (R439). -/
def State.farthest (s : State) (x : Domain) : Nat :=
  let span (e l h : Nat) : Nat := min (h - l) (e / 2)
  if s.lostLinks.isEmpty then
    span s.extents.1 x.lo.1 x.hi.1 + span s.extents.2.1 x.lo.2.1 x.hi.2.1 + span s.extents.2.2 x.lo.2.2 x.hi.2.2
  else
    let ps := (insertNat s.here (s.peers x)).map pkgPos
    (ps.flatMap (fun a => ps.map (fun b => s.hops a b + 2 * s.linksOn s.lostLinks 24 a b))).foldl max 0

/-- HLEAD (R446). -/
def State.hleadOf (s : State) (x : Domain) : Nat := if x.xpkg then 48 * s.farthest x + 24 else 0

/-- A place lies on the way from another to the root of a gather tree, within some hops (R443). -/
def onWay (r here : Nat × Nat × Nat) : Nat → Nat × Nat × Nat → Bool
  | 0, p => p == here
  | n + 1, p => p == here || ((towardRoot r p).map (onWay r here n)).getD false

/-- The packages whose arrivals an ARRIVE of this package stands for: its own and those below it in the gather tree (R443,
R444; log 110). -/
def State.packagesBelow (s : State) (x : Domain) : Nat :=
  ((insertNat s.here (s.peers x)).filter (fun n => onWay x.root s.pos 48 (pkgPos n))).length

end Sys2Proof.Machine
end

