-- ==== Sys2Proof/Machine/Queues.lean ====
section
/-!
DEFINITION. User-mode queues (spec/13_links_and_host.md R455 to R464): descriptors, consumption of packets, result records
and signals. A command processor's own accesses are not user accesses (log 15).
-/
namespace Sys2Proof.Machine

/-! ### Descriptors (R457) -/

/-- A queue after reset (R457). -/
def Queue.reset : Queue := ⟨Vector.replicate 8 0, [], 0, 0⟩
/-- A queue. -/
def State.queueAt (s : State) (q : Nat) : Queue := (s.queues.find q).getD Queue.reset
/-- The state with a queue replaced. -/
def State.setQueue (s : State) (q : Nat) (x : Queue) : State := { s with queues := s.queues.put q x }
/-- Word `k` of a descriptor. -/
def Queue.w (x : Queue) (k : Nat) : Word := x.desc.toList.getD k 0
/-- EN. -/
def Queue.en (x : Queue) : Bool := bitsAt (x.w 0) 63 1 == 1
/-- PRIV. -/
def Queue.prv (x : Queue) : Bool := bitsAt (x.w 0) 62 1 == 1
/-- CTX. -/
def Queue.ctx (x : Queue) : Nat := bitsAt (x.w 0) 48 8
/-- RIDX. -/
def Queue.ridx (x : Queue) : Nat := bitsAt (x.w 0) 0 32
/-- The packets of the ring. -/
def Queue.cap (x : Queue) : Nat := 2 ^ (bitsAt (x.w 0) 44 4 + 6)
/-- QBASE. -/
def Queue.base (x : Queue) : Nat := (x.w 1).toNat
/-- FQBASE. -/
def Queue.fqBase (x : Queue) : Nat := (x.w 2).toNat
/-- FQIDX. -/
def Queue.fqIdx (x : Queue) : Nat := bitsAt (x.w 3) 32 32

/-- A queue with a word of its descriptor replaced. -/
def Queue.setW (x : Queue) (k : Nat) (v : Word) : Queue := { x with desc := x.desc.setIfInBounds k v }

/-- A translation fault on the ring, a signal or a result record disables the queue (R458, R462). -/
def Queue.disabled (x : Queue) : Queue := x.setW 0 (setBits (setBits (x.w 0) 63 1 0) 61 1 1)

/-- The fields of word 0 that a driver writes (R457): EN, PRIV, CTX and SZ, and ERR by writing 1. While EN = 1 a write that
changes CTX or SZ is ignored. -/
def Queue.writeW0 (x : Queue) (v : Word) : Queue :=
  let old := x.w 0
  if x.en && bitsAt v 44 12 != bitsAt old 44 12 then x
  else
    let err := if bitsAt v 61 1 = 1 then 0 else bitsAt old 61 1
    let rise := !x.en && bitsAt v 63 1 == 1
    let ridx := if rise then 0 else bitsAt old 0 32
    let w0 := BitVec.ofNat 64 (bitsAt v 62 2 * 2 ^ 62 + err * 2 ^ 61 + bitsAt v 44 12 * 2 ^ 44 + ridx)
    let y := x.setW 0 w0
    if rise then y.setW 3 0 else y

/-- A driver's write of word `k` of a descriptor (R457). -/
def Queue.writeWord (x : Queue) (k : Nat) (v : Word) : Queue :=
  match k with
  | 0 => x.writeW0 v
  | 1 => if x.en then x else x.setW 1 v
  | 2 => x.setW 2 v
  | 4 => x.setW 4 v
  | 5 => x.setW 5 v
  | _ => x

/-- `QUEUE_DESCRIPTOR_WRITE` (R457): the driver writes through firmware, which must run (R466). -/
def execQueueDescriptorWrite (s : State) : Host.Outcome State Fault Refusal :=
  match s.event with
  | some (.queueDescriptorWrite q k x) => if q < 2048 ∧ s.boot.st = .running then .next (s.setQueue q ((s.queueAt q).writeWord k x)) else .next s
  | _ => .next s

/-! ### What the host addresses (R455, R458) -/

/-- The offset in BAR0 of word `k` of the descriptor of queue `q` (R455). -/
def descriptorOffset (q k : Nat) : Nat := 0x100000 + 64 * q + 8 * k
/-- The offset in BAR2 of the notify register of queue `q` (R455). -/
def notifyOffset (q : Nat) : Nat := 0x1000 * q

/-- What a write of the host at an offset of BAR0 or BAR2 asks of the package (R455, R457, R458). -/
def barEvent (bar off : Nat) (x : Word) : Option Event :=
  if bar = 0 ∧ 0x100000 ≤ off ∧ off < 0x120000 ∧ off % 8 = 0 then
    some (.queueDescriptorWrite ((off - 0x100000) / 64) (off % 64 / 8) x)
  else if bar = 2 ∧ off < 0x800000 ∧ off % 0x1000 = 0 then some (.notify (off / 0x1000))
  else none

/-- A write of the host to BAR0 or BAR2 (R455). -/
def State.barWrite (s : State) (bar off : Nat) (x : Word) : State := ((barEvent bar off x).map s.post).getD s

/-- What the host reads at an offset of BAR0 or BAR2 (R455, R457, R458, R466): the boot mailbox with the failing check, a word of a
descriptor, or RIDX at a notify register; of the other registers the spec gives nothing. -/
def State.barRead (s : State) (bar off : Nat) : Option Word :=
  if bar = 0 ∧ off = 0 then some (BitVec.ofNat 64 s.boot.failing)
  else if bar = 0 ∧ 0x100000 ≤ off ∧ off < 0x120000 ∧ off % 8 = 0 then some ((s.queueAt ((off - 0x100000) / 64)).w (off % 64 / 8))
  else if bar = 2 ∧ off < 0x800000 ∧ off % 0x1000 = 0 then some (BitVec.ofNat 64 (s.queueAt (off / 0x1000)).ridx)
  else none

/-- The device physical address in HBM of a host address, for the HDM base that the host chose (R455). -/
def hdmPa (base addr : Nat) : Option Nat := if base ≤ addr ∧ addr < base + 0x8000000000 then some (addr - base) else none
/-- The host address of a device physical address in the host range (R455). -/
def hostAddr (pa : Nat) : Nat := pa % 2 ^ 46

/-! ### Packets (R458, R459) -/

/-- TYPE of a packet. -/
def Packet.typ (p : Packet) : Nat := bitsAt p.w[0] 48 8
/-- TAG. -/
def Packet.tag (p : Packet) : Nat := bitsAt p.w[0] 0 16
/-- A0. -/
def Packet.a0 (p : Packet) : Nat := p.w[1].toNat
/-- SIG. -/
def Packet.sig (p : Packet) : Nat := p.w[2].toNat
/-- RES. -/
def Packet.res (p : Packet) : Nat := p.w[3].toNat
/-- A1. -/
def Packet.a1 (p : Packet) : Nat := p.w[4].toNat
/-- A2. -/
def Packet.a2 (p : Packet) : Nat := p.w[5].toNat

/-- A packet is malformed (R459, R462): an unlisted field set, an unknown type, an operand that its type leaves zero, or a
misaligned signal, result record, launch record or save area. -/
def Packet.malformed (p : Packet) : Bool :=
  let t := p.typ
  bitsAt p.w[0] 56 6 != 0 || bitsAt p.w[0] 16 32 != 0 || p.w[6] != 0 || p.w[7] != 0
    || t == 0 || decide (7 < t) || p.sig % 8 != 0 || p.res % 16 != 0
    || (t == 1 && p.a0 % 64 != 0) || (t == 4 && p.a0 != 0)
    || ((t == 1 || t == 2 || t == 4) && p.a1 != 0) || (t == 5 && decide (1 < p.a1))
    || ((t == 6 || t == 7) && p.a1 % 65536 != 0) || (t < 6 && p.a2 != 0)

/-- A packet of a queue by its number. -/
def State.packetAt (s : State) (q k : Nat) : Option Packet := (s.queueAt q).packets.find? (fun (p : Packet) => p.idx == k)

/-- A packet replaced. -/
def State.setPacket (s : State) (q : Nat) (p : Packet) : State :=
  let x := s.queueAt q
  s.setQueue q { x with packets := x.packets.map (fun (y : Packet) => if y.idx == p.idx then p else y) }

/-- The result record of R461. -/
def resultWords (status cause tag lid detail : Nat) : List Word :=
  [BitVec.ofNat 64 (status % 256 * 2 ^ 56 + cause % 256 * 2 ^ 48 + tag * 2 ^ 32 + lid % 2 ^ 32), BitVec.ofNat 64 detail]

/-- A virtual address names memory of normal type (R462). -/
def State.normalAt (s : State) (ctx va : Nat) : Res Bool :=
  (s.vaPhys ctx .atomic false va).bind fun pa u => .ok (u.phys pa != .device) u

/-- −1 added to a completion signal (R462, R201); whether it could be. -/
def State.signal (s : State) (ctx va : Nat) : Res Bool :=
  (s.normalAt ctx va).bind fun ok s =>
    if !ok then .ok false s
    else (s.vread ctx false va 8).bind fun b s =>
      (s.vwrite ctx false va (bytesOfNat 8 ((natOfBytes b + 2 ^ 64 - 1) % 2 ^ 64))).bind fun _ s => .ok true s

/-- The result record of a packet, and then its signal (R462); whether both could be written. -/
def State.report (s : State) (ctx : Nat) (p : Packet) (f : Nat × Nat × Nat × Nat) : Res Bool :=
  let bytes := bytesOfWords (resultWords f.1 f.2.1 p.tag f.2.2.1 f.2.2.2)
  let r : Res Bool :=
    if p.res = 0 ∨ p.res % 16 ≠ 0 then .ok true s
    else (s.normalAt ctx p.res).bind fun ok s => (s.vwrite ctx false p.res bytes).bind fun _ s => .ok ok s
  r.bind fun ok s => if !ok ∨ p.sig = 0 ∨ p.sig % 8 ≠ 0 then .ok ok s else s.signal ctx p.sig

/-- A packet leaves its queue, which a translation fault disables; consumption goes on (R458, R462). -/
def State.retirePacket (s : State) (q k : Nat) (bad : Bool) : State :=
  let x := s.queueAt q
  let y := if bad then x.disabled else x
  (s.setQueue q { y with packets := y.packets.filter (fun (r : Packet) => r.idx != k) }).post (.notify q)

/-- The writes of a packet's completion, or another try at them once what they wait for may be over (R42, R43). -/
def State.finishPacket (s : State) (q k : Nat) : State :=
  match s.packetAt q k with
  | none => s
  | some p =>
    match p.fin with
    | none => s
    | some f =>
      match s.report (s.queueAt q).ctx p f with
      | .ok ok u => u.retirePacket q k (!ok)
      | .wait w u => u.setPacket q { p with tryAt := u.ck + u.delay w }
      | .fault _ u => u.retirePacket q k true
      | .stop _ => s.retirePacket q k true

/-- A packet completes (R461, R462): the result record, then the signal; consumption goes on (R458). -/
def State.completePacket (s : State) (q k status cause lid detail : Nat) : State :=
  match s.packetAt q k with
  | none => s
  | some p => (s.setPacket q { p with fin := some (status, cause, lid, detail) }).finishPacket q k

/-- The packets whose completion waits are tried again (R42, R43). -/
def State.finishStep (s : State) : State :=
  s.queues.foldl (fun (u : State) x => x.2.packets.foldl (fun (v : State) (p : Packet) =>
    if p.fin.isSome && decide (p.tryAt ≤ v.ck) then v.finishPacket x.1 p.idx else v) u) s

/-- The event of a packet's type (R459). -/
def Packet.event (p : Packet) (q : Nat) : Event :=
  match p.typ with
  | 1 => .launch q p.idx
  | 2 => .poolLaunch q p.idx
  | 3 => .poolWrite q p.idx
  | 4 => .fence q p.idx
  | 5 => .faultAnswer q p.idx
  | 6 => .suspend q p.idx
  | _ => .resume q p.idx

/-- One turn of consumption (R458): whether a packet has been taken from the ring. -/
def State.consume (s : State) (q : Nat) : Res Bool :=
  let x := s.queueAt q
  let slot := x.base + 64 * (x.ridx % x.cap)
  if !x.en then .ok false s
  else (s.vread x.ctx false slot 64).bind fun b s =>
    let w := wordsOf b
    let g (k : Nat) : Word := w.getD k 0
    let h := g 0
    if bitsAt h 63 1 = 0 then .ok false s
    else if bitsAt h 62 1 = 1 ∧ !x.packets.isEmpty then .ok false s
    else (s.vwrite x.ctx false slot (bytesOfNat 8 (setBits h 63 1 0).toNat)).bind fun _ t =>
      let p : Packet := { idx := x.count, w := #v[h, g 1, g 2, g 3, g 4, g 5, g 6, g 7], started := false, lid := none,
                          fin := none, tryAt := 0 }
      let y := x.setW 0 (setBits (x.w 0) 0 32 ((x.ridx + 1) % 2 ^ 32))
      .ok true (t.setQueue q { y with packets := y.packets ++ [p], count := x.count + 1 })

/-- Consumption until it stops (R458); a ring has at most 65,536 packets. Where an access to the ring waits, consumption goes
on after the wait. -/
def State.consumeAll (s : State) (q : Nat) : Nat → State
  | 0 => s
  | n + 1 =>
    match s.consume q with
    | .ok true t => t.consumeAll q n
    | .ok false t => t
    | .wait w t => t.after (t.delay w) (.notify q)
    | .fault _ t => t.setQueue q (t.queueAt q).disabled
    | .stop _ => s

/-- `NOTIFY` (R458): the queue's command processor consumes packets. -/
def execNotify (s : State) : Host.Outcome State Fault Refusal :=
  match s.event with
  | some (.notify q) => if q < 2048 then .next (s.consumeAll q 65536) else .next s
  | _ => .next s

/-- The oldest packet of a queue that has not been submitted (R460). -/
def Queue.ready (x : Queue) : Option Packet := x.packets.find? (fun (p : Packet) => !p.started)

/-- A command processor's turn (R460): the next of its queues, round-robin, with a consumed packet. -/
def State.nextQueue (s : State) (cp : Nat) : Option (Nat × Packet) :=
  let last := s.turns.toList.getD cp 0
  let qs := (s.queues.filter (fun p => p.1 / 512 == cp && p.2.ready.isSome)).map (fun p => p.1)
  let pick := match qs.find? (fun q => decide (last < q)) with
    | some q => some q
    | none => qs.head?
  match pick with
  | some q => ((s.queueAt q).ready).map (fun p => (q, p))
  | none => none

/-- A command processor submits one packet (R459, R460). -/
def State.submitPacket (s : State) (cp : Nat) : State :=
  match s.nextQueue cp with
  | none => s
  | some (q, p) =>
    let s1 := { s with turns := s.turns.setIfInBounds cp q }.setPacket q { p with started := true }
    if p.malformed then s1.completePacket q p.idx 0x01 0 0 0
    else if (p.typ == 3 || p.typ == 6 || p.typ == 7) && !(s.queueAt q).prv then s1.completePacket q p.idx 0x02 0 0 0
    else s1.post (p.event q)

/-- `FENCE` (R459): it completes once every earlier packet of its queue has completed. -/
def execFence (s : State) : Host.Outcome State Fault Refusal :=
  match s.event with
  | some (.fence q k) =>
    match (s.queueAt q).packets.head? with
    | some p => if p.idx = k then .next (s.completePacket q k 0 0 0 0) else .next (s.after 1 (.fence q k))
    | none => .next s
  | _ => .next s

/-! ### Fault records (R463) -/

/-- A fault record for the host; whether it has been written: the queue may take no more. -/
def State.faultRecord (s : State) (q lid : Nat) (t : TileId) (ktile : Word) : Res Bool :=
  let x := s.queueAt q
  if x.fqBase = 0 ∨ 64 ≤ x.unanswered then .ok false s
  else
    let h := (s.tile t).h
    let w : List Word := [BitVec.ofNat 64 (lid % 2 ^ 32), h.cause, h.epc.setWidth 64, BitVec.ofNat 64 (s.tile t).faddr, ktile, 0, 0, 0]
    (s.vwrite x.ctx false (x.fqBase + 64 * (x.fqIdx % 64)) (bytesOfWords w)).bind fun _ u =>
      let y := x.setW 3 (setBits (x.w 3) 32 32 ((x.fqIdx + 1) % 2 ^ 32))
      .ok true (u.setQueue q { y with unanswered := y.unanswered + 1 })

end Sys2Proof.Machine
end

