-- ==== Sys2Proof/Machine/Dump.lean ====
section
/-!
DEFINITION. The fatal dump (spec/12_faults_and_recovery.md R414, R431, R432, R497). Of the records of types 0x0004 to
0x0008 the spec states the data but not the layout, the places and the number: those are free (log 34).
-/
namespace Sys2Proof.Machine

/-! ### Tile records (R497) -/

/-- A tile register image (R497): 0x2200 bytes. -/
def TileRegs.image (r : TileRegs) (cause epc faddr : Word) : List Byte :=
  let h := r.h
  let gs := (List.range 32).map (fun k => h.rg (BitVec.ofNat 5 k))
  let vs := (List.range 32).map (fun k => bytesOfNat 256 ((h.v.toList.getD k 0).toNat))
  let ps := (List.range 8).map (fun k => h.rp (BitVec.ofNat 3 k))
  let qs := BitVec.ofNat 64 (h.qrb.toNat + h.stg.toNat * 2 ^ 8 + h.qa.toNat * 2 ^ 16)
  let pcs := BitVec.ofNat 64 (h.cdep.toNat + h.pc.toNat * 2 ^ 32)
  let votes := BitVec.ofNat 64 (bitNat r.late 0 + bitNat r.voted 1 + r.vote.toNat * 2 ^ 4
    + (match r.tap with | some t => t % 128 * 2 ^ 8 + 2 ^ 15 | none => 0))
  wordBytes gs ++ vs.flatten ++ wordBytes ps ++ wordBytes h.levelWords ++ wordBytes [qs, h.lam, pcs, votes]
    ++ wordBytes [h.nst.setWidth 64, r.gprog, cause, epc, faddr, 0, 0, 0]

/-- The 64 templates. -/
def TileRegs.templates (r : TileRegs) : List Byte :=
  ((List.range 64).map (fun k => bytesOfNat 32 ((r.tmpl.find k).getD 0).toNat)).flatten

/-- The 32 bytes of an entry of the matrix-array queue. -/
def TKind.bytes : TKind → List Byte
  | .tmpl t _ => bytesOfNat 32 t.toNat
  | .red w _ => wordBytes w.toList

/-- The body of a TYPE 0x0002 record (R497). -/
def Tile.dumpBody (x : Tile) (ck : Nat) : List Byte :=
  let c := x.checkpoint.getD TileRegs.reset
  let entries := ((List.range 4).map (fun k =>
    match x.queue[k]? with
    | some o => o.kind.bytes
    | none => List.replicate 32 0)).flatten
  let state : Nat := x.queue.length % 8 + (match x.queue with
    | o :: _ => (match o.left with | some n => 2 ^ 8 + (n - ck) % 2 ^ 32 * 2 ^ 32 | none => 0)
    | [] => 0)
  x.r.image x.h.cause (x.h.epc.setWidth 64) (BitVec.ofNat 64 x.faddr) ++ c.image 0 0 0 ++ x.r.templates ++ c.templates
    ++ entries ++ bytesOfNat 8 state ++ List.replicate 56 0

/-! ### Domain records (R497) -/

/-- The window entry of a TYPE 0x0003 record. -/
def State.windowEntry (s : State) (x : Domain) (w : Window) : List Byte :=
  let poster : Nat := match w.posted with
    | some r => bitsAt r[0] 16 16
    | none => 0
  let lines := ((x.tiles.map (fun t => ((s.tile t).journal.filter (fun (j : Journal) => j.wid == w.wid)).length))).foldl (· + ·) 0
  bytesOfNat 8 (w.wid % 256 + bitNat w.isOpen 8 + bitNat w.posted.isSome 9 + bitNat w.stopped.isSome 10 + poster * 2 ^ 16)
    ++ bytesOfNat 8 (lines % 2 ^ 13)

/-- A domain's windows in WID order. -/
def Domain.byWid (x : Domain) : List Window :=
  (List.range 256).filterMap (fun k => x.windows.find? (fun (w : Window) => w.wid == k))

/-- The body of a TYPE 0x0003 record (R497). -/
def State.domainBody (s : State) (x : Domain) : List Byte :=
  let ws := x.byWid
  wordBytes x.ent.toList ++ bytesOfNat 8 (x.step % 2 ^ 32)
    ++ bytesOfNat 8 (x.off % 2 ^ 32 + x.pattern % 16 * 2 ^ 32 + x.rollbacks % 4 * 2 ^ 40 + bitNat x.unprot 48 + bitNat x.frozen 49)
    ++ bytesOfNat 8 x.heldCk ++ bytesOfNat 8 ((x.coreArr.headD 0) % 2 ^ 16 + x.arrived.length % 256 * 2 ^ 32)
    ++ bytesOfNat 8 ws.length ++ bytesOfNat 8 0 ++ (ws.map (s.windowEntry x)).flatten

/-! ### The dump (R431, R432) -/

/-- A record with its header (R432). -/
def dumpRecord (typ : Nat) (place : Word) (body : List Byte) : List Byte :=
  bytesOfNat 8 (typ * 2 ^ 48 + (body.length + 16)) ++ bytesOfNat 8 place.toNat ++ body

/-- ORIGIN and WHERE of an agent: PL in bit 63, then the layout of R202 (R431). -/
def State.originOf (s : State) : Agent → Word
  | .slot i => s.coreWord (coreOf i)
  | .tile t => s.tileWord t ||| (1#64 <<< 63)

/-- The slots of a launch that hold a task. -/
def State.launchSlots (s : State) (lid : Nat) : List SlotId :=
  s.slots.filterMap (fun p =>
    if h : p.1 < 4096 then
      if (s.core (coreOf ⟨p.1, h⟩)).lid == some lid && p.2.st != .idle then some ⟨p.1, h⟩ else none
    else none)

/-- The domains of a launch. -/
def State.launchDomains (s : State) (lid : Nat) : List (Nat × Domain) := s.domains.filter (fun p => p.2.lid == lid)

/-- The data of the records of a TYPE from 0x0004 to 0x0008: the error log as place, address and syndrome; the copies in flight of the launch with their
parameter blocks and PROG; the views V(d) and the fronts F(d); the routers and the table generation; the ports
and the transport errors (R432). -/
def State.dumpData (s : State) (lid : Nat) : Nat → List Nat
  | 4 => s.errors.flatMap (fun e => [(e.1.map (fun t => t.val + 1)).getD 0, e.2, Config.eccSyndrome e.2])
  | 5 => s.copies.flatMap (fun p =>
      if (s.core (coreOf p.2.slot)).lid == some lid
      then [p.1, p.2.slot.val, p.2.va, p.2.sent] ++ p.2.opn ++ p.2.blk.toList.map (fun (w : Word) => w.toNat) else [])
  | 6 => (List.range 15).map (fun d => s.front (some lid) (d + 1))
      ++ s.cores.flatMap (fun p => if p.2.lid == some lid then p.1 :: p.2.views.toList else [])
  | 7 => bitNat s.rerouting 0 :: s.generation :: s.routers
  | _ => s.ports.toList.flatMap (fun x => [bitNat x.failed 0, x.nextSeq, x.expect, x.retries.1, x.retries.2])
      ++ s.ue.toList.flatMap (fun x => bitNat x.training 0 :: x.links.length :: x.links ++ x.lost)
      ++ s.lostLinks.flatMap (fun x => [x.1, x.2]) ++ s.transport.flatMap (fun x => [x.1, x.2.1, x.2.2])

/-- Bytes followed by zeros up to a multiple of 16 (R432). -/
def padTo16 (b : List Byte) : List Byte := b ++ List.replicate ((16 - b.length % 16) % 16) 0

/-- The records of types 0x0004 to 0x0008 (R432; log 34). -/
def State.dumpOthers (s : State) (lid : Nat) (fresh : Nat) : List (List Byte) :=
  [4, 5, 6, 7, 8].flatMap (fun typ =>
    (Config.dumpExtra typ (s.dumpData lid typ) fresh).map (fun r => dumpRecord typ r.1 (padTo16 r.2)))

/-- The records of a launch's dump: slots, tiles of frozen domains, frozen domains, and the others (R432). -/
def State.dumpRecords (s : State) (lid : Nat) (fresh : Nat) : List (List Byte) :=
  let slots := (s.launchSlots lid).map (fun i =>
    dumpRecord 1 (s.originOf (.slot i)) (s.slotContext i ++ s.read (s.frameAddr i) 64))
  let frozen := (s.launchDomains lid).filter (fun p => p.2.frozen)
  let tiles := frozen.flatMap (fun p => p.2.tiles.map (fun t => dumpRecord 2 (s.originOf (.tile t)) ((s.tile t).dumpBody s.ck)))
  let doms := frozen.map (fun p => dumpRecord 3 (BitVec.ofNat 64 (2 ^ 63 + s.placeBits + p.1)) (s.domainBody p.2))
  slots ++ tiles ++ doms ++ s.dumpOthers lid fresh

/-- The records that fit into a length, in order, and whether some were left out. -/
def fitRecords : Nat → List (List Byte) → List (List Byte) × Bool
  | _, [] => ([], false)
  | n, r :: t =>
    if r.length ≤ n then let x := fitRecords (n - r.length) t; (r :: x.1, x.2) else ((fitRecords n t).1, true)

/-- The dump header (R431). -/
def State.dumpHeader (s : State) (lid : Nat) (f : Agent × FaultInfo × Nat × Nat × Nat) (nrec len : Nat) (trunc : Bool) : List Byte :=
  let (who, info, reason, time, ck) := f
  bytesOfNat 8 (0x92000D0F * 2 ^ 32 + 2 ^ 16 + nrec % 2 ^ 15 * 2 + bitNat trunc 0) ++ bytesOfNat 8 len
    ++ bytesOfNat 8 (info.cause % 256 * 2 ^ 56 + reason % 256 * 2 ^ 48 + lid % 2 ^ 32) ++ bytesOfNat 8 time ++ bytesOfNat 8 ck
    ++ bytesOfNat 8 (s.originOf who).toNat ++ bytesOfNat 8 (s.ncorr.toNat * 2 ^ 32 + s.nretry.toNat) ++ bytesOfNat 8 0

/-- Firmware writes the dump of a launch into the dump buffer of its queue (R430, R431, R464). -/
def State.writeDump (s : State) (lid : Nat) (l : Launch) : Res Unit :=
  match l.fault with
  | none => .ok () s
  | some f =>
    let q := s.queueAt l.home
    let base := (q.w 4).toNat
    let size := (q.w 5).toNat
    if base = 0 ∨ size < 64 then .ok () s
    else
      let (s, fresh) := s.draw
      let r := fitRecords (size - 64) (s.dumpRecords lid fresh)
      let body := r.1.flatten
      let bytes := s.dumpHeader lid f r.1.length (64 + body.length) r.2 ++ body
      s.vwrite q.ctx false base bytes

end Sys2Proof.Machine
end

