-- ==== Sys2Proof/Machine/Cartoon.lean ====
section
/-!
DEFINITION. Launch records and the cartoon (spec/06_execution_and_scheduling.md R221, R228 to R233;
spec/02_memory_hierarchy.md R85, R86, R97; spec/01_address_spaces.md R34): fields, and the checks of each table. A check
that fails gives the status of R461 and the offending table index or address.
-/
namespace Sys2Proof.Machine

/-! ### Launch records (R221) -/

/-- Word `k` of a launch record. -/
def rcdW (r : Vector Word 16) (k : Nat) : Word := r.toList.getD k 0
/-- SCW. -/
def rcdSCW (r : Vector Word 16) : Nat := bitsAt (rcdW r 0) 56 4
/-- CTX. -/
def rcdCTX (r : Vector Word 16) : Nat := bitsAt (rcdW r 0) 48 8
/-- NTASK. -/
def rcdNTASK (r : Vector Word 16) : Nat := bitsAt (rcdW r 6) 48 16
/-- NSHAPE. -/
def rcdNSHAPE (r : Vector Word 16) : Nat := bitsAt (rcdW r 6) 40 8
/-- The launch names a tile (TLMASK, TLMASKH). -/
def Launch.hasTile (l : Launch) (t : Nat) : Bool :=
  if t < 64 then (rcdW l.rcd 10).getLsbD t else (rcdW l.rcd 11).getLsbD (t - 64)
/-- The logical clusters of a launch. -/
def Launch.clusters (l : Launch) : List Nat := (List.range 128).filter l.hasCluster
/-- The tiles of a launch, in rank order (R222). -/
def Launch.tiles (l : Launch) : List TileId := (List.finRange 128).filter (fun t => l.hasTile t.val)
/-- The cores of a launch, in rank order (R222). -/
def Launch.cores (l : Launch) : List CoreId :=
  l.clusters.flatMap (fun n => (List.range 8).map (fun k => coreNo (8 * n + k)))

/-- Step 1 of R223 fails. -/
def rcdBad (r : Vector Word 16) : Bool :=
  bitsAt (rcdW r 0) 63 1 == 0 || bitsAt (rcdW r 0) 60 2 != 0 || bitsAt (rcdW r 0) 32 1 != 0 || bitsAt (rcdW r 0) 0 16 != 0 || bitsAt (rcdW r 6) 0 40 != 0
    || rcdW r 14 != 0 || rcdW r 15 != 0 || bitsAt (rcdW r 12) 55 8 != 0 || bitsAt (rcdW r 12) 0 12 != 0
    || decide (6 < bitsAt (rcdW r 12) 12 4) || decide (16 < rcdNSHAPE r) || decide (8 < rcdSCW r)
    || (rcdW r 8 == 0 && rcdW r 9 == 0 && rcdNTASK r != 0)

/-- A partition word breaks R52; bit 63 is ignored. -/
def partBad (p : Word) : Bool :=
  let acc := bitsAt p 21 6
  let repl := bitsAt p 15 5 + bitsAt p 20 1 * 32
  let cmt := bitsAt p 10 5
  let rot := bitsAt p 6 4
  let code := bitsAt p 0 6
  bitsAt p 27 35 != 0 || decide (32 < acc) || decide (32 < repl) || decide (16 < cmt) || decide (8 < rot)
    || code == 0 || decide (48 < code) || decide (63 < code + 4 + rot + cmt + repl + acc)
    || (bitsAt p 62 1 == 0 && repl != 0)

/-! ### Reading a launch's objects -/

/-- A failed check: its status and detail (R461). -/
abbrev Fail := Nat × Nat

/-- What reading a launch's objects comes to: a value, a check that fails, or a wait of some ck, after which the reading
begins again (R35, R42, R43). -/
inductive Load (α : Type) where
  | ok (x : α) (s : State)
  | fail (f : Fail) (s : State)
  | later (n : Nat) (s : State)

/-- One reading after another. -/
def Load.bind {α β : Type} : Load α → (α → State → Load β) → Load β
  | .ok x s, k => k x s
  | .fail f s, _ => .fail f s
  | .later n s, _ => .later n s

/-- An access of a command processor; a fault fails with the translation status and an address. -/
def Res.load {α : Type} (r : Res α) (s : State) (va : Nat) : Load α :=
  match r with
  | .ok x u => .ok x u
  | .fault _ u => .fail (0x08, va) u
  | .wait w u => .later (u.delay w) u
  | .stop _ => .fail (0x08, va) s

/-- Words at a virtual address of a launch's context. -/
def State.cpWords (s : State) (ctx va n : Nat) : Load (List Word) :=
  ((s.vread ctx false va (8 * n)).load s va).bind fun b u => .ok (wordsOf b) u

/-- Words grouped by `n`. -/
def groupWords (n : Nat) (l : List Word) : List (List Word) :=
  (List.range (l.length / n)).map (fun k => (l.drop (n * k)).take n)

/-- The index of the first element that a test finds, counted from `k`. -/
def firstBad {α : Type} (p : α → Bool) : Nat → List α → Option Nat
  | _, [] => none
  | k, x :: t => if p x then some k else firstBad p (k + 1) t

/-! ### Slot tables (R83 to R86) -/

/-- V of a slot table entry. -/
def seV (e : Word) : Bool := bitsAt e 63 1 == 1
/-- OP: 1 read, 2 write. -/
def seOP (e : Word) : Nat := bitsAt e 61 2
/-- SRC. -/
def seSRC (e : Word) : Nat := bitsAt e 48 7
/-- DST. -/
def seDST (e : Word) : Nat := bitsAt e 41 7
/-- CYC. -/
def seCYC (e : Word) : Nat := bitsAt e 0 12
/-- The distance of a transfer in stations. -/
def seDist (e : Word) : Nat := (seDST e + 96 - seSRC e % 96) % 96

/-- A station is a slice station (R83). -/
def isSliceStation (n : Nat) : Bool := n % 3 == 2
/-- The tile of a tile station on a die. -/
def stationTile (die n : Nat) : Nat := die * 64 + n / 3 * 2 + n % 3
/-- The station of a tile on its die. -/
def tileStation (t : Nat) : Nat := 3 * (t % 64 / 2) + t % 2
/-- The station of a slice, on the ring of a die: lines of the other die's slice come over the bridge to the station with
the same j (R87). -/
def sliceStation (slice : Nat) : Nat := 3 * (slice % 32) + 2

/-- The places that an entry occupies: station and ring cycle (R86). -/
def seSpan (frame : Nat) (e : Word) : List (Nat × Nat) :=
  (List.range (seDist e)).map (fun j => ((seSRC e + j) % 96, (seCYC e + j) % frame))

/-- A valid entry is defective by itself; one with V = 0 is ignored (R85, R86, R224). -/
def seBad (l : Launch) (die frame : Nat) (e : Word) : Bool :=
  seV e && (bitsAt e 55 6 != 0 || bitsAt e 12 29 != 0 || decide (95 < seSRC e) || decide (95 < seDST e)
    || decide (frame ≤ seCYC e)
    || (match seOP e with
      | 1 => !(isSliceStation (seSRC e) && !isSliceStation (seDST e) && l.hasTile (stationTile die (seDST e)))
      | 2 => !(!isSliceStation (seSRC e) && isSliceStation (seDST e) && l.hasTile (stationTile die (seSRC e)))
      | _ => true))

/-- Two valid entries of a list meet at one station in one ring cycle (R86). -/
def seClash (frame : Nat) : List Word → Bool
  | [] => false
  | e :: t => (seV e && t.any (fun x => seV x && (seSpan frame e).any ((seSpan frame x).contains))) || seClash frame t

/-- The slot table of a die: none without one, or its RLAPS and entries (R85, R86). -/
def State.slotTable (s : State) (l : Launch) (die va n : Nat) : Load (Option (Nat × List Word)) :=
  if va = 0 then .ok none s
  else if 1024 < n then .fail (0x07, n) s
  else (s.cpWords l.ctx va (n + 1)).bind fun w s =>
    let h := w.getD 0 0
    let laps := bitsAt h 0 6
    let es := w.drop 1
    if bitsAt h 6 58 != 0 || laps == 0 || decide (42 < laps) then .fail (0x07, 0) s
    else match firstBad (seBad l die (96 * laps)) 0 es with
    | some k => .fail (0x07, k) s
    | none => if seClash (96 * laps) es then .fail (0x07, 0) s else .ok (some (laps, es)) s

/-! ### Exchange timetable (R231) -/

/-- V of a timetable entry. -/
def xtV (e : Word) : Bool := bitsAt e 63 1 == 1
/-- PAT. -/
def xtPAT (e : Word) : Nat := bitsAt e 59 4
/-- TILE. -/
def xtTILE (e : Word) : Nat := bitsAt e 49 7
/-- LEN. -/
def xtLEN (e : Word) : Nat := bitsAt e 32 17
/-- OFF. -/
def xtOFF (e : Word) : Nat := bitsAt e 0 32

/-- Two entries of one tile and pattern overlap. -/
def xtMeet (a b : Word) : Bool :=
  xtV a && xtV b && xtTILE a == xtTILE b && xtPAT a == xtPAT b && decide (xtOFF a < xtOFF b + xtLEN b)
    && decide (xtOFF b < xtOFF a + xtLEN a)

/-- Two entries of a list overlap. -/
def xtClash : List Word → Bool
  | [] => false
  | e :: t => t.any (xtMeet e) || xtClash t

/-- The exchange timetable. -/
def State.timetableOf (s : State) (l : Launch) (va n : Nat) : Load (List Word) :=
  if 16384 < n then .fail (0x07, n) s
  else (s.cpWords l.ctx va n).bind fun w s =>
    match firstBad (fun e => bitsAt e 56 3 != 0 || (xtV e && xtLEN e == 0)) 0 w with
    | some k => .fail (0x07, k) s
    | none => if xtClash w then .fail (0x07, 0) s else .ok w s

/-! ### Barrier domain table (R229) -/

/-- A domain that starts with a launch (R223, R230). -/
def Domain.new (lid : Nat) (ent : Vector Word 4) (windows : List Window) : Domain :=
  { lid := lid, ent := ent, step := 0, off := 0, lead := 0, pattern := 0, arrived := [], coreArr := [], windows := windows,
    held := false, heldCk := 0, frozen := false, rollbacks := 0, unprot := false, releasing := false, colTiles := [],
    colDone := 0, preempt := false, saved := false, service := false, started := false, xrec := [], xready := [],
    startAt := none, xwhen := 0, xarr := [], xvote := 0, xsent := false, trel := none, xresult := 0, hlead := 0, xheld := [],
    xgo := [], xdata := [] }

/-- The entry names a domain in use. -/
def entV (e : List Word) : Bool := bitsAt (e.getD 0 0) 63 1 == 1

/-- A domain of four words. -/
def entOf (e : List Word) : Vector Word 4 := #v[e.getD 0 0, e.getD 1 0, e.getD 2 0, e.getD 3 0]

/-- An entry is defective by itself: a reserved bit is set, also in one that is not used, or one in use breaks a rule (R228,
R229). -/
def State.entBad (s : State) (l : Launch) (e : List Word) : Bool :=
  let x := Domain.new 0 (entOf e) []
  bitsAt (e.getD 0 0) 48 11 != 0 || bitsAt (e.getD 0 0) 0 16 != 0 || bitsAt (e.getD 3 0) 0 24 != 0 || (entV e && (x.wto == 0
    || x.tiles.any (fun t => !l.hasTile t.val) || (x.tiles.isEmpty && x.carr == 0)
    || (if x.xpkg then
          x.xjob == 0
            || decide (x.hi.1 < x.lo.1) || decide (x.hi.2.1 < x.lo.2.1) || decide (x.hi.2.2 < x.lo.2.2)
            || decide (s.extents.1 ≤ x.hi.1) || decide (s.extents.2.1 ≤ x.hi.2.1) || decide (s.extents.2.2 ≤ x.hi.2.2)
            || !x.inBox s.here
        else e.getD 3 0 != 0)))

/-- The domains of a table as number and entry. -/
def State.domainTable (s : State) (l : Launch) (va n : Nat) : Load (List (Nat × Vector Word 4)) :=
  if 64 < n then .fail (0x07, n) s
  else (s.cpWords l.ctx va (4 * n)).bind fun w s =>
    let es := groupWords 4 w
    match firstBad (s.entBad l) 0 es with
    | some k => .fail (0x07, k) s
    | none =>
      let ds := (es.zipIdx.filter (fun p => entV p.1)).map (fun p => (p.2, entOf p.1))
      let count (t : TileId) : Nat := (ds.filter (fun d => (Domain.new 0 d.2 []).member t.val)).length
      if l.tiles.any (fun t => count t != 1) then .fail (0x07, 0) s else .ok ds s

/-! ### Window table (R232) -/

/-- Two windows open in one superstep. -/
def stepsMeet (a b : Window) : Bool :=
  if a.every = 0 then b.opensIn a.first
  else if b.every = 0 then a.opensIn b.first
  else (max a.first b.first - min a.first b.first) % Nat.gcd a.every b.every == 0

/-- A window from its entry and its default post record. -/
def windowOfEntry (e : List Word) (post : Vector Word 8) : Window :=
  let w0 := e.getD 0 0
  { wid := bitsAt w0 48 8, hold := bitsAt w0 62 1 == 1, every := bitsAt w0 32 16, first := bitsAt w0 16 16,
    opn := bitsAt (e.getD 1 0) 0 32, close := bitsAt (e.getD 1 0) 32 32, rbase := bitsAt (e.getD 2 0) 0 32,
    rlen := bitsAt (e.getD 2 0) 32 32, defpost := post, isOpen := false, posted := none, stopped := none,
    delivered := none, prior := none, kept := false, wrote := [] }

/-- An entry is defective by itself: a reserved bit is set, also in one that is not used, or one in use breaks a rule (R228,
R232). -/
def winBad (ds : List (Nat × Vector Word 4)) (e : List Word) : Bool :=
  let w := windowOfEntry e (Vector.replicate 8 0)
  bitsAt (e.getD 0 0) 0 16 != 0 || (entV e && (decide (w.close ≤ w.opn) || w.rlen == 0 || w.rlen % 64 != 0
    || w.rbase % 64 != 0 || (e.getD 3 0).toNat % 64 != 0
    || (match ds.find? (fun d => d.1 == bitsAt (e.getD 0 0) 56 6) with
      | none => true
      | some d => decide ((if (Domain.new 0 d.2 []).pent then 0x400000 else 0x500000) < w.rbase + w.rlen))))

/-- Two windows of one domain overlap in one superstep, or two entries name one WID (R232). -/
def winClash : List (Nat × Window) → Bool
  | [] => false
  | a :: t =>
    t.any (fun b => a.2.wid == b.2.wid
      || (a.1 == b.1 && stepsMeet a.2 b.2 && decide (a.2.opn ≤ b.2.close) && decide (b.2.opn ≤ a.2.close)))
      || winClash t

/-- The windows of a table from entry `k` on, with their domains; a default post record with a reserved field set is a
defect of the table (R228, R233). -/
def State.readWindows (s : State) (l : Launch) : Nat → List (List Word) → Load (List (Nat × Window))
  | _, [] => .ok [] s
  | k, e :: t =>
    if !entV e then s.readWindows l (k + 1) t
    else (s.cpWords l.ctx (e.getD 3 0).toNat 8).bind fun w s =>
      let g (k : Nat) : Word := w.getD k 0
      if postReserved (g 0) then .fail (0x07, k) s
      else (s.readWindows l (k + 1) t).bind fun r s =>
        .ok ((bitsAt (e.getD 0 0) 56 6, windowOfEntry e #v[g 0, g 1, g 2, g 3, g 4, g 5, g 6, g 7]) :: r) s

/-- The window table (R232). -/
def State.windowTable (s : State) (l : Launch) (ds : List (Nat × Vector Word 4)) (va n : Nat) :
    Load (List (Nat × Window)) :=
  if 256 < n then .fail (0x07, n) s
  else (s.cpWords l.ctx va (4 * n)).bind fun w s =>
    let es := groupWords 4 w
    match firstBad (winBad ds) 0 es with
    | some k => .fail (0x07, k) s
    | none => (s.readWindows l 0 es).bind fun ws s => if winClash ws then .fail (0x07, 0) s else .ok ws s

/-! ### HBM slot pattern (R97) and locked translations (R34) -/

/-- The number of bits set in the low 16 bits. -/
def popcount16 (x : Nat) : Nat := ((List.range 16).filter (fun k => x / 2 ^ k % 2 == 1)).length

/-- The pattern word. -/
def State.patternOf (s : State) (l : Launch) (va n : Nat) : Load (BitVec 32) :=
  if n != 1 then .fail (0x07, n) s
  else ((s.vread l.ctx false va 4).load s va).bind fun b s =>
    let w := natOfBytes b
    let nt := w / 2 ^ 16 % 32
    if w / 2 ^ 31 % 2 = 0 ∨ w / 2 ^ 21 % 2 ^ 10 ≠ 0 ∨ 16 < nt ∨ popcount16 (w % 2 ^ 16) ≠ nt then .fail (0x07, 0) s
    else .ok (BitVec.ofNat 32 w) s

/-- The pages that a list locks (R34, R228; log 109). -/
def State.lockList (s : State) (l : Launch) (va n : Nat) : Load (List Nat) :=
  if 4096 < n then .fail (0x08, n) s
  else (s.cpWords l.ctx va n).bind fun w s =>
    match firstBad (fun (e : Word) => bitsAt e 0 16 != 0) 0 w with
    | some k => .fail (0x07, k) s
    | none => .ok (w.map BitVec.toNat) s

/-- A page walked and locked (R34): its entry, and the state with A and D set. It is walked for a user's read (log 105). -/
def State.lockPage (s : State) (ctx va : Nat) : Load TlbEntry :=
  if 2 ^ 55 ≤ va ∨ inWindow va = true then .fail (0x08, va) s
  else
    let asid := ctxASID (s.asctxAt ctx)
    match s.walkCtx ctx .read true va with
    | .leaf e level ea _ =>
      let bits := levelBits level
      if !pteBit e 11 then .fail (0x08, va) s
      else if (s.pageBlocked asid (pteBit e 8) va bits).isSome then .later 1 s
      else
        let r := s.useEntry ctx (if pteBit e 3 then .write else .read) e ea
        if r.1 then .ok ⟨va / 2 ^ bits * 2 ^ bits, bits, asid, r.2.2, level⟩ r.2.1 else .later 1 r.2.1
    | _ => .fail (0x08, va) s

/-- The pages of a list locked for a die. -/
def State.lockPages (s : State) (ctx die : Nat) : List Nat → Load (List (Nat × TlbEntry × Option (List Nat)))
  | [] => .ok [] s
  | va :: t => (s.lockPage ctx va).bind fun e s => (s.lockPages ctx die t).bind fun r s => .ok ((die, e, none) :: r) s

/-! ### The cartoon (R228) -/

/-- What a cartoon holds. -/
structure Cartoon where
  rings : List (Nat × Nat × List Word)
  timetable : List Word
  domains : List (Nat × Vector Word 4)
  windows : List (Nat × Window)
  pattern : Option (BitVec 32)
  locks : List (Nat × Nat)
deriving Repr

/-- The cartoon of a launch, or the first check that fails, table by table. -/
def State.cartoonOf (s : State) (l : Launch) : Load Cartoon :=
  let va := (rcdW l.rcd 2).toNat
  if va = 0 then .ok ⟨[], [], [], [], none, []⟩ s
  else (s.cpWords l.ctx va 16).bind fun w s =>
    let at_ (k : Nat) : Nat := (w.getD (2 * k) 0).toNat
    let n (k : Nat) : Nat := (w.getD (2 * k + 1) 0).toNat
    let ring (d : Nat) (r : Option (Nat × List Word)) : List (Nat × Nat × List Word) :=
      match r with
      | some (laps, es) => [(d, laps, es)]
      | none => []
    (s.slotTable l 0 (at_ 0) (n 0)).bind fun r0 s => (s.slotTable l 1 (at_ 1) (n 1)).bind fun r1 s =>
    (s.timetableOf l (at_ 2) (n 2)).bind fun tt s => (s.domainTable l (at_ 4) (n 4)).bind fun ds s =>
    (s.windowTable l ds (at_ 3) (n 3)).bind fun ws s => (s.patternOf l (at_ 5) (n 5)).bind fun p s =>
    (s.lockList l (at_ 6) (n 6)).bind fun l0 s => (s.lockList l (at_ 7) (n 7)).bind fun l1 s =>
      .ok ⟨ring 0 r0 ++ ring 1 r1, tt, ds, ws, some p, l0.map (fun v => (0, v)) ++ l1.map (fun v => (1, v))⟩ s

/-- A launch with tiles and no cartoon has tiles in no domain (R229). -/
def State.cartoonChecked (s : State) (l : Launch) : Load Cartoon :=
  if rcdW l.rcd 2 == 0 && !l.tiles.isEmpty then .fail (0x07, 0) s else s.cartoonOf l

/-- The cartoon of a launch as it stands, where it passes its checks. -/
def State.cartoonNow (s : State) (l : Launch) : Option Cartoon :=
  match s.cartoonChecked l with
  | .ok c _ => some c
  | _ => none

end Sys2Proof.Machine
end

