-- ==== Sys2Proof/Machine/Launches.lean ====
section
/-!
DEFINITION. Launches (spec/06_execution_and_scheduling.md R221 to R227, R236; spec/07_isa_encoding.md R263, R264;
spec/12_faults_and_recovery.md R430; spec/13_links_and_host.md R443, R459 to R462): submission, claims, loading, start
and end, and the pool.
-/
namespace Sys2Proof.Machine

/-! ### The pool (R226, R227) -/

/-- A pool record; one that the host has not written is all zero (log 1). -/
def State.poolAt (s : State) (j : Nat) : Vector Word 16 := (s.pool.find j).getD (Vector.replicate 16 0)
/-- The state with a word of a pool record replaced. -/
def State.setPoolWord (s : State) (j w : Nat) (x : Word) : State :=
  { s with pool := s.pool.put j ((s.poolAt j).setIfInBounds w x) }
/-- ARM of a pool record. -/
def State.poolArmed (s : State) (j : Nat) : Bool := bitsAt (rcdW (s.poolAt j) 0) 62 1 == 1
/-- ARM of a pool record set or cleared. -/
def State.armPool (s : State) (j v : Nat) : State := s.setPoolWord j 0 (setBits (rcdW (s.poolAt j) 0) 62 1 v)
/-- A launch of a pool record has ended (R225): SEQ advances, then ARM clears. -/
def State.poolEnded (s : State) (j : Nat) : State :=
  let w := rcdW (s.poolAt j) 0
  s.setPoolWord j 0 (setBits (setBits w 16 16 ((bitsAt w 16 16 + 1) % 2 ^ 16)) 62 1 0)

/-! ### The end of a launch (R225, R430, R461) -/

/-- The arrival at DONE (R225, R227, R430), where it translates and no seal refuses it (R158); one whose walk waits is tried
again. -/
def State.arriveDone (s : State) (ctx done : Nat) (err : Bool) : State :=
  if done = 0 then s
  else match s.vaPhys ctx .atomic true done with
  | .ok pa u => if u.sealedAt (ctxASID (u.asctxAt ctx)) done then u else u.post (.transactionBarrierUpdate pa 0 1 err none)
  | .wait w u => { u with arrivals := u.arrivals ++ [(ctx, done, err, u.ck + u.delay w)] }
  | .fault _ u => u
  | .stop _ => s

/-- The arrivals at DONE whose walks waited are tried again. -/
def State.arrivalStep (s : State) : State :=
  let due := s.arrivals.filter (fun a => decide (a.2.2.2 ≤ s.ck))
  due.foldl (fun u a => u.arriveDone a.1 a.2.1 a.2.2.1) { s with arrivals := s.arrivals.filter (fun a => decide (s.ck < a.2.2.2)) }

/-- The launches that wait for claims try again. -/
def State.retryClaims (s : State) : State :=
  s.launches.foldl (fun u p => if p.2.st == .claiming then u.post (.launchClaim p.1) else u) s

/-- An invalidation that opens a seal of a launch makes no entry once the launch has ended (R157, R311). -/
def Inval.forLaunch (v : Inval) (lid : Nat) : Inval :=
  if v.opening && (v.entry.map (fun x => x.lid == lid)).getD false then { v with entry := none } else v

/-- The claims of a launch are released (R225, R430): its cores and tiles hold nothing of it any more. -/
def State.releaseClaims (s : State) (lid : Nat) : State :=
  let mine (c : Core) : Bool := c.lid == some lid
  let ts := (List.finRange 128).filter (fun t => (s.tile t).lid == some lid)
  let gone (e : Event) : Bool := ((eventTile e).map ts.contains).getD false
    || ((eventDomain e).map (fun d => ((s.domains.find d).map (fun x => x.lid == lid)).getD false)).getD false
  let s := (ts.foldl (fun u t => u.dropLands t) s).dropEvents gone
  let s1 : State := { s with
    slots := s.slots.map (fun p => if mine (s.core (coreNo (p.1 / 4))) then (p.1, { p.2.retire with preload := none, uiq := [], out := 0, gap := false }) else p)
    cores := s.cores.map (fun p => if mine p.2 then
      (p.1, { p.2 with part := 0, stage := 0, dqspill := 0, ovtab := 0, lid := none, deque := [], arms := [],
                        thieves := [], serveAt := 0, tryAt := 0, reps := [] }) else p)
    tiles := s.tiles.map (fun p => if p.2.lid == some lid then
      (p.1, { p.2 with lid := none, running := false, ended := false, wait := .none, queue := [], gangs := [], flagged := 0, gap := false, drains := [], lands := [],
                       writes := [], sends := [], recvs := [], xreds := [], gath := none, lane := [], so := 0, taps := [],
                       arrive := none, holds := [], port := [],
                       shadow := [], journal := [], checkpoint := none, rtlb := [], armed := none }) else p)
    tent := s.tent.filter (fun p => !((s.domains.find p.2.dom).map (fun d => d.lid == lid)).getD false)
    domains := s.domains.filter (fun p => p.2.lid != lid)
    seals := s.seals.filter (fun x => x.lid != lid)
    invals := s.invals.map (fun p => (p.1, p.2.forLaunch lid))
    launches := s.launches.del lid
    patOwner := if s.patOwner == some lid then none else s.patOwner }
  s1.retryClaims

/-- A launch's packet completes, its DONE barrier receives its arrival, and its claims are released; a pool record ends
last (R225, R430). -/
def State.finishLaunch (s : State) (lid : Nat) (l : Launch) (status cause detail : Nat) : State :=
  let err := status != 0
  let done := (rcdW l.rcd 13).toNat
  let pack (t : State) : State := match l.queue with
    | some (q, k) => t.completePacket q k status cause lid detail
    | none => t
  let s1 := if err then (pack s).arriveDone l.ctx done true else pack (s.arriveDone l.ctx done false)
  let s2 := s1.releaseClaims lid
  match l.pool with
  | some j => s2.poolEnded j
  | none => s2

/-- A launch fails a check of R223: nothing of it runs; an armed record ends as a failed launch (R223, R227). -/
def State.failLaunch (s : State) (lid : Nat) (l : Launch) (f : Fail) : State :=
  let pack (t : State) : State := match l.queue with
    | some (q, k) => t.completePacket q k f.1 0 lid f.2
    | none => t
  let s1 := (pack s).releaseClaims lid
  match l.pool with
  | some j => (s1.arriveDone l.ctx (rcdW l.rcd 13).toNat true).poolEnded j
  | none => s1

/-! ### Submission (step 1 of R223, R227, R460) -/

/-- A submission: the record, where it comes from, and the context it must name (R460). -/
def State.submit (s : State) (rcd : Vector Word 16) (pool parent : Option Nat) (queue : Option (Nat × Nat)) (home ctx : Nat) : State :=
  let bad := rcdBad rcd
  let lid := s.nextLid
  let l : Launch := {
    rcd := rcd, st := .claiming, pool := pool, parent := parent, queue := queue, home := home, began := s.ck, start := s.ck, asked := (s.ck, home),
    rings := [], timetable := [], pattern := none, locked := [], toPush := [], fault := none, status := none, saved := none }
  if bad then
    (match queue with
      | some (q, k) =>
        let s1 := s.completePacket q k 0x03 0 0 0
        (match pool with
          | some j => (s1.arriveDone (rcdCTX rcd) (rcdW rcd 13).toNat true).poolEnded j
          | none => s1)
      | none => (match pool with
        | some j => (s.arriveDone (rcdCTX rcd) (rcdW rcd 13).toNat true).poolEnded j
        | none => s))
  else
    let s1 : State := { s with nextLid := lid + 1, launches := s.launches.put lid l }
    if rcdCTX rcd != ctx || !ctxEN (s.asctxAt (rcdCTX rcd)) then s1.failLaunch lid l (0x04, 0)
    else if s.closed then s1.failLaunch lid l (0x0A, 0)
    else s1.post (.launchClaim lid)

/-- `LAUNCH` (R223, R459): the packet's launch record is read and submitted. -/
def execLaunch (s : State) : Host.Outcome State Fault Refusal :=
  match s.event with
  | some (.launch q k) =>
    match s.packetAt q k with
    | none => .next s
    | some p =>
      let ctx := (s.queueAt q).ctx
      match s.cpWords ctx p.a0 16 with
      | .fail f s => .next (s.completePacket q k f.1 0 0 f.2)
      | .later n s => .next (s.after n (.launch q k))
      | .ok w s =>
        let rcd : Vector Word 16 := Vector.ofFn (fun j => w.getD j.val 0)
        .next (s.submit rcd none none (some (q, k)) q ctx)
  | _ => .next s

/-- `POOL_LAUNCH` (R459, R461). -/
def execPoolLaunch (s : State) : Host.Outcome State Fault Refusal :=
  match s.event with
  | some (.poolLaunch q k) =>
    match s.packetAt q k with
    | none => .next s
    | some p =>
      if 255 < p.a0 ∨ s.poolArmed p.a0 = true then .next (s.completePacket q k 0x0B 0 0 p.a0)
      else if bitsAt (rcdW (s.poolAt p.a0) 0) 63 1 = 0 then .next (s.completePacket q k 0x03 0 0 p.a0)
      else
        let s1 := s.armPool p.a0 1
        .next (s1.submit (s.poolAt p.a0) (some p.a0) none (some (q, k)) q (s.queueAt q).ctx)
  | _ => .next s

/-- `POOL_WRITE` (R459, R461): the record is written with ARM = 0 and SEQ kept. -/
def execPoolWrite (s : State) : Host.Outcome State Fault Refusal :=
  match s.event with
  | some (.poolWrite q k) =>
    match s.packetAt q k with
    | none => .next s
    | some p =>
      if 255 < p.a0 ∨ s.poolArmed p.a0 = true then .next (s.completePacket q k 0x0B 0 0 p.a0)
      else match s.cpWords (s.queueAt q).ctx p.a1 16 with
      | .fail f s => .next (s.completePacket q k f.1 0 0 f.2)
      | .later n s => .next (s.after n (.poolWrite q k))
      | .ok w s =>
        let w0 := setBits (setBits (w.getD 0 0) 62 1 0) 16 16 (bitsAt (rcdW (s.poolAt p.a0) 0) 16 16)
        let rcd : Vector Word 16 := Vector.ofFn (fun j => if j.val = 0 then w0 else w.getD j.val 0)
        .next ({ s with pool := s.pool.put p.a0 rcd }.completePacket q k 0 0 0 0)
  | _ => .next s

/-! ### `lpatch` and `larm` (R227, R330) -/

/-- `lpatch` applied (R227): its status. -/
def State.applyPatch (s : State) (a : Nat) (x : Word) : State × Nat :=
  let j := a / 16
  let w := a % 16
  if 255 < j then (s, 3)
  else if s.poolArmed j then (s, 2)
  else if w = 0 ∨ (rcdW (s.poolAt j) 0).getLsbD (32 + w) = false then (s, 1)
  else (s.setPoolWord j w x, 0)

/-- `larm` applied by a task of a core (R227): its status. -/
def State.applyArm (s : State) (c : CoreId) (j : Nat) : State × Nat :=
  if 255 < j then (s, 3)
  else if s.poolArmed j then (s, 2)
  else if bitsAt (rcdW (s.poolAt j) 0) 63 1 = 0 then (s, 1)
  else
    let home := ((s.launchOf c).map (fun l => l.home)).getD 0
    let s1 := s.armPool j 1
    (s1.submit (s.poolAt j) (some j) (s.core c).lid none home (s.ctxOf (s.core c).lid), 0)

/-- `lpatch gd, ga, gb` (R330). -/
def execLpatch (d a b : Reg) (s : State) : Host.Outcome State Fault Refusal :=
  onSlot s fun i =>
    if !(s.slot i).lc then .next (s.raiseFault s.cur { cause := 0x01 })
    else if (s.slot i).speculative then
      .next (((s.hold i (.lpatch d a b) (s.g a) (s.g b) 0).wg s.cur d deferred).done s.cur)
    else
      let r := s.applyPatch (s.g a).toNat (s.g b)
      .next ((r.1.wg s.cur d (BitVec.ofNat 64 r.2)).done s.cur)

/-- `larm gd, ga` (R330). -/
def execLarm (d a : Reg) (s : State) : Host.Outcome State Fault Refusal :=
  onSlot s fun i =>
    if !(s.slot i).lc then .next (s.raiseFault s.cur { cause := 0x01 })
    else if (s.slot i).speculative then
      .next (((s.hold i (.larm d a) (s.g a) 0 0).wg s.cur d deferred).done s.cur)
    else
      let r := s.applyArm (coreOf i) (s.g a).toNat
      .next ((r.1.wg s.cur d (BitVec.ofNat 64 r.2)).done s.cur)

/-! ### Claims (step 2 of R223, R224) -/

/-- The launch holds claims. -/
def Launch.holds (l : Launch) : Bool := l.st != .claiming && l.st != .suspended

/-- What a launch claims besides its masks: domain numbers, dies of rings, the pattern, and locked entries by die. -/
structure Wants where
  doms : List Nat
  dies : List Nat
  pat : Bool
  lock0 : Nat
  lock1 : Nat
deriving Repr

/-- NT of a pattern word. -/
def patNT (p : BitVec 32) : Nat := bitsAt p 16 5

/-- The claims that a cartoon asks for (R224). -/
def Cartoon.wants (c : Cartoon) : Wants :=
  { doms := c.domains.map (fun d => d.1), dies := (c.rings.filter (fun r => r.2.2.any seV)).map (fun r => r.1),
    pat := (c.pattern.map (fun p => patNT p != 0)).getD false,
    lock0 := (c.locks.filter (fun x => x.1 == 0)).length, lock1 := (c.locks.filter (fun x => x.1 == 1)).length }

/-- The claims that a launch asks for; of a defective cartoon none. -/
def State.wantsOf (s : State) (l : Launch) : Wants :=
  match s.cartoonNow l with
  | some c => c.wants
  | none => ⟨[], [], false, 0, 0⟩

/-- What a launch that holds its claims holds. -/
def State.heldBy (s : State) (lid : Nat) (l : Launch) : Wants :=
  { doms := (s.domains.filter (fun p => p.2.lid == lid)).map (fun p => p.1),
    dies := (l.rings.filter (fun r => r.2.2.any seV)).map (fun r => r.1), pat := s.patOwner == some lid,
    lock0 := (l.locked.filter (fun x => x.1 == 0)).length, lock1 := (l.locked.filter (fun x => x.1 == 1)).length }

/-- Two launches that wait name one resource: the locked array of a die, or the scratch ways in different numbers, or another
(R224, R460). -/
def waitsMeet (l m : Launch) (a b : Wants) (meet : Bool) : Bool :=
  meet || (a.lock0 != 0 && b.lock0 != 0) || (a.lock1 != 0 && b.lock1 != 0) || rcdSCW l.rcd != rcdSCW m.rcd

/-- The claims of one launch were asked for before those of another (R460). -/
def askedBefore (a : Nat × Launch) (b : Nat × Launch) : Bool :=
  let key (p : Nat × Launch) : Nat × Nat × Nat := (p.2.asked.1, p.2.asked.2, p.1)
  let x := key a
  let y := key b
  decide (x.1 < y.1) || (x.1 == y.1 && (decide (x.2.1 < y.2.1) || (x.2.1 == y.2.1 && decide (x.2.2 < y.2.2))))

/-- Two launches name one resource, the locked arrays and the scratch ways aside. -/
def claimsMeet (l m : Launch) (a b : Wants) : Bool :=
  (List.range 128).any (fun n => (l.hasCluster n && m.hasCluster n) || (l.hasTile n && m.hasTile n))
    || a.doms.any b.doms.contains || a.dies.any b.dies.contains || (a.pat && b.pat)

/-- The claims of a launch can be granted now: no launch that holds claims has what it names, none that waits before it
names the same, and its scratch ways fit (R223, R224, R460). -/
def State.claimable (s : State) (lid : Nat) (l : Launch) : Bool :=
  let w := s.wantsOf l
  let holders := s.launches.filter (fun p => p.2.holds)
  let lock (f : Wants → Nat) : Nat := (holders.map (fun p => f (s.heldBy p.1 p.2))).foldl (· + ·) 0
  let first := s.launches.filter (fun p => p.2.st == .claiming && p.1 != lid && askedBefore p (lid, l))
  !holders.any (fun p => claimsMeet l p.2 w (s.heldBy p.1 p.2))
    && !first.any (fun p => waitsMeet l p.2 w (s.wantsOf p.2) (claimsMeet l p.2 w (s.wantsOf p.2)))
    && decide (lock Wants.lock0 + w.lock0 ≤ 4096) && decide (lock Wants.lock1 + w.lock1 ≤ 4096)
    && (holders.isEmpty || rcdSCW l.rcd == s.scw)

/-- A claim that can never be granted (R461): an absent cluster, or a package of a member box that is not live (R443). -/
def State.claimFault (s : State) (l : Launch) : Option Fail :=
  match l.clusters.find? (fun n => !s.clusterPresent n) with
  | some n => some (0x0A, n)
  | none =>
    match s.cartoonNow l with
    | none => none
    | some c =>
      if c.domains.any (fun d => (s.peers (Domain.new 0 d.2 [])).any s.lostPkgs.contains) then some (0x0A, 0) else none

/-! ### Loading (steps 3 to 6 of R223) -/

/-- The memory size of a tile of a launch, which its domain decides (R17, R65); 4 MiB where the cartoon fails its checks
(log 96). -/
def roomOf (c : Option Cartoon) (t : TileId) : Nat :=
  match c with
  | some x => if (x.domains.map (fun d => Domain.new 0 d.2 [])).any (fun d => d.member t.val && !d.pent) then 0x500000 else 0x400000
  | none => 0x400000

/-- The smallest memory of the tiles of a launch (R263). -/
def Launch.room (l : Launch) (c : Option Cartoon) : Nat := (l.tiles.map (roomOf c)).foldl min 0x500000

/-- What a code image's header says: COFF, CLEN, TOFF, TLEN, TCLEN and OVTAB (R263). -/
structure CodeHeader where
  coff : Nat
  clen : Nat
  toff : Nat
  tlen : Nat
  tclen : Nat
  ovtab : Word
deriving Repr

/-- A code image's header checked (R263). -/
def State.codeHeader (s : State) (l : Launch) : Load CodeHeader :=
  let va := (rcdW l.rcd 1).toNat
  let tsize := l.room (s.cartoonNow l)
  ((s.vreadAs .code l.ctx false va 64).load s va).bind fun b s =>
    let w := wordsOf b
    let g (k : Nat) : Word := w.getD k 0
    let h : CodeHeader := ⟨bitsAt (g 0) 0 32, bitsAt (g 0) 32 32, bitsAt (g 1) 0 32, bitsAt (g 2) 32 32, bitsAt (g 1) 32 32, g 3⟩
    let bad := bitsAt (g 2) 0 32 != 0 || g 4 != 0 || g 5 != 0 || g 6 != 0 || g 7 != 0 || va % 64 != 0
      || h.coff % 64 != 0 || h.clen % 4 != 0 || h.toff % 64 != 0 || h.tclen % 256 != 0 || decide (h.tlen < h.tclen)
      || decide (partXB (rcdW l.rcd 4) < h.clen) || (h.clen == 0 && !l.clusters.isEmpty)
      || (h.tclen == 0 && !l.tiles.isEmpty) || decide (tsize - 1024 < h.tlen)
    if bad then .fail (0x06, va) s else .ok h s

/-- Bytes written to a list of physical places. -/
def State.broadcast (s : State) (bytes : List Byte) (places : List Nat) : State :=
  places.foldl (fun u pa => u.store pa bytes none) s

/-- Step 3 of R223: the code broadcast (R264). -/
def State.loadCode (s : State) (l : Launch) : Load Unit :=
  let va := (rcdW l.rcd 1).toNat
  (s.codeHeader l).bind fun h s =>
    ((s.vreadAs .code l.ctx false (va + h.coff) h.clen).load s (va + h.coff)).bind fun cb s =>
      ((s.vreadAs .code l.ctx false (va + h.toff) h.tlen).load s (va + h.toff)).bind fun tb s =>
        let s1 := if l.cores.isEmpty then s else s.broadcast cb (l.cores.map s.palette)
        .ok () (s1.broadcast tb (l.tiles.map tileBase))

/-- A shape record is defective (R235, R236). -/
def shapeBad (r : List Word) : Bool :=
  let w0 := r.getD 0 0
  let esz := bitsAt w0 44 4
  bitsAt w0 56 6 != 0 || bitsAt w0 0 16 != 0 || r.getD 7 0 != 0 || (decide (4 < esz) && esz != 0xF)
    || (esz == 0xF && bitsAt (r.getD 2 0) 0 1 == 1)

/-- The stage table of a launch (R221). -/
def State.stageTable (s : State) (l : Launch) : Load (List Byte) :=
  let va := (rcdW l.rcd 7).toNat
  if va = 0 then .ok (List.replicate 256 0) s else (s.vread l.ctx false va 256).load s va

/-- Step 4 of R223: the shape records at the top of every palette and tile memory (R236). -/
def State.loadShapes (s : State) (l : Launch) : Load Unit :=
  let n := rcdNSHAPE l.rcd
  (if n = 0 then .ok [] s else s.cpWords l.ctx (rcdW l.rcd 3).toNat (8 * n)).bind fun w s =>
    match firstBad shapeBad 0 (groupWords 8 w) with
    | some k => .fail (0x09, k) s
    | none =>
      let bytes := bytesOfWords (w ++ List.replicate (128 - 8 * n) 0)
      let c := s.cartoonNow l
      .ok () (s.broadcast bytes (l.cores.map (fun c => s.palette c + 0x3FC00)
        ++ l.tiles.map (fun t => tileBase t + (roomOf c t - 1024))))

/-- `k.stage` from the stage table (R204, R221). -/
def stageWord (st : List Byte) (k : Nat) : Word :=
  let v (b : Byte) : Nat := b.toNat % 64
  BitVec.ofNat 64 (v (st.getD k 0) + (st.map v).foldl max 0 * 2 ^ 8)

/-- `k.dqspill` of the core of a rank (R222). -/
def spillOf (dqs : Word) (rank : Nat) : Word :=
  let sz := bitsAt dqs 12 4
  let base := bitsAt dqs 16 39 * 2 ^ 16 + rank * (2 ^ (sz + 16) + 0x10000)
  BitVec.ofNat 64 (bitsAt dqs 63 1 * 2 ^ 63 + base / 2 ^ 16 % 2 ^ 39 * 2 ^ 16 + sz * 2 ^ 12)

/-- Step 6 of R223 on one core, with the values that R207 and R403 give at launch start. -/
def State.startCore (s : State) (lid : Nat) (l : Launch) (st : List Byte) (ovtab : Word) (rank : Nat) (c : CoreId) : State :=
  let x := s.core c
  let s1 := s.setCore c { x with
    part := setBits (rcdW l.rcd 4) 63 1 1, stage := stageWord st (128 + c.val / 8), dqspill := spillOf (rcdW l.rcd 12) rank,
    ovtab := ovtab, lid := some lid, deque := [], arms := [], sweep := 0, stealing := false, thieves := [],
    serveAt := 0, tryAt := 0, reps := [], views := Vector.replicate 15 (2 ^ 32) }
  (List.range 4).foldl (fun u k =>
    let i := slotOf c k
    let y := u.slot i
    u.setSlot i { y.retire with h := { y.retire.h with cause := 0 }, uih := 0, ovh := 0 }) s1

/-- Step 5 of R223: tables, domains, the pattern word and locked translations. -/
def State.loadCartoon (s : State) (lid : Nat) (l : Launch) : Load Launch :=
  (s.cartoonChecked l).bind fun c s =>
    let pages (d : Nat) : List Nat := (c.locks.filter (fun x => x.1 == d)).map (fun x => x.2)
    (s.lockPages l.ctx 0 (pages 0)).bind fun k0 s => (s.lockPages l.ctx 1 (pages 1)).bind fun k1 s =>
      let l' := { l with rings := c.rings.filter (fun r => r.2.2.any seV), timetable := c.timetable, pattern := c.pattern, locked := k0 ++ k1 }
      let doms := c.domains.foldl (fun (t : Tbl Domain) d =>
        let x := Domain.new lid d.2 ((c.windows.filter (fun w => w.1 == d.1)).map (fun w => w.2))
        t.put d.1 { x with hlead := s.hleadOf x }) s.domains
      let s1 : State := { s with domains := doms }
      .ok l' (match c.pattern with
        | some p => if patNT p != 0 then { s1 with pattern := p, patOwner := some lid } else s1
        | none => s1)

/-- The domain record goes to every other package of the box (R443). -/
def State.announce (s : State) (lid : Nat) : State :=
  (s.launchDomains lid).foldl (fun u p => (u.peers p.2).foldl (fun v n => v.sendFlit n p.1 (.record p.2.ent)) u) s

/-- Every record of the other members has come and matched (R443). -/
def State.joined (s : State) (lid : Nat) : Bool :=
  (s.launchDomains lid).all (fun p => (s.peers p.2).all p.2.xrec.contains)

/-! ### Start (steps 7 and 8 of R223) -/

/-- A tile begins at offset 0 with its sequencer registers reset and its templates zero (R223, R256; log 35). -/
def State.startTile (s : State) (lid : Nat) (st : List Byte) (tclen : Nat) (t : TileId) : State :=
  let x := s.tile t
  let r := { TileRegs.reset with h := { TileRegs.reset.h with cause := x.h.cause, epc := x.h.epc, nst := x.h.nst } }
  s.setTile t { x with r := r, lid := some lid, running := true, ended := false, wait := .none, stage := stageWord st t.val,
                       tclen := tclen, faddr := 0, thr := false, armed := none, queue := [], gangs := [], flagged := 0, turn := 0, gap := false, drains := [],
                       lands := [], writes := [], sends := [], recvs := [], xreds := [], gath := none, lane := [], port := [],
                       shadow := [], journal := [], checkpoint := some r }

/-- The initial task records with their cores (step 8 of R223). Their reserved fields are not read (log 105). -/
def State.initialTasks (s : State) (l : Launch) : Load (List (Nat × TaskRec)) :=
  let n := rcdNTASK l.rcd
  if n = 0 then .ok [] s
  else (s.cpWords l.ctx (rcdW l.rcd 5).toNat (8 * n)).bind fun w s =>
    let cores := l.cores
    .ok ((groupWords 8 w).zipIdx.map (fun p =>
      let r := TaskRec_ofWords p.1
      ((cores.getD (p.2 % max 1 cores.length) 0).val, { r with lnk := false, cser := 0, ccore := 0 }))) s

/-- The records of a launch that are still to be pushed. -/
def State.setToPush (s : State) (lid : Nat) (l : List (Nat × TaskRec)) : State :=
  match s.launches.find lid with
  | some x => { s with launches := s.launches.put lid { x with toPush := l } }
  | none => s

/-- Initial records pushed in order, until one finds no room, or its deque controller waits (step 8 of R223, R212). -/
def State.pushInitial (s : State) (lid : Nat) : List (Nat × TaskRec) → State
  | [] => s.setToPush lid []
  | (c, r) :: t =>
    if s.ck < (s.core (coreNo c)).tryAt then s.setToPush lid ((c, r) :: t)
    else match s.pushRec (coreNo c) r with
    | .ok true u => u.pushInitial lid t
    | .wait w u => (u.dequeWait (coreNo c) w).setToPush lid ((c, r) :: t)
    | _ => s.setToPush lid ((c, r) :: t)

/-- A domain as it begins at step 7 of R223: its clock runs, or waits for the common start, and its collectives have every
member (R397, R443, R446). -/
def State.beginDomain (s : State) (x : Domain) : Domain :=
  { x with
    started := !x.xpkg
    held := true
    colTiles := x.tiles.map (fun t => t.val)
    lead := s.hleadOf x
    hlead := s.hleadOf x }

/-- Steps 6 to 8 of R223, the tables read. A domain of one package starts its phase clock at once; a cross-package domain
waits for its common start (R443). -/
def State.beginLaunch (s : State) (lid : Nat) (l : Launch) (st : List Byte) (h : CodeHeader) (tasks : List (Nat × TaskRec)) : State :=
  let s1 := (l.cores.zipIdx).foldl (fun u p => u.startCore lid l st h.ovtab p.2 p.1) { s with scw := rcdSCW l.rcd }
  let l' := { l with st := .running, start := s.ck, toPush := tasks }
  let s2 : State := { s1 with launches := s1.launches.put lid l' }
  let s3 := l.tiles.foldl (fun u t => u.startTile lid st h.tclen t) s2
  let s4 : State := { s3 with domains := s3.domains.map (fun p =>
    if p.2.lid == lid then (p.1, s.beginDomain p.2) else p) }
  let s5 := (s4.launchDomains lid).foldl (fun u p =>
    if p.2.xpkg then u.reportReady p.1 p.2 else u) s4
  s5.pushInitial lid tasks

/-- What a step of a launch comes to: it fails, or waits and is tried again. -/
def Load.settle {α : Type} (r : Load α) (lid : Nat) (l : Launch) (k : α → State → State) : State :=
  match r with
  | .ok x s => k x s
  | .fail f s => s.failLaunch lid l f
  | .later n s => s.after n (.launchClaim lid)

/-- Steps 6 to 8 of R223. -/
def State.startLaunch (s : State) (lid : Nat) (l : Launch) : State :=
  ((s.stageTable l).bind fun st s => (s.codeHeader l).bind fun h s => (s.initialTasks l).bind fun tasks s =>
    .ok (st, h, tasks) s).settle lid l fun x s => s.beginLaunch lid l x.1 x.2.1 x.2.2

/-- Steps 3 to 5 of R223, then the start, or the wait for other packages. -/
def State.loadLaunch (s : State) (lid : Nat) (l : Launch) : State :=
  if partBad (rcdW l.rcd 4) then s.failLaunch lid l (0x05, 0)
  else ((s.loadCode l).bind fun _ s => (s.loadShapes l).bind fun _ s => (s.stageTable l).bind fun _ s =>
    s.loadCartoon lid l).settle lid l fun l1 s =>
      let l2 := { l1 with st := .loading }
      let s1 : State := { s with launches := s.launches.put lid l2 }
      if s1.joined lid then s1.startLaunch lid l2 else s1.announce lid

/-- `LAUNCH_CLAIM` (R223, R224, R443): once its claims can be granted, the launch is loaded and started. A wait of the
reading of its cartoon puts the claim off. -/
def execLaunchClaim (s : State) : Host.Outcome State Fault Refusal :=
  match s.event with
  | some (.launchClaim lid) =>
    match s.launches.find lid with
    | none => .next s
    | some l =>
      if l.st == .claiming && l.saved.isNone then
        (match s.claimFault l, s.cartoonChecked l with
          | some f, _ => .next (s.failLaunch lid l f)
          | none, .later n u => .next (u.after n (.launchClaim lid))
          | none, _ => if s.claimable lid l then .next (s.loadLaunch lid l) else .next s)
      else if l.st == .loading then
        (if s.joined lid then .next (s.startLaunch lid l) else .next s)
      else .next s
  | _ => .next s

/-- `DOMAIN_START` (R443, R413): at the agreed domain time the phase clock of a cross-package domain starts. -/
def execDomainStart (s : State) : Host.Outcome State Fault Refusal :=
  match s.event with
  | some (.domainStart d) =>
    match s.domains.find d with
    | some x => .next (s.setDomain d { x with started := true, held := true, startAt := none, xready := [], xwhen := 0 })
    | none => .next s
  | _ => .next s

/-! ### Normal end (R225) -/

/-- An update of a sync word of one of the launch's cores is on its way (R146, R201). -/
def State.syncComing (s : State) (lid : Nat) : Bool :=
  let mine (c : CoreId) (pa : Nat) : Bool := (s.core c).lid == some lid && decide (s.palette c ≤ pa) && decide (pa < s.palette c + 0x40000)
  (s.agenda ++ s.timers.map (fun t => t.2)).any (fun e =>
    match e with
    | .syncUpdate pa _ _ _ _ _ => s.cores.any (fun p => mine (coreNo p.1) pa)
    | _ => false)

/-- The started copies of a launch have run to completion (step 3 of R430). -/
def State.copiesDone (s : State) (lid : Nat) : Bool :=
  !s.copies.any (fun p => (s.core (coreOf p.2.slot)).lid == some lid)

/-- What the launch's slots and copies have sent has taken effect: a DONE arrival orders it (R201). -/
def State.sentDone (s : State) (lid : Nat) : Bool :=
  s.copiesDone lid && !s.syncComing lid
    && !s.slots.any (fun p => (s.core (coreOf (slotNo p.1))).lid == some lid && p.2.out != 0)

/-- The records and slots of a launch's cores are gone, and nothing that they sent is left (R178, R201, R225). -/
def State.coresDone (s : State) (lid : Nat) : Bool :=
  let mine (c : CoreId) : Bool := (s.core c).lid == some lid
  s.sentDone lid
    && !s.slots.any (fun p => mine (coreNo (p.1 / 4)) && (p.2.st != .idle || p.2.preload.isSome))
    && !s.cores.any (fun p => p.2.lid == some lid && (!p.2.deque.isEmpty || !p.2.arms.isEmpty || s.spilled (coreNo p.1) != 0))
    && !(s.agenda ++ s.timers.map (fun t => t.2)).any (fun e =>
      match e with
      | .spawnArrival c _ _ => mine c
      | .stealReply c (some _) => mine c
      | _ => false)

/-- The engines of a tile have completed everything (R274, R389). -/
def Tile.quiet (x : Tile) : Bool :=
  x.queue.isEmpty && x.gangs.isEmpty && x.drains.isEmpty && x.lands.isEmpty && x.writes.isEmpty && x.sends.all (fun v => v.fin == v.words)
    && x.recvs.all (fun v => v.fin == v.words)
    && x.xreds.all (fun v => v.fin) && x.gath.isNone

/-- Every tile of a launch has ended, and its engines are quiet. -/
def State.tilesDone (s : State) (l : Launch) : Bool :=
  l.tiles.all (fun t => (s.tile t).ended && (s.tile t).quiet)

/-- The domains of a launch whose last barrier the tiles alone reach have promoted their lines (R230, R274). -/
def State.promoted (s : State) (lid : Nat) : Bool :=
  (s.launchDomains lid).all (fun p => !p.2.releasing && (p.2.carr != 0 || !s.tent.any (fun x => x.2.dom == p.1)))

/-- A launch may end (R225). -/
def State.mayEnd (s : State) (lid : Nat) (l : Launch) : Bool :=
  l.st == .running && l.toPush.isEmpty && s.tilesDone l && s.coresDone lid && s.promoted lid
    && !s.launches.any (fun p => p.2.parent == some lid)

/-- `LAUNCH_END` (R225). -/
def execLaunchEnd (s : State) : Host.Outcome State Fault Refusal :=
  match s.event with
  | some (.launchEnd lid) =>
    match s.launches.find lid with
    | none => .next s
    | some l => if s.mayEnd lid l then .next (s.finishLaunch lid l 0 0 (s.ck - l.began)) else .next s
  | _ => .next s

/-! ### The end on a fault (R430) -/

/-- Everything of a launch stops (steps 1 to 4 of R430): tiles and slots stop, uncommitted tasks, with what they buffered, claimed
and read, tentative lines and held copies go, and deques, arm entries and seal entries are emptied. -/
def State.stopLaunch (s : State) (lid : Nat) : State :=
  let mine (c : CoreId) : Bool := (s.core c).lid == some lid
  ({ s with
    slots := s.slots.map (fun p => if mine (coreNo (p.1 / 4)) then
      (p.1, { p.2 with st := if p.2.st == .idle then .idle else .suspended, wait := .none, preload := none, buf := [], held := [],
                       spec := .free, sigLo := 0, sigHi := 0 }) else p)
    claims := s.claims.filter (fun p => !mine (coreOf (slotNo p.2)))
    cores := s.cores.map (fun p => if p.2.lid == some lid then (p.1, { p.2 with deque := [], arms := [], dqspill := 0 }) else p)
    tiles := s.tiles.map (fun p => if p.2.lid == some lid then (p.1, { p.2 with running := false, wait := .none }) else p)
    tent := s.tent.filter (fun p => !((s.domains.find p.2.dom).map (fun d => d.lid == lid)).getD false)
    copies := s.copies.filter (fun p => !(p.2.held && mine (coreOf p.2.slot)))
    seals := s.seals.filter (fun x => x.lid != lid)
    invals := s.invals.map (fun p => (p.1, p.2.forLaunch lid)) } : State).dropEvents (fun e => match e with
      | .spawnArrival c _ _ => mine c
      | .stealReply c _ => mine c
      | _ => false)

/-- Everything that was under way when a launch began to end has completed: the started copies (step 3 of R430), the updates sent
(R201), and the landings, the queued operations and, with pentimento off, the drains of its tiles (R156, R410). -/
def State.stopped (s : State) (lid : Nat) : Bool :=
  s.sentDone lid
    && s.tiles.all (fun p => p.2.lid != some lid || (p.2.lands.isEmpty && p.2.queue.isEmpty
      && (p.2.drains.isEmpty || ((s.domainOf p.1).map (fun d => d.2.pent)).getD false)))

/-- The status of a launch that a fault ended (R461): member lost, or ended on a fault. -/
def faultStatus (f : FaultInfo) : Nat := if f.cause = 0x15 then 0x0D else 0x0C

/-- The reason of the dump (R431) that a cause gives by itself. -/
def faultReason (who : Agent) (f : FaultInfo) : Nat :=
  if f.cause = 0x12 then 2 else match who with
  | .slot _ => 6
  | .tile _ => 1

/-- The domain time and the ck at which a fault was raised: of the loss of a cluster or of a slice, now (R431). -/
def State.raisedAt (s : State) (who : Agent) (reason : Nat) : Nat × Nat :=
  if reason = 3 ∨ reason = 4 then (s.time, s.ck)
  else match who with
  | .slot i => (s.slot i).raised
  | .tile t => (s.tile t).raised

/-- A launch begins to end on a fault (R430). -/
def State.endOnFault (s : State) (lid : Nat) (who : Agent) (f : FaultInfo) (reason : Nat) : State :=
  match s.launches.find lid with
  | none => s
  | some l =>
    if l.fault.isSome then s
    else
      let l' := { l with st := .leaving, fault := some (who, f, reason, s.raisedAt who reason), status := some (faultStatus f), toPush := [] }
      ({ s with launches := s.launches.put lid l' }.stopLaunch lid).post (.launchFaultEnd lid who f)

/-- `LAUNCH_FAULT_END` (R430): the launch stops; once what was under way has completed, the dump is written, the packet
completes and the claims are released. -/
def execLaunchFaultEnd (s : State) : Host.Outcome State Fault Refusal :=
  match s.event with
  | some (.launchFaultEnd lid who f) =>
    match s.launches.find lid with
    | none => .next s
    | some l =>
      if l.fault.isNone then .next (s.endOnFault lid who f (faultReason who f))
      else if !s.stopped lid then .next (s.after 1 (.launchFaultEnd lid who f))
      else
        let cause := (l.fault.map (fun x => x.2.1.cause)).getD 0
        (match s.writeDump lid l with
          | .wait w u => .next (u.after (u.delay w) (.launchFaultEnd lid who f))
          | .ok _ u => .next (u.finishLaunch lid l (l.status.getD 0x0C) cause 0)
          | _ => .next (s.finishLaunch lid l (l.status.getD 0x0C) cause 0))
  | _ => .next s

end Sys2Proof.Machine
end

