-- ==== Sys2Proof/Machine/Commit.lean ====
section
/-!
DEFINITION. Commit of ordered tasks (spec/05_consistency.md R178 to R189; spec/09_memory_instructions.md R304, R322).
-/
namespace Sys2Proof.Machine

/-! ### When a task commits (R179) -/

/-- Another task of the domain is irrevocable (R179, R186). -/
def State.otherIrrevocable (s : State) (i : SlotId) : Bool :=
  let lid := (s.core (coreOf i)).lid
  let dom := (s.slot i).dom
  s.slots.any (fun p => p.1 != i.val && p.2.spec == .irrevocable && p.2.task.isSome && p.2.dom == dom
    && s.sameLid (coreNo (p.1 / 4)) lid)

/-- The run that created a record is still speculative (R179). -/
def State.creatorOpen (s : State) (r : TaskRec) : Bool :=
  r.lnk && (List.range 4).any (fun k =>
    let y := s.slot (slotOf (coreNo r.ccore.toNat) k)
    y.ser == r.cser && y.task.isSome && y.spec == .speculative)

/-- The last three conditions of R179. -/
def State.frontReached (s : State) (i : SlotId) : Bool :=
  match (s.slot i).task with
  | none => false
  | some r =>
    decide (r.ts.toNat ≤ s.view (coreOf i) r.dom.toNat) && !s.creatorOpen r && !s.otherIrrevocable i

/-- A slot that waits for its commit may commit now, or goes on with the release of its held operations (R179, R304). -/
def State.mayCommit (s : State) (i : SlotId) : Bool :=
  let x := s.slot i
  (x.wait == .commit || x.wait == .irr) && x.task.isSome
    && (x.spec == .irrevocable || (x.spec == .speculative && s.frontReached i))

/-! ### Claims (R180) -/

/-- The bytes of a buffered effect: where, and how many. -/
def BufOp.range : BufOp → Nat × Nat
  | .store pa bytes _ => (pa, bytes.length)
  | .atom pa op w _ _ _ => (pa, amoBytes op w)

/-- The place of a buffered effect in the order of claims: the slices, the palettes by physical core, the tile memories by
tile (R180). -/
def State.placeKey (s : State) (pa : Nat) : Nat :=
  match s.phys pa with
  | .tileMem t _ => 1088 + t
  | .palette c _ => 64 + c
  | _ => (s.sliceAt pa).getD 0

/-- The blocks that a claim of a range takes: at a slice its whole lines (R180). -/
def State.claimBlocks (s : State) (pa n : Nat) : List Nat :=
  if s.placeKey pa < 64 then (linesOf pa n).flatMap (fun k => blocksOf (256 * k) 256) else blocksOf pa n

/-- What a claim of a range comes to: it may be claimed, or waits, or the access faults (R180, R77, R43, R48, R70). A line
that no way holds is claimed too: the slice makes room for it. -/
def State.claim (s : State) (i : SlotId) (pa n : Nat) : WinAns :=
  if (s.claimBlocks pa n).any (fun b => s.claims.any (fun p => p.1 == b && p.2 != i.val)) then .refuse 2
  else match s.placeOf i pa with
  | .tileMem t => s.windowTest t.val (pa - tileBase t) n
  | .slice =>
    if (linesOf pa n).any (fun k =>
        s.tentAt k
          || ((s.lines.find k).map (fun l => l.st != .ready || hostMayHold l (max pa (256 * k)) (min (pa + n) (256 * k + 256) - max pa (256 * k)))).getD false)
    then .refuse 2 else .ok
  | .palette c _ => if c != coreOf i && clmapChg (s.clmapAt (c.val / 8)) then .refuse 255 else .ok
  | _ => .ok

/-- A commit claims its places in their order, as far as none waits (R180): what its claims come to, and those that it holds. -/
def State.claimPlaces (s : State) (i : SlotId) (buf : List BufOp) : List Nat → WinAns × State
  | [] => (.ok, s)
  | k :: t =>
    let here := buf.filter (fun o => s.placeKey o.range.1 == k)
    let asks := here.map (fun o => s.claim i o.range.1 o.range.2)
    match asks.find? (fun a => a != .ok) with
    | some (.fault c y) => (.fault c y, s)
    | some a => (a, here.foldl (fun u o => u.snoopHost o.range.1 o.range.2 true) s)
    | none =>
      let bs := here.flatMap (fun o => s.claimBlocks o.range.1 o.range.2)
      let free := bs.eraseDups.filter (fun b => !s.claims.any (fun p => p.1 == b))
      { s with claims := free.map (fun b => (b, i.val)) ++ s.claims }.claimPlaces i buf t

/-- A commit claims the places of its buffered effects (R180). -/
def State.claimAll (s : State) (i : SlotId) (buf : List BufOp) : WinAns × State :=
  s.claimPlaces i buf (buf.foldl (fun l o => insertNat (s.placeKey o.range.1) l) [])

/-- The claims of a slot end. -/
def State.unclaim (s : State) (i : SlotId) : State := { s with claims := s.claims.filter (fun p => p.2 != i.val) }

/-- The deferred atomic that meets an uncorrectable mark, if any (R188, R419). -/
def State.markedAtom (s : State) (buf : List BufOp) : Option BufOp :=
  buf.find? (fun o => match o with
    | .atom pa op w _ _ _ => s.marked pa (amoBytes op w) && !covered buf pa (amoBytes op w)
    | .store .. => false)

/-! ### Apply (R180) -/

/-- One buffered effect applied at its place, without a stamp, and whether it has written (R180): an atomic that fails its
comparison writes nothing (R316). -/
def State.applyOp (s : State) (i : SlotId) (o : BufOp) : State × Bool :=
  let put (s : State) (pa : Nat) (bytes : List (Option Byte)) : State :=
    match s.phys pa with
    | .tileMem t off => s.windowStore (Fin.ofNat 128 t) off bytes (some i)
    | _ => { s with mem := memPutMask s.mem pa bytes, marks := marksAfterMask s.marks pa bytes }
  match o with
  | .store pa bytes _ => (put s pa bytes, true)
  | .atom pa op w b dIn _ =>
    let n := amoBytes op w
    let r := amoNew op n (memNat s.mem pa n) b.toNat dIn.toNat
    let s1 := s.raise (.slot i) r.2
    match r.1 with
    | some v => (put s1 pa ((bytesOfNat n v).map some), true)
    | none => (s1, false)

/-- One stamp for each slice that the effects write, and their lines dirty; a slot that commits receives the stamps (R74,
R180). -/
def State.stampAll (s : State) (pas : List Nat) (by_ : Option SlotId) : State :=
  let ks := pas.foldl (fun (l : List Nat) pa => match s.sliceAt pa with
    | some k => insertNat k l
    | none => l) []
  let s1 : State := { s with
    seqs := ks.foldl (fun (q : Tbl (BitVec 48)) k => q.put k ((q.find k).getD 0 + 1)) s.seqs
    lines := pas.foldl (fun (t : Tbl Line) pa => match t.find (pa / 256) with
      | some l => t.put (pa / 256) { l with dirty := true }
      | none => t) s.lines }
  match by_ with
  | some i => if ks.isEmpty then s1 else { s1 with acks := s1.acks.put i.val (ks.map (fun k => (k, (s.seqs.find k).getD 0))) }
  | none => s1

/-- The buffered effects of a task take effect in program order, answer watches, and abort the speculative tasks that read a
block that they write (R180, R181, R326). -/
def State.applyBuffer (s : State) (i : SlotId) (buf : List BufOp) : State :=
  let r := buf.foldl (fun (a : State × List (Nat × Nat)) o =>
    let p := a.1.applyOp i o
    (p.1, if p.2 then a.2 ++ [o.range] else a.2)) (s, [])
  let s1 := r.1.stampAll (r.2.flatMap (fun p => (linesOf p.1 p.2).map (fun k => 256 * k))) (some i)
  let s2 := r.2.foldl (fun u p => u.wakeWatch p.1 p.2) s1
  s2.abortReaders ((r.2.map (fun p => blocksOf p.1 p.2)).flatten) (some i)

/-! ### Held operations (R175, R304) -/

/-- A held `sarm` released (R304, R327): none while it finds no free arm entry. -/
def State.releaseSarm (s : State) (i : SlotId) (off g : Nat) (r : TaskRec) : Option State :=
  let c := coreOf i
  let x := s.core c
  let add (due : Bool) : Option State :=
    if x.arms.length < 16 then some (s.setCore c { x with arms := x.arms ++ [⟨off, BitVec.ofNat 16 g, r, due⟩] }) else none
  if (s.syncAt (s.palette c + off)).releases g then
    match s.pushRec c r with
    | .ok true u => some u
    | _ => add true
  else add false

/-- A held operation that orders the slot's earlier updates waits for them (R192, R194, R197, R199, R304). -/
def State.orderedHeld (s : State) (i : SlotId) (t : State) : Option State := if (s.slot i).out = 0 then some t else none

/-- A held operation performed as the free domain performs it (R304); none while it waits. -/
def State.releaseHeld (s : State) (i : SlotId) (h : Held) : Option State :=
  match h.ins with
  | .sadd .. =>
    let c := coreNo h.a.toNat
    if c != coreOf i && clmapChg (s.clmapAt (c.val / 8)) then none
    else s.orderedHeld i (s.sendSync i c h.b.toNat h.c)
  | .xbarArr .. => s.orderedHeld i (s.sendTxn i h.b.toNat h.a.toNat h.c)
  | .sarm .. =>
    (match h.rcd with
      | some r => s.releaseSarm i h.a.toNat h.b.toNat r
      | none => some s)
  | .barArr .. =>
    (match s.coreDomain i (bitsAt h.a 0 6) with
      | some x => s.orderedHeld i (s.arriveCore i (bitsAt h.a 0 6) x)
      | none => some s)
  | .wpost .. => s.orderedHeld i (s.releasePost i h.a.toNat)
  | .lpatch .. => some (s.applyPatch h.a.toNat h.b).1
  | .larm .. => some (s.applyArm (coreOf i) h.a.toNat).1
  | .seal .. => some (s.releaseSeal i h.a.toNat h.b.toNat)
  | .unseal .. => some (s.releaseUnseal i h.a.toNat h.b.toNat)
  | .cpLin .. => s.orderedHeld i (s.startCopy h.a.toNat)
  | .cpBox .. => s.orderedHeld i (s.startCopy h.a.toNat)
  | .cpGather .. => s.orderedHeld i (s.startCopy h.a.toNat)
  | .cpScatter .. => s.orderedHeld i (s.startCopy h.a.toNat)
  | .cpRemote .. => s.orderedHeld i (s.startCopy h.a.toNat)
  | .cpCancel .. => some (s.cancelCopy (coreOf i) h.a.toNat)
  | _ => some s

/-- The held operations released in program order, as far as none waits; those that are left. -/
def State.releaseAll (s : State) (i : SlotId) : List Held → State × List Held
  | [] => (s, [])
  | h :: t =>
    match s.releaseHeld i h with
    | some u => u.releaseAll i t
    | none => (s, h :: t)

/-! ### The commit (R180, R185, R186) -/

/-- What follows a commit: the task ends after `tend`, goes on after `commit.irr`, or issues its instruction anew (R179,
R185, R186, R189). -/
def State.afterCommit (s : State) (i : SlotId) : State :=
  let x := s.slot i
  match x.st, x.wait with
  | .committing, .commit => s.retireTask i
  | .committing, _ => (s.setSlot i { x with st := .running, wait := .none }).done (.slot i)
  | _, _ => s.setSlot i { x with st := .running, wait := .none }

/-- A commit whose places may be claimed: apply, release, and what follows (R180). -/
def State.commitTask (s : State) (i : SlotId) : State :=
  let x := s.slot i
  let s1 := s.setSlot i { x with spec := .irrevocable, buf := [], sigLo := 0, sigHi := 0 }
  let s2 := (s1.applyBuffer i x.buf).unclaim i
  let r := s2.releaseAll i x.held
  let s3 := r.1.setSlot i { r.1.slot i with held := r.2 }
  if r.2.isEmpty then s3.afterCommit i else s3

/-- The virtual address at which a buffered effect was made: on its page, or in the local window (R14, R28, R58; log 120). -/
def State.bufVa (s : State) (i : SlotId) (o : BufOp) : Nat :=
  let pa := o.range.1
  match o.page, s.phys pa with
  | some p, _ => p.va + pa % 2 ^ p.bits
  | none, .tileMem t off => 0x007F000040000000 + t * 0x800000 + off
  | none, .scratch k off => 0x007F000080000000 + k * 0x800000 + off
  | none, .palette _ off =>
    (match s.placeOf i pa with
      | .palette c false => 0x007F000010000000 + c.val * 0x40000 + off
      | _ => 0x007F000000000000 + off)
  | none, _ => pa

/-- KIND of a buffered effect (R403). -/
def BufOp.kind : BufOp → Nat
  | .store .. => 2
  | .atom .. => 3

/-- A fault that a buffered effect raises at its place as the task commits (R17, R28, R188). -/
def State.commitFault (s : State) (i : SlotId) (o : BufOp) (cause synd : Nat) : FaultInfo :=
  { cause := cause, synd := synd, kind := o.kind, faddr := s.bufVa i o }

/-- The first buffered effect, in the order of claims, whose place answers with a fault. -/
def State.faultingOp (s : State) (i : SlotId) (buf : List BufOp) : Option BufOp :=
  let bad (o : BufOp) : Bool := match s.claim i o.range.1 o.range.2 with
    | .fault .. => true
    | _ => false
  (buf.foldl (fun l o => insertNat (s.placeKey o.range.1) l) []).findSome? (fun k =>
    buf.find? (fun o => s.placeKey o.range.1 == k && bad o))

/-- `COMMIT` (R179, R180): the task claims its places, applies its buffered effects and releases its held operations; while
a claim waits, nothing takes effect, and the places claimed before it refuse every other request. -/
def execCommit (s : State) : Host.Outcome State Fault Refusal :=
  match s.event with
  | some (.commit i) =>
    if !s.mayCommit i then .next s
    else
      let x := s.slot i
      let r := s.claimAll i x.buf
      match r.1 with
      | .fault c y =>
        .next ((r.2.unclaim i).raiseFault (.slot i)
          (((s.faultingOp i x.buf).map (fun o => s.commitFault i o c y)).getD { cause := c, synd := y, kind := 2 }))
      | .refuse _ => .next r.2
      | .ok =>
        match s.markedAtom x.buf with
        | some o => .next ((r.2.unclaim i).raiseFault (.slot i) (s.commitFault i o 0x13 0))
        | none => .next (r.2.commitTask i)
  | _ => .next s

/-- `commit.irr` (R186, R322): no effect in a free-domain or irrevocable task; else the slot waits in the committing
state. -/
def execCommitIrr (s : State) : Host.Outcome State Fault Refusal :=
  onSlot s fun i =>
    let x := s.slot i
    if x.speculative then .next (s.setSlot i { x with st := .committing, wait := .irr }) else .next (s.done s.cur)

/-! ### A starved front (R189) -/

/-- A record is at the front of a domain. -/
def isFront (d f : Nat) (r : TaskRec) : Bool := r.dom.toNat == d && r.ts.toNat == f

/-- The place of a live record at a front among the spilled records of a core, counted from TAIL (R212). -/
def State.spilledFront (s : State) (c : CoreId) (d f : Nat) : Option Nat :=
  (List.range (s.spilled c)).find? (fun k =>
    ((s.spillRec c (((s.spillEnds c).1 + k) % 2 ^ 32)).map (fun r => isFront d f r && !s.dead r)).getD false)

/-- A thread slot of the package is free (R189). -/
def State.slotFree (s : State) : Bool :=
  let present (k : Nat) : Bool := s.clusterPresent (k / 32)
  let busy := s.slots.filter (fun p => present p.1 && !p.2.isFree)
  decide (busy.length < 32 * ((List.range 128).filter s.clusterPresent).length)

/-- The live task at the front of a domain waits in a deque, spilled or not, while no slot of the package is free (R189). -/
def State.starved (s : State) (lid d : Nat) : Option CoreId :=
  let f := s.front (some lid) d
  match s.cores.find? (fun p => p.2.lid == some lid && (p.2.deque.any (isFront d f) || (s.spilledFront (coreNo p.1) d f).isSome)) with
  | none => none
  | some p => if s.slotFree then none else some (coreNo p.1)

/-- Spilled record `k` from TAIL taken out: those between TAIL and it move up by one place (R189, R212). -/
def State.closeGap (s : State) (c : CoreId) (tail : Nat) : Nat → Res Unit
  | 0 => s.setSpillEnds c (tail + 1) (s.spillEnds c).2
  | k + 1 =>
    (s.loadSpilled c (tail + k)).bind fun r u =>
      (u.dequeWrite c (spillAddr (u.core c).dqspill (tail + k + 1)) (bytesOfWords (recordWords r))).bind
        fun _ v => v.closeGap c tail k

/-- The record at a front taken from a core's deque, spilled or not (R189). -/
def State.takeFront (s : State) (c : CoreId) (d f : Nat) : Res (Option TaskRec) :=
  let x := s.core c
  match x.deque.find? (isFront d f) with
  | some r => .ok (some r) (s.setCore c { x with deque := x.deque.erase r })
  | none =>
    match s.spilledFront c d f with
    | none => .ok none s
    | some k =>
      let tail := (s.spillEnds c).1
      (s.loadSpilled c (tail + k)).bind fun r u => (u.closeGap c tail k).bind fun _ v => .ok (some r) v

/-- The speculative task with the highest timestamp above its domain's front, among those of the launch that wait after `tend`
(R189; log 121). -/
def State.highestWaiting (s : State) (lid : Nat) : Option (SlotId × TaskRec) :=
  s.slots.foldl (fun (best : Option (SlotId × TaskRec)) p =>
    let x := p.2
    match x.task with
    | none => best
    | some r =>
      let ok := s.sameLid (coreNo (p.1 / 4)) (some lid) && x.st == .committing && x.wait == .commit && x.spec == .speculative
        && decide (s.front (s.core (coreNo (p.1 / 4))).lid r.dom.toNat < r.ts.toNat)
      if !ok then best
      else match best with
        | none => some (slotNo p.1, r)
        | some (_, b) => if b.ts < r.ts then some (slotNo p.1, r) else best) none

/-- `STARVED_FRONT_TIMEOUT` (R189): the highest waiting speculative task is aborted with its children, its record goes to the head
of its core's deque, and its slot takes the front task, if that is live still. -/
def execStarvedFrontTimeout (s : State) : Host.Outcome State Fault Refusal :=
  match s.event with
  | some (.starvedFrontTimeout lid d) =>
    match s.starved lid d, s.highestWaiting lid with
    | some c, some (i, _) =>
      (match (s.giveBack i).takeFront c d (s.front (some lid) d) with
        | .ok (some r) u => .next (u.startOn i r)
        | .ok none u => .next u
        | .wait w u => .next (s.after (u.delay w) (.starvedFrontTimeout lid d))
        | .fault _ u => .next u
        | .stop f => .fault f)
    | _, _ => .next s
  | _ => .next s

end Sys2Proof.Machine
end

