-- ==== Sys2Proof/Machine/System.lean ====
section
/-!
DEFINITION. System instructions (spec/07_isa_encoding.md R255; spec/08_scalar_control_loops.md R278, R296 to R301).
-/
namespace Sys2Proof.Machine

/-! ### `krd` and `kwr` (R255, R117, R278) -/

/-- An operation of the tile that may set a flag of `k.nst` has not completed (R117). -/
def Tile.flagsPending (x : Tile) : Bool := !x.ops.isEmpty || x.xreds.any (fun v => !v.fin)

/-- `krd gd, kname` (R255); `k.nst` of a tile waits for the operations that may set a flag (R117). In a speculative task it does
not wait for a deferred atomic with destination `g0`, whose flags come at commit (R117, R175; log 128). -/
def execKrd (d : Reg) (n : BitVec 10) (s : State) : Host.Outcome State Fault Refusal :=
  if !regListed n.toNat then .next (s.raiseFault s.cur { cause := 0x01 })
  else
    let waits := match s.cur with
      | .tile t => n == 0x11 && (s.tile t).flagsPending
      | .slot _ => false
    if waits then .next (s.park s.cur (.stall .exchange)) else .next ((s.wg s.cur d (s.creg s.cur n.toNat)).done s.cur)

/-- The loop registers and `k.nst`, the same in both profiles (R278, R116). -/
def Hart.kwr (h : Hart) (n : Nat) (x : Word) : Hart :=
  match n with
  | 0x11 => h.writeNst x
  | 0x20 => h.setLevel 0 { h.level 0 with cnt := x }
  | 0x21 => h.setLevel 1 { h.level 1 with cnt := x }
  | 0x22 => h.setLevel 2 { h.level 2 with cnt := x }
  | 0x23 => h.setLevel 3 { h.level 3 with cnt := x }
  | 0x2C => { h with qrb := if h.qa = 0 then 0 else BitVec.ofNat 8 (x.toNat % h.qa.toNat) }
  | 0x2E => { h with stg := x.setWidth 8 }
  | 0x2F => { h with lam := x }
  | _ => h

/-- The fields of a register with those under a mask replaced. -/
def replaceBits (old new mask : Word) : Word := (old &&& ~~~mask) ||| (new &&& mask)

/-- `kwr` of a core thread slot: the writable fields of each register (R153, R298, R403, R404). A flag that an earlier vector
instruction of the slot sets in the same ck is cleared by a later `kwr`, in program order (R117, R244; log 127). -/
def Slot.kwr (x : Slot) (n : Nat) (v : Word) : Slot :=
  match n with
  | 0x08 => { x with ovh := replaceBits x.ovh v 0x800000000003FFFF &&& ~~~(v &&& 0x4000000000000000) }
  | 0x0B => { x with uih := replaceBits x.uih v 0x800000000003FFFF &&& ~~~(v &&& 0x2000000000000000) }
  | 0x0D => { x with h := { x.h with cause := replaceBits x.h.cause v 0x8FFFFC0000000000 } }
  | 0x0E => { x with h := { x.h with epc := v.setWidth 23 } }
  | _ => { x with h := x.h.kwr n v }

/-- `kwr` of a tile (R156); a flag that an operation sets in the same ck ends at 1 (R117). -/
def Tile.kwr (x : Tile) (n : Nat) (v : Word) : Tile :=
  match n with
  | 0x11 => let h := x.r.h.kwr n v; { x with r := { x.r with h := { h with nst := h.nst ||| x.flagged } } }
  | 0x0C => { x with r := { x.r with gprog := v &&& 0x80000000FFFFFFFF } }
  | _ => { x with r := { x.r with h := x.r.h.kwr n v } }

/-- `kwr kname, ga` (R255, R278); the write takes effect for the next instruction. -/
def execKwr (a : Reg) (n : BitVec 10) (s : State) : Host.Outcome State Fault Refusal :=
  if !regListed n.toNat then .next (s.raiseFault s.cur { cause := 0x01 })
  else match s.cur with
    | .slot i => .next ((s.setSlot i ((s.slot i).kwr n.toNat (s.g a))).done s.cur)
    | .tile t => .next ((s.setTile t ((s.tile t).kwr n.toNat (s.g a))).done s.cur)

/-! ### `eret` and `idle` (R296, R297) -/

/-- `eret` (R296): the return from a trap handler, from a user-interrupt handler, or an illegal instruction. -/
def execEret (s : State) : Host.Outcome State Fault Refusal :=
  onSlot s fun i =>
    let x := s.slot i
    if causeACT x.h.cause then .next (s.trapReturn i)
    else if uihACT x.uih then .next (s.uiReturn i)
    else .next (s.raiseFault s.cur { cause := 0x01 })

/-- `idle` (R297). -/
def execIdle (s : State) : Host.Outcome State Fault Refusal :=
  onSlot s fun i => .next ((s.park s.cur .idle).rearm 4096 (.idleTimeout i))

/-- `IDLE_TIMEOUT` (R297): 4,096 ck after `idle` the slot continues. -/
def execIdleTimeout (s : State) : Host.Outcome State Fault Refusal :=
  match s.event with
  | some (.idleTimeout i) => if (s.slot i).wait = .idle then .next (s.complete i 0 0) else .next s
  | _ => .next s

/-! ### `ovl` (R300) -/

/-- Where `ovl` reads bytes within one block: at a window address as a load of the slot would (R14), else by a walk (R26). -/
def State.ovlPlace (s : State) (i : SlotId) (kind : Kind) (va n : Nat) : Res Nat :=
  let c := coreOf i
  if decide (va < 2 ^ 55) && inWindow va then
    match s.aim c va n kind with
    | .ok d =>
      (match s.answer (.agent (.slot i)) d n false with
        | .serve => .ok d.pa s
        | .refuse h _ => s.later (max 1 (8 * h.getD 1)))
    | .fault f => .fault f s
    | _ => s.later 1
  else s.vaPhysOf (some c) (s.ctxOf (s.core c).lid) kind true va n

/-- The physical pieces of a range that `ovl` reads. -/
def State.ovlPieces (s : State) (i : SlotId) (kind : Kind) : List (Nat × Nat) → Res (List (Nat × Nat))
  | [] => .ok [] s
  | (va, n) :: t => (s.ovlPlace i kind va n).bind fun pa s => (s.ovlPieces i kind t).bind fun l s => .ok ((pa, n) :: l) s

/-- The bytes of physical pieces. -/
def State.readPieces (s : State) (l : List (Nat × Nat)) : List Byte := l.flatMap (fun p => s.read p.1 p.2)

/-- Bytes that `ovl` reads. -/
def State.ovlRead (s : State) (i : SlotId) (kind : Kind) (va n : Nat) : Res (List Byte) :=
  (s.ovlPieces i kind (chunks va n)).bind fun l s => .ok (s.readPieces l) s

/-- What `ovl` moves: the image's address and its length. -/
def State.ovlEntry (s : State) (i : SlotId) (a b : Nat) : Res (Nat × Nat) :=
  let c := coreOf i
  let tab := (s.core c).ovtab.toNat
  let bad : FaultInfo := { cause := 0x08, kind := 4 }
  if tab = 0 then .fault bad s
  else (s.ovlRead i .read tab 16).bind fun hd s =>
    let w := wordsOf hd
    if bitsAt (w.getD 0 0) 16 48 != 0 || w.getD 1 0 != 0 || decide ((w.getD 0 0).toNat ≤ a) then .fault bad s
    else (s.ovlRead i .read (tab + 16 + 16 * a) 16).bind fun en s =>
      let va := natOfBytes (en.take 8)
      let len := natOfBytes (en.drop 8)
      if 2 ^ 32 ≤ len ∨ len = 0 ∨ len % 4 ≠ 0 ∨ va % 4 ≠ 0 then .fault bad s
      else if b % 4 != 0 then .fault { cause := 0x05, kind := 2, faddr := b } s
      else if partXB (s.core c).part < b + len then .fault { cause := 0x06, kind := 2, faddr := b } s
      else .ok (va, len) s

/-- The granules of a destination that receive a marked granule of a source, whose pieces follow one another (R419). -/
def State.movedMarks (s : State) (dst : Nat) : List (Nat × Nat) → List Nat
  | [] => []
  | (pa, n) :: t => (if s.marked pa n then blocksOf dst n else []) ++ s.movedMarks (dst + n) t

/-- `ovl ga, gb` (R300): an overlay is written into the code region at issue. -/
def execOvl (a b : Reg) (s : State) : Host.Outcome State Fault Refusal :=
  onSlot s fun i =>
    finish s s.cur ((s.ovlEntry i (s.g a).toNat (s.g b).toNat).bind fun e s =>
      (s.ovlPieces i .code (chunks e.1 e.2)).bind fun l s =>
        let pa := s.palette (coreOf i) + (s.g b).toNat
        let s1 := s.store pa (s.readPieces l) (some i)
        .ok () { s1 with marks := (s.movedMarks pa l).foldl (fun m g => insertNat g m) s1.marks })

/-! ### `tlbi` (R301) -/

/-- A `tlbi` of a launch-capable task: the invalidation is requested, and the slot waits for its acknowledgment. -/
def tlbiWith (scope : InvScope) (ok : Bool) (s : State) : Host.Outcome State Fault Refusal :=
  onSlot s fun i =>
    if !(s.slot i).lc || !ok then .next (s.raiseFault s.cur { cause := 0x01 })
    else if (s.slot i).speculative then .next (s.park s.cur .commit)
    else
      let v : Inval := { who := some i, asid := s.asidOf (coreOf i), scope := scope, phase := .block, entry := none,
                         opening := false, dest := 0, since := s.ck }
      .next ((s.requestInval v).park s.cur (.inval s.nextInval 0 0))

/-- `tlbi.va ga, gb` (R301). -/
def execTlbiVa (a b : Reg) (s : State) : Host.Outcome State Fault Refusal :=
  tlbiWith (.range (s.g a).toNat (s.g b).toNat) true s

/-- `tlbi.asid ga` (R301). -/
def execTlbiAsid (a : Reg) (s : State) : Host.Outcome State Fault Refusal :=
  let here := match s.cur with
    | .slot i => (s.asidOf (coreOf i)).toNat
    | .tile _ => 0
  tlbiWith .asid (decide ((s.g a).toNat = here)) s

/-- `tlbi.all` (R301). -/
def execTlbiAll (s : State) : Host.Outcome State Fault Refusal := tlbiWith .all true s

end Sys2Proof.Machine
end

