-- ==== Sys2Proof/Machine/Switch.lean ====
section
/-!
DEFINITION. Context switch of launches and answers to faults (spec/12_faults_and_recovery.md R411 to R415;
spec/13_links_and_host.md R459, R461, R463, R464).
-/
namespace Sys2Proof.Machine

/-! ### The switch-out (R415) -/

/-- A pre-emption of every slot and every barrier domain of a launch is requested (step 1 of R415). -/
def State.requestSwitch (s : State) (lid : Nat) : State :=
  { s with
    slots := s.slots.map (fun p =>
      if s.sameLid (coreNo (p.1 / 4)) (some lid) && p.2.st != .idle && !p.2.due.contains .preempt then
        (p.1, { p.2 with due := p.2.due ++ [.preempt] }) else p)
    domains := s.domains.map (fun p => if p.2.lid == lid then (p.1, { p.2 with preempt := true }) else p) }

/-- An event of the launch is in flight: a record, or a post. -/
def State.flying (s : State) (lid : Nat) : Bool :=
  let mine (c : CoreId) : Bool := s.sameLid c (some lid)
  (s.agenda ++ s.timers.map (fun t => t.2)).any (fun e =>
    match e with
    | .spawnArrival c i _ => mine c || mine (coreOf i)
    | .stealReply c _ => mine c
    | .stealRequest c => mine c
    | .windowPostArrival i _ _ _ _ => mine (coreOf i)
    | _ => false)

/-- Every member tile of a domain has ended, and its engines are quiet. -/
def State.domainDone (s : State) (x : Domain) : Bool := x.tiles.all (fun t => (s.tile t).ended && (s.tile t).quiet)

/-- Every slot is suspended or idle and its updates are applied, every domain saved, and every started copy and drain complete (step 2 of R415). -/
def State.switchReady (s : State) (lid : Nat) : Bool :=
  s.slots.all (fun p => !s.sameLid (coreNo (p.1 / 4)) (some lid) || ((p.2.st == .suspended || p.2.st == .idle) && p.2.out == 0))
    && (s.launchDomains lid).all (fun p => p.2.saved || s.domainDone p.2)
    && s.tiles.all (fun p => p.2.lid != some lid || p.2.drains.isEmpty)
    && s.copiesDone lid && !s.syncComing lid && !s.flying lid

/-- The listed bytes of a range of memory, as offsets from its base. -/
def cellsIn (m : List Host.Cell) (base len : Nat) : List (Nat × Byte) :=
  (m.filter (fun c => decide (base ≤ c.1) && decide (c.1 < base + len))).map (fun c => (c.1 - base, c.2))

/-- The places of a launch: its palettes and tile memories, with their numbers, bases and lengths. -/
def State.placesOf (s : State) (l : Launch) : List (Nat × Nat × Nat) :=
  l.cores.map (fun c => (c.val, s.palette c, 0x40000)) ++ l.tiles.map (fun t => (1024 + t.val, tileBase t, 0x800000))

/-- What the save area keeps (step 3 of R415). -/
def State.saveOf (s : State) (lid : Nat) (l : Launch) : Saved :=
  let ps := s.placesOf l
  { cores := s.cores.filter (fun p => p.2.lid == some lid)
    slots := s.slots.filter (fun p => s.sameLid (coreNo (p.1 / 4)) (some lid))
    tiles := s.tiles.filter (fun p => p.2.lid == some lid)
    domains := s.launchDomains lid
    bytes := ps.flatMap (fun p => (cellsIn s.mem p.2.1 p.2.2).map (fun c => (p.1, c.1, c.2)))
    marks := ps.flatMap (fun p => (s.marks.filter (fun g => decide (p.2.1 / 64 ≤ g) && decide (g < (p.2.1 + p.2.2) / 64))).map
      (fun g => (p.1, g - p.2.1 / 64))) }

/-- The bytes of save area that a launch needs (log 32). -/
def Launch.area (l : Launch) : Nat := (Config.saveSize l.clusters.length l.tiles.length).toNat

/-- The switch-out is done: the launch releases its claims and is suspended (step 4 of R415). The layout of the bytes that
the save area holds for step 3 is not stated (log 32). -/
def State.switchOut (s : State) (lid : Nat) (l : Launch) : State :=
  let sv := s.saveOf lid l
  let s1 := s.releaseClaims lid
  { s1 with seals := s.seals, launches := s1.launches.put lid { l with st := .suspended, saved := some sv, locked := [] } }

/-- The bytes of the save area written, and then the switch-out; a write that waits is tried again (R415). -/
def State.saveLaunch (s : State) (lid : Nat) (l : Launch) (q k : Nat) (p : Packet) : State :=
  let r := s.draw
  match r.1.vwrite (s.queueAt q).ctx false p.a1 ((List.range l.area).map (fun j => Config.byteAt r.2 j)) with
  | .wait w u => u.after (u.delay w) (.suspend q k)
  | .ok _ u => (u.switchOut lid l).completePacket q k 0 0 lid 0
  | .fault _ u => (u.switchOut lid l).completePacket q k 0 0 lid 0
  | .stop _ => s

/-- `SUSPEND` (R415, R459, R464). -/
def execSuspend (s : State) : Host.Outcome State Fault Refusal :=
  match s.event with
  | some (.suspend q k) =>
    match s.packetAt q k with
    | none => .next s
    | some p =>
      match s.launches.find p.a0 with
      | none => .next (s.completePacket q k 0x0E 0 p.a0 0)
      | some l =>
        match l.st with
        | .running =>
          if p.a2 < l.area then .next (s.completePacket q k 0x01 0 p.a0 0)
          else
            let s1 : State := { s with launches := s.launches.put p.a0 { l with st := .leaving } }
            .next ((s1.requestSwitch p.a0).after 1 (.suspend q k))
        | .leaving =>
          if l.fault.isSome then .next (s.completePacket q k 0x0E 0 p.a0 0)
          else if s.switchReady p.a0 then
            .next (s.saveLaunch p.a0 l q k p)
          else .next ((s.requestSwitch p.a0).after 1 (.suspend q k))
        | _ => .next (s.completePacket q k 0x0E 0 p.a0 0)
  | _ => .next s

/-! ### The switch-in (R415) -/

/-- Saved bytes and marks written back to the places of a launch. -/
def State.restorePlaces (s : State) (l : Launch) (sv : Saved) : State :=
  (s.placesOf l).foldl (fun u p =>
    let bs := sv.bytes.filter (fun b => b.1 == p.1)
    let cleared := u.mem.filter (fun c => !(decide (p.2.1 ≤ c.1) && decide (c.1 < p.2.1 + p.2.2)))
    let mem := bs.foldl (fun m b => memWrite m (p.2.1 + b.2.1) b.2.2) cleared
    let kept := u.marks.filter (fun g => !(decide (p.2.1 / 64 ≤ g) && decide (g < (p.2.1 + p.2.2) / 64)))
    let marks := (sv.marks.filter (fun m => m.1 == p.1)).foldl (fun l m => insertNat (p.2.1 / 64 + m.2) l) kept
    { u with mem := mem, marks := marks }) s

/-- A launch takes up its saved state (R412, R413, R415): its slots are resumed, and its domains start at offset 0 of the
superstep that they were saved at; a cross-package domain waits for its common start. -/
def State.switchIn (s : State) (lid : Nat) (l : Launch) (sv : Saved) (locked : List (Nat × TlbEntry × Option (List Nat))) : State :=
  let s1 := s.restorePlaces l sv
  let l' := { l with st := .running, saved := none, locked := locked }
  let doms := sv.domains.map (fun p => (p.1, { p.2 with saved := false, preempt := false, held := true, started := !p.2.xpkg, xready := [], xwhen := 0 }))
  let s2 : State := { s1 with
    cores := sv.cores.foldl (fun t p => t.put p.1 p.2) s1.cores
    slots := sv.slots.foldl (fun t p => t.put p.1 p.2) s1.slots
    tiles := sv.tiles.foldl (fun t p => t.put p.1 p.2) s1.tiles
    domains := doms.foldl (fun t p => t.put p.1 p.2) s1.domains
    launches := s1.launches.put lid l'
    scw := rcdSCW l.rcd
    pattern := match l.pattern with
      | some p => if patNT p != 0 then p else s1.pattern
      | none => s1.pattern
    patOwner := match l.pattern with
      | some p => if patNT p != 0 then some lid else s1.patOwner
      | none => s1.patOwner }
  let s3 := sv.slots.foldl (fun u p => if p.2.st == .suspended then u.post (.resumption (slotNo p.1)) else u) s2
  (s3.launchDomains lid).foldl (fun u p =>
    if p.2.xpkg then u.reportReady p.1 p.2 else u) s3

/-- The locked translations of a launch walked again (R34, R415). -/
def State.relock (s : State) (l : Launch) : Load (List (Nat × TlbEntry × Option (List Nat))) :=
  (s.cartoonChecked l).bind fun c s =>
    let pages (d : Nat) : List Nat := (c.locks.filter (fun x => x.1 == d)).map (fun x => x.2)
    (s.lockPages l.ctx 0 (pages 0)).bind fun k0 s => (s.lockPages l.ctx 1 (pages 1)).bind fun k1 s => .ok (k0 ++ k1) s

/-- `RESUME` (R415, R459, R464): the claims and checks of R223, then the saved state. -/
def execResume (s : State) : Host.Outcome State Fault Refusal :=
  match s.event with
  | some (.resume q k) =>
    match s.packetAt q k with
    | none => .next s
    | some p =>
      match s.launches.find p.a0 with
      | none => .next (s.completePacket q k 0x0E 0 p.a0 0)
      | some l =>
        match l.saved with
        | none => .next (s.completePacket q k 0x0E 0 p.a0 0)
        | some sv =>
          if l.fault.isSome then .next (s.completePacket q k 0x0E 0 p.a0 0)
          else if p.a2 < l.area then .next (s.completePacket q k 0x01 0 p.a0 0)
          else match s.claimFault l with
          | some f => .next (s.completePacket q k f.1 0 p.a0 f.2)
          | none =>
            let l := if l.st == .suspended then { l with asked := (s.ck, q) } else l
            if !s.claimable p.a0 l then
              .next (({ s with launches := s.launches.put p.a0 { l with st := .claiming } } : State).after 1 (.resume q k))
            else match s.relock l with
            | .fail f s1 =>
              .next (({ s1 with launches := s1.launches.put p.a0 { l with st := .suspended } } : State).completePacket q k f.1 0 p.a0 f.2)
            | .later n s1 => .next (s1.after n (.resume q k))
            | .ok locked s1 => .next ((s1.switchIn p.a0 l sv locked).completePacket q k 0 0 p.a0 0)
  | _ => .next s

/-! ### Answers to tile faults (R411, R463) -/

/-- The fault that the fault registers of a tile report (R403). -/
def Tile.lastFault (x : Tile) : FaultInfo :=
  let c := x.r.h.cause
  { cause := bitsAt c 0 8, synd := bitsAt c 23 4, lvl := bitsAt c 27 2, kind := bitsAt c 29 3, num := bitsAt c 32 10,
    faddr := x.faddr, imp := bitsAt c 61 1 == 1, asy := bitsAt c 60 1 == 1 }

/-- The tiles of a launch that a fault stopped and that the host's answer applies to: those of domains frozen for service,
and those of no domain (R463). -/
def State.servedTiles (s : State) (lid : Nat) : List TileId :=
  (List.finRange 128).filter (fun t =>
    let x := s.tile t
    x.lid == some lid && x.wait == .stopped
      && (match s.domainOf t.val with
        | some (_, d) => d.service
        | none => true))

/-- `FAULT_ANSWER` (R411, R463): the frozen domains of the launch resume, or the launch ends. -/
def execFaultAnswer (s : State) : Host.Outcome State Fault Refusal :=
  match s.event with
  | some (.faultAnswer q k) =>
    match s.packetAt q k with
    | none => .next s
    | some p =>
      match s.launches.find p.a0 with
      | none => .next (s.completePacket q k 0x0E 0 p.a0 0)
      | some l =>
        let ts := s.servedTiles p.a0
        let x := s.queueAt l.home
        let s1 := s.setQueue l.home { x with unanswered := x.unanswered - ts.length }
        if p.a1 = 0 then
          let s2 := ts.foldl (fun u t => u.setTile t { u.tile t with wait := .none }) s1
          let s3 : State := { s2 with domains := s2.domains.map (fun d =>
            if d.2.lid == p.a0 && d.2.service then (d.1, { d.2 with frozen := false, service := false }) else d) }
          .next (s3.completePacket q k 0 0 p.a0 0)
        else
          let s2 := match ts with
            | t :: _ => s1.endOnFault p.a0 (.tile t) (s1.tile t).lastFault 1
            | [] => s1
          .next (s2.completePacket q k 0 0 p.a0 0)
  | _ => .next s

end Sys2Proof.Machine
end

