-- ==== Sys2Proof/Machine/Vector.lean ====
section
/-!
DEFINITION. Vector arithmetic, logic, permutes and compares (spec/10_vector_instructions.md R335 to R345): lanes and
elements, and one meaning for each instruction.
-/
namespace Sys2Proof.Machine

/-! ### Lanes and elements (R335, R336) -/

/-- `LaneOn` (R336): the guard selects lanes, and `lam` acts while some level is active. -/
def Hart.laneOn (h : Hart) (g : Guard) (i : Nat) : Bool :=
  let p := match g with
    | .pred k => (h.rp k).getLsbD i
    | .stage _ => true
  p && (activeLevels h.lv == 0 || h.lam.getLsbD i)

/-- A stage guard suppresses its instruction (R248). -/
def Hart.stageOff (h : Hart) : Guard → Bool
  | .pred _ => false
  | .stage n => !h.stg.getLsbD n.toNat

/-- The lane that enables element `e` of a width (R335). -/
def laneOfElem (w e : Nat) : Nat := if w = 16 then e / 2 else if w = 64 then 2 * e else e

/-- The elements of a width in one register (R335). -/
def elemCount (ag : Agent) (w : Nat) : Nat := 8 * vbOf ag / w

/-- The elements of a vector operand. -/
def State.velems (s : State) (ag : Agent) (w : Nat) (o : VOp) : List Nat := elemsOf w (elemCount ag w) (s.rv ag o).toNat

/-- The result that an instruction with U = 1 leaves in the reuse latch of its core slot: the tag of its A operand (R246). -/
def State.latchA (s : State) (u : Bool) (a : VOp) : State :=
  match s.cur with
  | .slot i =>
    if u then let x := s.slot i; s.setSlot i { x with h := { x.h with latch := some (x.h.tagOf a) } } else s
  | .tile _ => s

/-- A vector instruction: its latch, then its effect unless its stage guard suppresses it (R246, R248, R336). -/
def vector (g : Guard) (u : Bool) (a : VOp) (s : State) (k : State → State) : Host.Outcome State Fault Refusal :=
  let s1 := s.latchA u a
  .next ((if (s1.hart s1.cur).stageOff g then s1 else k s1).done s1.cur)

/-- The enabled elements of a destination written with their results, and their flags set (R336, R337). -/
def State.putElems (s : State) (g : Guard) (w : Nat) (d : VOp) (res : List (Nat × Nst)) : State :=
  let ag := s.cur
  let h := s.hart ag
  let old := s.velems ag w d
  let on (e : Nat) : Bool := h.laneOn g (laneOfElem w e)
  let new := old.mapIdx (fun e x => if on e then (res.getD e (x, 0)).1 else x)
  let fl := (List.range old.length).foldl (fun n e => if on e then n ||| (res.getD e (0, 0)).2 else n) (0 : Nst)
  (s.wv ag d (BitVec.ofNat 2048 (ofElems w new))).raise ag fl

/-- A result of one source for each element. -/
def State.map1 (s : State) (g : Guard) (w : Nat) (d a : VOp) (f : Nat → Nat × Nst) : State :=
  s.putElems g w d ((s.velems s.cur w a).map f)

/-- A result of two sources for each element. -/
def State.map2 (s : State) (g : Guard) (w : Nat) (d a b : VOp) (f : Nat → Nat → Nat × Nst) : State :=
  s.putElems g w d (List.zipWith f (s.velems s.cur w a) (s.velems s.cur w b))

/-- A result of two sources and the old destination for each element. -/
def State.map3 (s : State) (g : Guard) (w : Nat) (d a b : VOp) (f : Nat → Nat → Nat → Nat × Nst) : State :=
  let ab := List.zip (s.velems s.cur w a) (s.velems s.cur w b)
  s.putElems g w d (List.zipWith (fun x z => f x.1 x.2 z) ab (s.velems s.cur w d))

/-! ### Floating-point arithmetic (R340, R341) -/

/-- `vadd.f32 vd, va, vb` (R340, R341). -/
def execVaddF32 (g : Guard) (u : Bool) (d a b : VOp) (s : State) : Host.Outcome State Fault Refusal :=
  vector g u a s fun s => s.map2 g (Fmt.width .fp32) d a b (FBin.eval .add .fp32)

/-- `vsub.f32 vd, va, vb` (R340, R341). -/
def execVsubF32 (g : Guard) (u : Bool) (d a b : VOp) (s : State) : Host.Outcome State Fault Refusal :=
  vector g u a s fun s => s.map2 g (Fmt.width .fp32) d a b (FBin.eval .sub .fp32)

/-- `vmul.f32 vd, va, vb` (R340, R341). -/
def execVmulF32 (g : Guard) (u : Bool) (d a b : VOp) (s : State) : Host.Outcome State Fault Refusal :=
  vector g u a s fun s => s.map2 g (Fmt.width .fp32) d a b (FBin.eval .mul .fp32)

/-- `vmin.f32 vd, va, vb` (R340, R341). -/
def execVminF32 (g : Guard) (u : Bool) (d a b : VOp) (s : State) : Host.Outcome State Fault Refusal :=
  vector g u a s fun s => s.map2 g (Fmt.width .fp32) d a b (FBin.eval .min .fp32)

/-- `vmax.f32 vd, va, vb` (R340, R341). -/
def execVmaxF32 (g : Guard) (u : Bool) (d a b : VOp) (s : State) : Host.Outcome State Fault Refusal :=
  vector g u a s fun s => s.map2 g (Fmt.width .fp32) d a b (FBin.eval .max .fp32)

/-- `vdiv.f32 vd, va, vb` (R340, R341). -/
def execVdivF32 (g : Guard) (u : Bool) (d a b : VOp) (s : State) : Host.Outcome State Fault Refusal :=
  vector g u a s fun s => s.map2 g (Fmt.width .fp32) d a b (FBin.eval .div .fp32)

/-- `vfma.f32 vd, va, vb` (R340, R341). -/
def execVfmaF32 (g : Guard) (u : Bool) (d a b : VOp) (s : State) : Host.Outcome State Fault Refusal :=
  vector g u a s fun s => s.map3 g (Fmt.width .fp32) d a b (FTri.eval .fma .fp32)

/-- `vfms.f32 vd, va, vb` (R340, R341). -/
def execVfmsF32 (g : Guard) (u : Bool) (d a b : VOp) (s : State) : Host.Outcome State Fault Refusal :=
  vector g u a s fun s => s.map3 g (Fmt.width .fp32) d a b (FTri.eval .fms .fp32)

/-- `vfnma.f32 vd, va, vb` (R340, R341). -/
def execVfnmaF32 (g : Guard) (u : Bool) (d a b : VOp) (s : State) : Host.Outcome State Fault Refusal :=
  vector g u a s fun s => s.map3 g (Fmt.width .fp32) d a b (FTri.eval .fnma .fp32)

/-- `vabs.f32 vd, va` (R340, R341). -/
def execVabsF32 (g : Guard) (u : Bool) (d a : VOp) (s : State) : Host.Outcome State Fault Refusal :=
  vector g u a s fun s => s.map1 g (Fmt.width .fp32) d a (FUn.eval .abs .fp32)

/-- `vneg.f32 vd, va` (R340, R341). -/
def execVnegF32 (g : Guard) (u : Bool) (d a : VOp) (s : State) : Host.Outcome State Fault Refusal :=
  vector g u a s fun s => s.map1 g (Fmt.width .fp32) d a (FUn.eval .neg .fp32)

/-- `vsqrt.f32 vd, va` (R340, R341). -/
def execVsqrtF32 (g : Guard) (u : Bool) (d a : VOp) (s : State) : Host.Outcome State Fault Refusal :=
  vector g u a s fun s => s.map1 g (Fmt.width .fp32) d a (FUn.eval .sqrt .fp32)

/-- `vrsqrt.f32 vd, va` (R340, R341). -/
def execVrsqrtF32 (g : Guard) (u : Bool) (d a : VOp) (s : State) : Host.Outcome State Fault Refusal :=
  vector g u a s fun s => s.map1 g (Fmt.width .fp32) d a (FUn.eval .rsqrt .fp32)

/-- `vexp2.f32 vd, va` (R340, R341). -/
def execVexp2F32 (g : Guard) (u : Bool) (d a : VOp) (s : State) : Host.Outcome State Fault Refusal :=
  vector g u a s fun s => s.map1 g (Fmt.width .fp32) d a (FUn.eval .exp2 .fp32)

/-- `vlog2.f32 vd, va` (R340, R341). -/
def execVlog2F32 (g : Guard) (u : Bool) (d a : VOp) (s : State) : Host.Outcome State Fault Refusal :=
  vector g u a s fun s => s.map1 g (Fmt.width .fp32) d a (FUn.eval .log2 .fp32)

/-- `vadd.f16 vd, va, vb` (R340, R341). -/
def execVaddF16 (g : Guard) (u : Bool) (d a b : VOp) (s : State) : Host.Outcome State Fault Refusal :=
  vector g u a s fun s => s.map2 g (Fmt.width .fp16) d a b (FBin.eval .add .fp16)

/-- `vsub.f16 vd, va, vb` (R340, R341). -/
def execVsubF16 (g : Guard) (u : Bool) (d a b : VOp) (s : State) : Host.Outcome State Fault Refusal :=
  vector g u a s fun s => s.map2 g (Fmt.width .fp16) d a b (FBin.eval .sub .fp16)

/-- `vmul.f16 vd, va, vb` (R340, R341). -/
def execVmulF16 (g : Guard) (u : Bool) (d a b : VOp) (s : State) : Host.Outcome State Fault Refusal :=
  vector g u a s fun s => s.map2 g (Fmt.width .fp16) d a b (FBin.eval .mul .fp16)

/-- `vmin.f16 vd, va, vb` (R340, R341). -/
def execVminF16 (g : Guard) (u : Bool) (d a b : VOp) (s : State) : Host.Outcome State Fault Refusal :=
  vector g u a s fun s => s.map2 g (Fmt.width .fp16) d a b (FBin.eval .min .fp16)

/-- `vmax.f16 vd, va, vb` (R340, R341). -/
def execVmaxF16 (g : Guard) (u : Bool) (d a b : VOp) (s : State) : Host.Outcome State Fault Refusal :=
  vector g u a s fun s => s.map2 g (Fmt.width .fp16) d a b (FBin.eval .max .fp16)

/-- `vdiv.f16 vd, va, vb` (R340, R341). -/
def execVdivF16 (g : Guard) (u : Bool) (d a b : VOp) (s : State) : Host.Outcome State Fault Refusal :=
  vector g u a s fun s => s.map2 g (Fmt.width .fp16) d a b (FBin.eval .div .fp16)

/-- `vfma.f16 vd, va, vb` (R340, R341). -/
def execVfmaF16 (g : Guard) (u : Bool) (d a b : VOp) (s : State) : Host.Outcome State Fault Refusal :=
  vector g u a s fun s => s.map3 g (Fmt.width .fp16) d a b (FTri.eval .fma .fp16)

/-- `vfms.f16 vd, va, vb` (R340, R341). -/
def execVfmsF16 (g : Guard) (u : Bool) (d a b : VOp) (s : State) : Host.Outcome State Fault Refusal :=
  vector g u a s fun s => s.map3 g (Fmt.width .fp16) d a b (FTri.eval .fms .fp16)

/-- `vfnma.f16 vd, va, vb` (R340, R341). -/
def execVfnmaF16 (g : Guard) (u : Bool) (d a b : VOp) (s : State) : Host.Outcome State Fault Refusal :=
  vector g u a s fun s => s.map3 g (Fmt.width .fp16) d a b (FTri.eval .fnma .fp16)

/-- `vabs.f16 vd, va` (R340, R341). -/
def execVabsF16 (g : Guard) (u : Bool) (d a : VOp) (s : State) : Host.Outcome State Fault Refusal :=
  vector g u a s fun s => s.map1 g (Fmt.width .fp16) d a (FUn.eval .abs .fp16)

/-- `vneg.f16 vd, va` (R340, R341). -/
def execVnegF16 (g : Guard) (u : Bool) (d a : VOp) (s : State) : Host.Outcome State Fault Refusal :=
  vector g u a s fun s => s.map1 g (Fmt.width .fp16) d a (FUn.eval .neg .fp16)

/-- `vsqrt.f16 vd, va` (R340, R341). -/
def execVsqrtF16 (g : Guard) (u : Bool) (d a : VOp) (s : State) : Host.Outcome State Fault Refusal :=
  vector g u a s fun s => s.map1 g (Fmt.width .fp16) d a (FUn.eval .sqrt .fp16)

/-- `vrsqrt.f16 vd, va` (R340, R341). -/
def execVrsqrtF16 (g : Guard) (u : Bool) (d a : VOp) (s : State) : Host.Outcome State Fault Refusal :=
  vector g u a s fun s => s.map1 g (Fmt.width .fp16) d a (FUn.eval .rsqrt .fp16)

/-- `vexp2.f16 vd, va` (R340, R341). -/
def execVexp2F16 (g : Guard) (u : Bool) (d a : VOp) (s : State) : Host.Outcome State Fault Refusal :=
  vector g u a s fun s => s.map1 g (Fmt.width .fp16) d a (FUn.eval .exp2 .fp16)

/-- `vlog2.f16 vd, va` (R340, R341). -/
def execVlog2F16 (g : Guard) (u : Bool) (d a : VOp) (s : State) : Host.Outcome State Fault Refusal :=
  vector g u a s fun s => s.map1 g (Fmt.width .fp16) d a (FUn.eval .log2 .fp16)

/-- `vadd.bf16 vd, va, vb` (R340, R341). -/
def execVaddBf16 (g : Guard) (u : Bool) (d a b : VOp) (s : State) : Host.Outcome State Fault Refusal :=
  vector g u a s fun s => s.map2 g (Fmt.width .bf16) d a b (FBin.eval .add .bf16)

/-- `vsub.bf16 vd, va, vb` (R340, R341). -/
def execVsubBf16 (g : Guard) (u : Bool) (d a b : VOp) (s : State) : Host.Outcome State Fault Refusal :=
  vector g u a s fun s => s.map2 g (Fmt.width .bf16) d a b (FBin.eval .sub .bf16)

/-- `vmul.bf16 vd, va, vb` (R340, R341). -/
def execVmulBf16 (g : Guard) (u : Bool) (d a b : VOp) (s : State) : Host.Outcome State Fault Refusal :=
  vector g u a s fun s => s.map2 g (Fmt.width .bf16) d a b (FBin.eval .mul .bf16)

/-- `vmin.bf16 vd, va, vb` (R340, R341). -/
def execVminBf16 (g : Guard) (u : Bool) (d a b : VOp) (s : State) : Host.Outcome State Fault Refusal :=
  vector g u a s fun s => s.map2 g (Fmt.width .bf16) d a b (FBin.eval .min .bf16)

/-- `vmax.bf16 vd, va, vb` (R340, R341). -/
def execVmaxBf16 (g : Guard) (u : Bool) (d a b : VOp) (s : State) : Host.Outcome State Fault Refusal :=
  vector g u a s fun s => s.map2 g (Fmt.width .bf16) d a b (FBin.eval .max .bf16)

/-- `vdiv.bf16 vd, va, vb` (R340, R341). -/
def execVdivBf16 (g : Guard) (u : Bool) (d a b : VOp) (s : State) : Host.Outcome State Fault Refusal :=
  vector g u a s fun s => s.map2 g (Fmt.width .bf16) d a b (FBin.eval .div .bf16)

/-- `vfma.bf16 vd, va, vb` (R340, R341). -/
def execVfmaBf16 (g : Guard) (u : Bool) (d a b : VOp) (s : State) : Host.Outcome State Fault Refusal :=
  vector g u a s fun s => s.map3 g (Fmt.width .bf16) d a b (FTri.eval .fma .bf16)

/-- `vfms.bf16 vd, va, vb` (R340, R341). -/
def execVfmsBf16 (g : Guard) (u : Bool) (d a b : VOp) (s : State) : Host.Outcome State Fault Refusal :=
  vector g u a s fun s => s.map3 g (Fmt.width .bf16) d a b (FTri.eval .fms .bf16)

/-- `vfnma.bf16 vd, va, vb` (R340, R341). -/
def execVfnmaBf16 (g : Guard) (u : Bool) (d a b : VOp) (s : State) : Host.Outcome State Fault Refusal :=
  vector g u a s fun s => s.map3 g (Fmt.width .bf16) d a b (FTri.eval .fnma .bf16)

/-- `vabs.bf16 vd, va` (R340, R341). -/
def execVabsBf16 (g : Guard) (u : Bool) (d a : VOp) (s : State) : Host.Outcome State Fault Refusal :=
  vector g u a s fun s => s.map1 g (Fmt.width .bf16) d a (FUn.eval .abs .bf16)

/-- `vneg.bf16 vd, va` (R340, R341). -/
def execVnegBf16 (g : Guard) (u : Bool) (d a : VOp) (s : State) : Host.Outcome State Fault Refusal :=
  vector g u a s fun s => s.map1 g (Fmt.width .bf16) d a (FUn.eval .neg .bf16)

/-- `vsqrt.bf16 vd, va` (R340, R341). -/
def execVsqrtBf16 (g : Guard) (u : Bool) (d a : VOp) (s : State) : Host.Outcome State Fault Refusal :=
  vector g u a s fun s => s.map1 g (Fmt.width .bf16) d a (FUn.eval .sqrt .bf16)

/-- `vrsqrt.bf16 vd, va` (R340, R341). -/
def execVrsqrtBf16 (g : Guard) (u : Bool) (d a : VOp) (s : State) : Host.Outcome State Fault Refusal :=
  vector g u a s fun s => s.map1 g (Fmt.width .bf16) d a (FUn.eval .rsqrt .bf16)

/-- `vexp2.bf16 vd, va` (R340, R341). -/
def execVexp2Bf16 (g : Guard) (u : Bool) (d a : VOp) (s : State) : Host.Outcome State Fault Refusal :=
  vector g u a s fun s => s.map1 g (Fmt.width .bf16) d a (FUn.eval .exp2 .bf16)

/-- `vlog2.bf16 vd, va` (R340, R341). -/
def execVlog2Bf16 (g : Guard) (u : Bool) (d a : VOp) (s : State) : Host.Outcome State Fault Refusal :=
  vector g u a s fun s => s.map1 g (Fmt.width .bf16) d a (FUn.eval .log2 .bf16)

/-! ### Integer arithmetic (R342) -/

/-- A function of the integer vector arithmetic (R342). -/
inductive IBin where
  | add | sub | mul | minI | maxI | minN | maxN | shl | shrI | shrN
deriving DecidableEq, Repr

/-- The element result of an integer function on elements of `w` bits (R342). -/
def IBin.eval (op : IBin) (w a b : Nat) : Nat × Nst :=
  let r : Nat := match op with
    | .add => a + b
    | .sub => a + (2 ^ w - b % 2 ^ w)
    | .mul => a * b
    | .minI => if codeInt w b < codeInt w a then b else a
    | .maxI => if codeInt w a < codeInt w b then b else a
    | .minN => min a b
    | .maxN => max a b
    | .shl => a * 2 ^ (b % w)
    | .shrI => intCode w (codeInt w a / (2 ^ (b % w) : Nat))
    | .shrN => a / 2 ^ (b % w)
  (r % 2 ^ w, 0)

/-- The negative of an element. -/
def inegElem (w a : Nat) : Nat × Nst := ((2 ^ w - a % 2 ^ w) % 2 ^ w, 0)

/-- The magnitude of an element; the most negative value gives itself. -/
def iabsElem (w a : Nat) : Nat × Nst := if codeInt w a < 0 then inegElem w a else (a % 2 ^ w, 0)

/-- `vadd.i32 vd, va, vb` (R342). -/
def execVaddI32 (g : Guard) (u : Bool) (d a b : VOp) (s : State) : Host.Outcome State Fault Refusal :=
  vector g u a s fun s => s.map2 g 32 d a b (IBin.eval .add 32)

/-- `vsub.i32 vd, va, vb` (R342). -/
def execVsubI32 (g : Guard) (u : Bool) (d a b : VOp) (s : State) : Host.Outcome State Fault Refusal :=
  vector g u a s fun s => s.map2 g 32 d a b (IBin.eval .sub 32)

/-- `vmul.i32 vd, va, vb` (R342). -/
def execVmulI32 (g : Guard) (u : Bool) (d a b : VOp) (s : State) : Host.Outcome State Fault Refusal :=
  vector g u a s fun s => s.map2 g 32 d a b (IBin.eval .mul 32)

/-- `vmin.i32 vd, va, vb` (R342). -/
def execVminI32 (g : Guard) (u : Bool) (d a b : VOp) (s : State) : Host.Outcome State Fault Refusal :=
  vector g u a s fun s => s.map2 g 32 d a b (IBin.eval .minI 32)

/-- `vmax.i32 vd, va, vb` (R342). -/
def execVmaxI32 (g : Guard) (u : Bool) (d a b : VOp) (s : State) : Host.Outcome State Fault Refusal :=
  vector g u a s fun s => s.map2 g 32 d a b (IBin.eval .maxI 32)

/-- `vmin.n32 vd, va, vb` (R342). -/
def execVminN32 (g : Guard) (u : Bool) (d a b : VOp) (s : State) : Host.Outcome State Fault Refusal :=
  vector g u a s fun s => s.map2 g 32 d a b (IBin.eval .minN 32)

/-- `vmax.n32 vd, va, vb` (R342). -/
def execVmaxN32 (g : Guard) (u : Bool) (d a b : VOp) (s : State) : Host.Outcome State Fault Refusal :=
  vector g u a s fun s => s.map2 g 32 d a b (IBin.eval .maxN 32)

/-- `vshl.i32 vd, va, vb` (R342). -/
def execVshlI32 (g : Guard) (u : Bool) (d a b : VOp) (s : State) : Host.Outcome State Fault Refusal :=
  vector g u a s fun s => s.map2 g 32 d a b (IBin.eval .shl 32)

/-- `vshr.i32 vd, va, vb` (R342). -/
def execVshrI32 (g : Guard) (u : Bool) (d a b : VOp) (s : State) : Host.Outcome State Fault Refusal :=
  vector g u a s fun s => s.map2 g 32 d a b (IBin.eval .shrI 32)

/-- `vshr.n32 vd, va, vb` (R342). -/
def execVshrN32 (g : Guard) (u : Bool) (d a b : VOp) (s : State) : Host.Outcome State Fault Refusal :=
  vector g u a s fun s => s.map2 g 32 d a b (IBin.eval .shrN 32)

/-- `vabs.i32 vd, va` (R342). -/
def execVabsI32 (g : Guard) (u : Bool) (d a : VOp) (s : State) : Host.Outcome State Fault Refusal :=
  vector g u a s fun s => s.map1 g 32 d a (iabsElem 32)

/-- `vneg.i32 vd, va` (R342). -/
def execVnegI32 (g : Guard) (u : Bool) (d a : VOp) (s : State) : Host.Outcome State Fault Refusal :=
  vector g u a s fun s => s.map1 g 32 d a (inegElem 32)

/-- `vadd.i64 vd, va, vb` (R342). -/
def execVaddI64 (g : Guard) (u : Bool) (d a b : VOp) (s : State) : Host.Outcome State Fault Refusal :=
  vector g u a s fun s => s.map2 g 64 d a b (IBin.eval .add 64)

/-- `vsub.i64 vd, va, vb` (R342). -/
def execVsubI64 (g : Guard) (u : Bool) (d a b : VOp) (s : State) : Host.Outcome State Fault Refusal :=
  vector g u a s fun s => s.map2 g 64 d a b (IBin.eval .sub 64)

/-- `vmul.i64 vd, va, vb` (R342). -/
def execVmulI64 (g : Guard) (u : Bool) (d a b : VOp) (s : State) : Host.Outcome State Fault Refusal :=
  vector g u a s fun s => s.map2 g 64 d a b (IBin.eval .mul 64)

/-- `vmin.i64 vd, va, vb` (R342). -/
def execVminI64 (g : Guard) (u : Bool) (d a b : VOp) (s : State) : Host.Outcome State Fault Refusal :=
  vector g u a s fun s => s.map2 g 64 d a b (IBin.eval .minI 64)

/-- `vmax.i64 vd, va, vb` (R342). -/
def execVmaxI64 (g : Guard) (u : Bool) (d a b : VOp) (s : State) : Host.Outcome State Fault Refusal :=
  vector g u a s fun s => s.map2 g 64 d a b (IBin.eval .maxI 64)

/-- `vmin.n64 vd, va, vb` (R342). -/
def execVminN64 (g : Guard) (u : Bool) (d a b : VOp) (s : State) : Host.Outcome State Fault Refusal :=
  vector g u a s fun s => s.map2 g 64 d a b (IBin.eval .minN 64)

/-- `vmax.n64 vd, va, vb` (R342). -/
def execVmaxN64 (g : Guard) (u : Bool) (d a b : VOp) (s : State) : Host.Outcome State Fault Refusal :=
  vector g u a s fun s => s.map2 g 64 d a b (IBin.eval .maxN 64)

/-- `vshl.i64 vd, va, vb` (R342). -/
def execVshlI64 (g : Guard) (u : Bool) (d a b : VOp) (s : State) : Host.Outcome State Fault Refusal :=
  vector g u a s fun s => s.map2 g 64 d a b (IBin.eval .shl 64)

/-- `vshr.i64 vd, va, vb` (R342). -/
def execVshrI64 (g : Guard) (u : Bool) (d a b : VOp) (s : State) : Host.Outcome State Fault Refusal :=
  vector g u a s fun s => s.map2 g 64 d a b (IBin.eval .shrI 64)

/-- `vshr.n64 vd, va, vb` (R342). -/
def execVshrN64 (g : Guard) (u : Bool) (d a b : VOp) (s : State) : Host.Outcome State Fault Refusal :=
  vector g u a s fun s => s.map2 g 64 d a b (IBin.eval .shrN 64)

/-- `vabs.i64 vd, va` (R342). -/
def execVabsI64 (g : Guard) (u : Bool) (d a : VOp) (s : State) : Host.Outcome State Fault Refusal :=
  vector g u a s fun s => s.map1 g 64 d a (iabsElem 64)

/-- `vneg.i64 vd, va` (R342). -/
def execVnegI64 (g : Guard) (u : Bool) (d a : VOp) (s : State) : Host.Outcome State Fault Refusal :=
  vector g u a s fun s => s.map1 g 64 d a (inegElem 64)

/-! ### Logic and permutes (R343, R344) -/

/-- `vand vd, va, vb` (R343). -/
def execVand (g : Guard) (u : Bool) (d a b : VOp) (s : State) : Host.Outcome State Fault Refusal :=
  vector g u a s fun s => s.map2 g 32 d a b (fun x y => (x &&& y, 0))

/-- `vor vd, va, vb` (R343). -/
def execVor (g : Guard) (u : Bool) (d a b : VOp) (s : State) : Host.Outcome State Fault Refusal :=
  vector g u a s fun s => s.map2 g 32 d a b (fun x y => (x ||| y, 0))

/-- `vxor vd, va, vb` (R343). -/
def execVxor (g : Guard) (u : Bool) (d a b : VOp) (s : State) : Host.Outcome State Fault Refusal :=
  vector g u a s fun s => s.map2 g 32 d a b (fun x y => (x ^^^ y, 0))

/-- `vnot vd, va` (R343). -/
def execVnot (g : Guard) (u : Bool) (d a : VOp) (s : State) : Host.Outcome State Fault Refusal :=
  vector g u a s fun s => s.map1 g 32 d a (fun x => (2 ^ 32 - 1 - x, 0))

/-- `vmov vd, va` (R343). -/
def execVmov (g : Guard) (u : Bool) (d a : VOp) (s : State) : Host.Outcome State Fault Refusal :=
  vector g u a s fun s => s.map1 g 32 d a (fun x => (x, 0))

/-- `vperm vd, va, vb` (R343): every source lane is read, whatever the enables. -/
def execVperm (g : Guard) (u : Bool) (d a b : VOp) (s : State) : Host.Outcome State Fault Refusal :=
  vector g u a s fun s =>
    let l := lanesOf s.cur
    let as := s.velems s.cur 32 a
    s.putElems g 32 d ((s.velems s.cur 32 b).map (fun k => (as.getD (k % l) 0, 0)))

/-- `vshuf vd, va, vb` (R343): the old `vd` is a source. -/
def execVshuf (g : Guard) (u : Bool) (d a b : VOp) (s : State) : Host.Outcome State Fault Refusal :=
  vector g u a s fun s =>
    let l := lanesOf s.cur
    let both := s.velems s.cur 32 a ++ s.velems s.cur 32 d
    s.putElems g 32 d ((s.velems s.cur 32 b).map (fun k => (both.getD (k % (2 * l)) 0, 0)))

/-- `vbcast vd, ga` (R343). -/
def execVbcast (g : Guard) (d : VOp) (a : Reg) (s : State) : Host.Outcome State Fault Refusal :=
  vector g false d s fun s => s.putElems g 32 d (List.replicate (lanesOf s.cur) (bitsAt (s.g a) 0 32, 0))

/-- `vsel vd, va, vb, pk` (R344): `lam` still applies. -/
def execVsel (u : Bool) (d a b : VOp) (k : PReg) (s : State) : Host.Outcome State Fault Refusal :=
  vector (.pred 0) u a s fun s =>
    let p := (s.hart s.cur).rp k
    let ab := List.zip (s.velems s.cur 32 a) (s.velems s.cur 32 b)
    s.putElems (.pred 0) 32 d (ab.mapIdx (fun i x => (if p.getLsbD i then x.1 else x.2, 0)))

/-! ### Compare (R345) -/

/-- The width of a type (R251, R335). -/
def vtypeBits : VType → Nat
  | .f32 | .i32 | .n32 => 32
  | .f16 | .bf16 => 16
  | .i64 | .n64 => 64

/-- The floating-point format of a type. -/
def vtypeFmt : VType → Option Fmt
  | .f32 => some .fp32
  | .f16 => some .fp16
  | .bf16 => some .bf16
  | _ => none

/-- The type is signed. -/
def vtypeSigned : VType → Bool
  | .i32 | .i64 => true
  | _ => false

/-- A comparison of integers (R345). -/
def intCompare (cc : Cc) (x y : Int) : Bool :=
  match cc with
  | .eq => decide (x = y)
  | .ne => decide (x ≠ y)
  | .lt => decide (x < y)
  | .ge => decide (y ≤ x)
  | .gt => decide (y < x)
  | .le => decide (x ≤ y)
  | _ => false

/-- The result of an element (R345). -/
def vcompare (cc : Cc) (t : VType) (x y : Nat) : Bool :=
  match vtypeFmt t with
  | some f => fpCompare cc (f.decode x) (f.decode y)
  | none =>
    if vtypeSigned t then intCompare cc (codeInt (vtypeBits t) x) (codeInt (vtypeBits t) y)
    else intCompare cc (x : Int) (y : Int)

/-- Bit `i` of the predicate from the results of the elements (R345). -/
def compareBit (w : Nat) (r : List Bool) (i : Nat) : Bool :=
  if w = 16 then r.getD (2 * i) false && r.getD (2 * i + 1) false
  else if w = 64 then r.getD (i / 2) false else r.getD i false

/-- `vcmp.cc.t pd, va, vb` (R345): bits of disabled lanes, and bits L to 63, keep their values. -/
def execVcmp (g : Guard) (cc : Cc) (t : VType) (u : Bool) (pd : PReg) (a b : VOp) (s : State) :
    Host.Outcome State Fault Refusal :=
  vector g u a s fun s =>
    let h := s.hart s.cur
    let w := vtypeBits t
    let r := List.zipWith (vcompare cc t) (s.velems s.cur w a) (s.velems s.cur w b)
    let p := (List.range (lanesOf s.cur)).foldl (fun (p : Word) i =>
      if h.laneOn g i then (if compareBit w r i then p ||| (1#64 <<< i) else p &&& ~~~(1#64 <<< i)) else p) (h.rp pd)
    s.setHart s.cur (h.wp pd p)

end Sys2Proof.Machine
end

