-- ==== Sys2Proof/Machine/Reduce.lean ====
section
/-!
DEFINITION. Vector reductions, scan, histogram and flip (spec/10_vector_instructions.md R346 to R349).
-/
namespace Sys2Proof.Machine

/-- What a reduction combines with (R346). -/
inductive RedOp where
  | sum | max | min
deriving DecidableEq, Repr

/-- The elements of a register, absent where their lanes are off (R346). -/
def State.present (s : State) (g : Guard) (w : Nat) (a : VOp) : List (Option Nat) :=
  let h := s.hart s.cur
  (s.velems s.cur w a).mapIdx (fun e x => if h.laneOn g (laneOfElem w e) then some x else none)

/-- A floating-point code of a type widened exactly to FP32 (R346). -/
def widenFp (f : Fmt) (x : Nat) : Nat := if f = .fp32 then x else (Fmt.fp32.result (f.decode x) 0).1

/-- A node of a reduction (R346). -/
def redNode (op : RedOp) (t : VType) (x y : Nat) : Nat × Nst :=
  match vtypeFmt t with
  | some _ =>
    (match op with
      | .sum => fadd .fp32 x y
      | .max => fminmax .fp32 true x y
      | .min => fminmax .fp32 false x y)
  | none =>
    let w := vtypeBits t
    let less (p q : Nat) : Bool := if vtypeSigned t then decide (codeInt w p < codeInt w q) else decide (p < q)
    (match op with
      | .sum => (x + y) % 2 ^ w
      | .max => if less x y then y else x
      | .min => if less y x then y else x, 0)

/-- The result of a reduction without an element (R346). -/
def redEmpty (op : RedOp) (t : VType) : Nat :=
  let w := vtypeBits t
  match op, vtypeFmt t with
  | .sum, _ => 0
  | .max, some _ => 0xFF800000
  | .min, some _ => 0x7F800000
  | .max, none => if vtypeSigned t then 2 ^ (w - 1) else 0
  | .min, none => if vtypeSigned t then 2 ^ (w - 1) - 1 else 2 ^ w - 1

/-- A code of a format, a NaN as its canonical NaN (R104, R337). -/
def canonical (f : Fmt) (x : Nat) : Nat := if (f.decode x).isNan then f.nanCode else x

/-- The 64-bit result in `gd` (R346). -/
def redWord (t : VType) (x : Nat) : Word :=
  match t with
  | .i32 => sext64 32 x
  | _ => BitVec.ofNat 64 x

/-- A reduction into a `g` register, over the fixed tree of R346. -/
def redInto (op : RedOp) (g : Guard) (t : VType) (u : Bool) (d : Reg) (a : VOp) (s : State) :
    Host.Outcome State Fault Refusal :=
  vector g u a s fun s =>
    let xs := s.present g (vtypeBits t) a
    let xs' := match vtypeFmt t with
      | some f => xs.map (fun x => x.map (widenFp f))
      | none => xs
    let r := treeReduce (redNode op t) 8 xs'
    let v := match r.1 with
      | some x => if (vtypeFmt t).isSome then canonical .fp32 x else x
      | none => redEmpty op t
    (s.wg s.cur d (redWord t v)).raise s.cur r.2

/-- `vredsum.t gd, va` (R346). -/
def execVredsum (g : Guard) (t : VType) (u : Bool) (d : Reg) (a : VOp) (s : State) : Host.Outcome State Fault Refusal :=
  redInto .sum g t u d a s

/-- `vredmax.t gd, va` (R346). -/
def execVredmax (g : Guard) (t : VType) (u : Bool) (d : Reg) (a : VOp) (s : State) : Host.Outcome State Fault Refusal :=
  redInto .max g t u d a s

/-- `vredmin.t gd, va` (R346). -/
def execVredmin (g : Guard) (t : VType) (u : Bool) (d : Reg) (a : VOp) (s : State) : Host.Outcome State Fault Refusal :=
  redInto .min g t u d a s

/-- Prefix sums in element order; an absent element is not counted (R347). -/
def scanFrom (add : Nat → Nat → Nat × Nst) (fix : Nat → Nat) : Option Nat → List (Option Nat) → List (Nat × Nst)
  | _, [] => []
  | acc, none :: t => (0, 0) :: scanFrom add fix acc t
  | none, some x :: t => (fix x, 0) :: scanFrom add fix (some (fix x)) t
  | some z, some x :: t => let r := add z x; r :: scanFrom add fix (some r.1) t

/-- `vscan.t vd, va` (R347): 16-bit types are scanned and rounded in their own format. -/
def execVscan (g : Guard) (t : VType) (u : Bool) (d a : VOp) (s : State) : Host.Outcome State Fault Refusal :=
  vector g u a s fun s =>
    let w := vtypeBits t
    let add (x y : Nat) : Nat × Nst := match vtypeFmt t with
      | some f => fadd f x y
      | none => ((x + y) % 2 ^ w, 0)
    let fix (x : Nat) : Nat := match vtypeFmt t with
      | some f => canonical f x
      | none => x
    s.putElems g w d (scanFrom add fix none (s.present g w a))

/-- `vhist vd, va` (R348): the enables govern the lanes of `va`, and every lane of `vd` is written. -/
def execVhist (g : Guard) (u : Bool) (d a : VOp) (s : State) : Host.Outcome State Fault Refusal :=
  vector g u a s fun s =>
    let xs := s.present g 32 a
    let new := (s.velems s.cur 32 d).mapIdx (fun b x => x + (xs.filter (fun y => y == some b)).length)
    s.wv s.cur d (BitVec.ofNat 2048 (ofElems 32 new))

/-- The key of a floating-point code of `w` bits (R349). -/
def flipKey (w x : Nat) : Nat := if 2 ^ (w - 1) ≤ x then 2 ^ w - 1 - x else x + 2 ^ (w - 1)

/-- `vflip.t vd, va` (R349). -/
def execVflip (g : Guard) (t : VType) (u : Bool) (d a : VOp) (s : State) : Host.Outcome State Fault Refusal :=
  vector g u a s fun s => s.map1 g (vtypeBits t) d a (fun x => (flipKey (vtypeBits t) x, 0))

end Sys2Proof.Machine
end

