-- ==== Sys2Proof/Machine/VectorMem.lean ====
section
/-!
DEFINITION. Vector memory access (spec/10_vector_instructions.md R350 to R353).
-/
namespace Sys2Proof.Machine

/-- The lanes of 32 bits that are enabled. -/
def State.lanesOn (s : State) (g : Guard) : List Bool :=
  (List.range (lanesOf s.cur)).map ((s.hart s.cur).laneOn g)

/-- The 32-bit lanes of a register as masked bytes. -/
def maskedBytes (x : VWord) (on : List Bool) : List (Option Byte) :=
  on.zipIdx.flatMap (fun p => (bytesOfNat 4 (elemAt x 32 p.2)).map (fun b => if p.1 then some b else none))

/-- A vector memory instruction: suppressed by its stage guard, without effect when no element is enabled, or its effect
(R248, R350). -/
def vectorMem (g : Guard) (some' : Bool) (s : State) (r : Res State) : Host.Outcome State Fault Refusal :=
  if (s.hart s.cur).stageOff g || !some' then .next (s.done s.cur)
  else match r with
  | .ok u t => .next (if sameRun s u s.cur then u.done s.cur else let _ := t; u)
  | .fault f t => .next (t.raiseFault s.cur f)
  | .wait w t => .next (t.park s.cur w)
  | .stop f => .fault f

/-! ### `vld` and `vst` (R350) -/

/-- The address of a VM operand: `ga` + VB × OFF10 (R350). -/
def vmAddr (ag : Agent) (base : Word) (off : BitVec 10) : Nat := (base + BitVec.ofNat 64 (vbOf ag) * off.signExtend 64).toNat

/-- The bytes of the enabled 32-bit lanes, as offset and length. -/
def wantedLanes (on : List Bool) : List (Nat × Nat) := (on.zipIdx.filter (fun p => p.1)).map (fun p => (4 * p.2, 4))

/-- The fault of a vector access names its first failing element, the first that is enabled where the whole access fails (R352,
R405). -/
def Res.atLane {α : Type} (r : Res α) (on : List Bool) : Res α :=
  match r with
  | .fault f s => .fault { f with faddr := f.faddr + 4 * on.findIdx id } s
  | r => r

/-- The aligned bytes of a vector read by either profile; only enabled lanes are read and consume a mark (R350, R353). -/
def State.vload (s : State) (va : Nat) (on : List Bool) : Res (List Byte) :=
  match s.cur with
  | .slot i => ((s.aimed i va 64 .read).atLane on).bind fun d s => s.readWanted i d va 64 .again (wantedLanes on)
  | .tile t =>
    ((s.tileAim t va 256 .read).atLane on).bind fun off s =>
      match (on.zipIdx.filter (fun p => p.1 && s.tmMarked t (off + 4 * p.2) 4)).head? with
      | some p => .fault { cause := 0x13, kind := 1, faddr := va + 4 * p.2 } s
      | none => .ok (s.tm t off 256) s

/-- `vld vd, [ga+off]` (R350). -/
def execVld (g : Guard) (d : VOp) (a : Reg) (off : BitVec 10) (s : State) : Host.Outcome State Fault Refusal :=
  let va := vmAddr s.cur (s.g a) off
  let on := s.lanesOn g
  let r : Res State := match misaligned va (vbOf s.cur) .read with
    | some f => .fault f s
    | none => (s.vload va on).bind fun b s => .ok (s.putElems g 32 d ((elemsOf 32 (lanesOf s.cur) (natOfBytes b)).map (fun x => (x, 0)))) s
  vectorMem g (on.any id) s r

/-- `vst [ga+off], vd` (R350): one access with a byte mask. -/
def execVst (g : Guard) (d : VOp) (a : Reg) (off : BitVec 10) (s : State) : Host.Outcome State Fault Refusal :=
  let va := vmAddr s.cur (s.g a) off
  let on := s.lanesOn g
  let bytes := maskedBytes (s.rv s.cur d) on
  let r : Res State := match misaligned va (vbOf s.cur) .write with
    | some f => .fault f s
    | none =>
      match s.cur with
      | .slot i => ((s.aimed i va 64 .write).atLane on).bind fun t s => (s.writeAt i t va bytes .again).bind fun _ s => .ok s s
      | .tile t => ((s.tileAim t va 256 .write).atLane on).bind fun o s => let u := s.tmWrite t o bytes; .ok u u
  vectorMem g (on.any id) s r

/-! ### Indexed and broadcast accesses (R351, R352) -/

/-- The bytes of an element. -/
def eszBytes : Esz → Nat
  | .i8 => 1 | .i16 => 2 | .i32 => 4 | .i64 => 8

/-- The elements of an indexed access that are enabled, with their addresses (R351). -/
def State.indexed (s : State) (g : Guard) (e : Esz) (base : Word) (b : VOp) : List (Nat × Nat) :=
  let h := s.hart s.cur
  let idx := s.velems s.cur 32 b
  let n := eszBytes e
  let lane (k : Nat) : Nat := if n = 8 then 2 * k else k
  ((List.range (if n = 8 then lanesOf s.cur / 2 else lanesOf s.cur)).filter (fun k => h.laneOn g (lane k))).map
    (fun k => (k, (base + BitVec.ofNat 64 (idx.getD (lane k) 0) * BitVec.ofNat 64 n).toNat))

/-- The checks of one element: its destination, or what stops it. A tile's element lies in its own memory (R18, R352). -/
def State.aimElem (s : State) (va n : Nat) (kind : Kind) : Res Dest :=
  match misaligned va n kind with
  | some f => .fault f s
  | none =>
    match s.cur with
    | .slot i => s.aimed i va n kind
    | .tile t => (s.tileCheck t va n kind).bind fun off s => .ok ⟨.ownTile, tileBase t + off, none, false⟩ s

/-- Every element checked in increasing order, before any is accessed (R352). -/
def State.aimEach (s : State) (n : Nat) (kind : Kind) : List (Nat × Nat) → Res (List (Nat × Nat × Dest))
  | [] => .ok [] s
  | (k, va) :: t =>
    (s.aimElem va n kind).bind fun d s => (s.aimEach n kind t).bind fun r s => .ok ((k, va, d) :: r) s

/-- The same, with a tile's banks: elements of one 256-byte line are one access (R352, R69). -/
def State.aimAll (s : State) (n : Nat) (kind : Kind) (l : List (Nat × Nat)) : Res (List (Nat × Nat × Dest)) :=
  (s.aimEach n kind l).bind fun r s =>
    match s.cur with
    | .slot _ => .ok r s
    | .tile t => (s.tileTurns t (once (r.map (fun x => (x.2.2.pa - tileBase t) / 256)))).bind fun _ s => .ok r s

/-- The elements read, one after another. -/
def State.readElems (s : State) (n : Nat) : List (Nat × Nat × Dest) → Res (List (Nat × Nat))
  | [] => .ok [] s
  | (k, va, d) :: t =>
    let one : Res (List Byte) := match s.cur with
      | .slot i => s.readAt i d va n .again
      | .tile _ => if s.marked d.pa n then .fault { cause := 0x13, kind := 1, faddr := va } s else .ok (s.read d.pa n) s
    one.bind fun b s => (s.readElems n t).bind fun r s => .ok ((k, natOfBytes b) :: r) s

/-- An element as its register holds it: sign-extended to 32 bits, or 64 bits (R351). -/
def elemValue (n x : Nat) : Nat := if n = 8 then x else intCode 32 (codeInt (8 * n) x)

/-- The results of the elements of a load by their places, the others absent from the list's enables. -/
def placeElems (count : Nat) (l : List (Nat × Nat)) : List (Nat × Nst) :=
  (List.range count).map (fun k => (((l.find? (fun p => p.1 == k)).map (fun p => p.2)).getD 0, 0))

/-- `vldx.e vd, [ga], vb` (R351, R352). -/
def execVldx (g : Guard) (e : Esz) (d : VOp) (a : Reg) (b : VOp) (s : State) : Host.Outcome State Fault Refusal :=
  let n := eszBytes e
  let es := s.indexed g e (s.g a) b
  let w := if n = 8 then 64 else 32
  let r : Res State := (s.aimAll n .read es).bind fun ds s => (s.readElems n ds).bind fun xs s =>
    .ok (s.putElems g w d (placeElems (elemCount s.cur w) (xs.map (fun p => (p.1, elemValue n p.2))))) s
  vectorMem g (!es.isEmpty) s r

/-- The masked bytes that the elements of one 64-byte block write; the higher-numbered element's bytes win (R352). -/
def blockBytes (n block : Nat) (vals : List (Nat × Nat × Nat)) : List (Option Byte) :=
  let hit (p : Nat) : Option Byte :=
    (vals.reverse.find? (fun v => decide (v.2.1 ≤ p) && decide (p < v.2.1 + n))).map
      (fun v => BitVec.ofNat 8 (v.2.2 / 2 ^ (8 * (p - v.2.1))))
  (List.range 64).map (fun j => hit (block * 64 + j))

/-- The blocks that a list of elements touches, in order of their first element. -/
def blockList (l : List (Nat × Nat × Dest)) : List (Nat × Dest) :=
  l.foldl (fun (acc : List (Nat × Dest)) x =>
    if acc.any (fun y => y.1 == x.2.2.pa / 64) then acc else acc ++ [(x.2.2.pa / 64, x.2.2)]) []

/-- The first element whose place refuses it, if any (R77, R70). -/
def State.refusedElem (s : State) (i : SlotId) (n : Nat) (l : List (Nat × Nat × Dest)) : Option (Nat × Dest) :=
  (l.find? (fun x => s.answer (.agent (.slot i)) x.2.2 n true != .serve || s.portBusy x.2.2 n)).map (fun x => (x.2.1, x.2.2))

/-- The accesses of one instruction take all their banks of this ck, or lose (R62). -/
def State.takeAll (s : State) (who : Requester) (l : List (Nat × Nat)) : Bool × State :=
  let r := l.foldl (fun (a : Bool × State) x => let b := a.2.takeBanks who x.1 x.2; (a.1 && b.1, b.2)) (true, s)
  if r.1 then r else (false, { s with bankWaits := r.2.bankWaits })

/-- The blocks of a store buffered by a speculative task, all of them or none (R175, R185). -/
def State.bufferBlocks (s : State) (i : SlotId) : List (Nat × List (Option Byte) × Option PageTag) → Res Unit
  | [] => .ok () s
  | (pa, bytes, page) :: t => (s.bufferOp i (.store pa bytes page)).bind fun _ u => u.bufferBlocks i t

/-- An indexed store whose elements are checked (R352). -/
def State.storeElems (s : State) (n : Nat) (ds : List (Nat × Nat × Dest)) (vals : List (Nat × Nat)) : Res State :=
  let vs := ds.map (fun x => (x.1, x.2.2.pa, ((vals.find? (fun p => p.1 == x.1)).map (fun p => p.2)).getD 0))
  let blocks := blockList ds
  match s.cur with
  | .tile t =>
    let u := blocks.foldl (fun u b => u.tmWrite t (b.1 * 64 - tileBase t) (blockBytes n b.1 vs)) s
    .ok u u
  | .slot i =>
    if ds.any (fun x => x.2.2.place == .device) then
      (ds.foldl (fun (r : Res Unit) x => r.bind fun _ u =>
        u.writeAt i x.2.2 x.2.1 (((bytesOfNat n (((vals.find? (fun p => p.1 == x.1)).map (fun p => p.2)).getD 0))).map some) .again)
        (.ok () s)).bind fun _ u => .ok u u
    else if (s.slot i).speculative then
      match s.bufferBlocks i (blocks.map (fun b => (b.1 * 64, blockBytes n b.1 vs, b.2.page))) with
      | .ok _ u => .ok u u
      | .wait w _ => .wait w s
      | .fault f u => .fault f u
      | .stop f => .stop f
    else match s.refusedElem i n ds with
    | some (va, d) => (s.reach i d va n true .again).bind fun _ u => .wait .bank u
    | none =>
      let r := s.takeAll (.agent (.slot i)) (blocks.map (fun b => (b.1 * 64, 64)))
      if !r.1 then .wait .bank r.2
      else
        let u := blocks.foldl (fun u b =>
          (u.closeReq (.agent (.slot i)) (b.1 * 64)).placeWrite (b.1 * 64) (blockBytes n b.1 vs) (some i)) r.2
        .ok u u

/-- `vstx.e [ga], vb, vd` (R351, R352). -/
def execVstx (g : Guard) (e : Esz) (d : VOp) (a : Reg) (b : VOp) (s : State) : Host.Outcome State Fault Refusal :=
  let n := eszBytes e
  let es := s.indexed g e (s.g a) b
  let xs := s.velems s.cur (if n = 8 then 64 else 32) d
  let r : Res State := (s.aimAll n .write es).bind fun ds s => s.storeElems n ds (es.map (fun p => (p.1, xs.getD p.1 0)))
  vectorMem g (!es.isEmpty) s r

/-- `vldb.e vd, [ga]` (R351): one source element for every lane. -/
def execVldb (g : Guard) (e : Esz) (d : VOp) (a : Reg) (s : State) : Host.Outcome State Fault Refusal :=
  let n := eszBytes e
  let va := (s.g a).toNat
  let w := if n = 8 then 64 else 32
  let h := s.hart s.cur
  let any := (List.range (elemCount s.cur w)).any (fun k => h.laneOn g (laneOfElem w k))
  let r : Res State := (s.aimAll n .read [(0, va)]).bind fun ds s => (s.readElems n ds).bind fun xs s =>
    let v := elemValue n ((xs.head?.map (fun p => p.2)).getD 0)
    .ok (s.putElems g w d (List.replicate (elemCount s.cur w) (v, 0))) s
  vectorMem g any s r

end Sys2Proof.Machine
end

