-- ==== Sys2Proof/Machine/Convert.lean ====
section
/-!
DEFINITION. Vector conversions, quantisation and dequantisation (spec/10_vector_instructions.md R354 to R358;
spec/03_number_formats.md R109 to R123).
-/
namespace Sys2Proof.Machine

/-- Packed elements of a width written at the places of their source lanes; the others keep their contents (R335, R354). -/
def State.putPacked (s : State) (g : Guard) (w : Nat) (d : VOp) (codes : List Nat) : State :=
  let h := s.hart s.cur
  let new := (s.velems s.cur w d).mapIdx (fun e x => if h.laneOn g e then codes.getD e x else x)
  s.wv s.cur d (BitVec.ofNat 2048 (ofElems w new))

/-- The flags of the enabled lanes (R336). -/
def State.laneFlags (s : State) (g : Guard) (fl : List Nst) : Nst :=
  let h := s.hart s.cur
  (fl.mapIdx (fun i n => if h.laneOn g i then n else 0)).foldl (fun a n => a ||| n) (0 : Nst)

/-- A register of a group: the operand `k` after another of its class (R252). -/
def vopAdd (o : VOp) (k : Nat) : VOp := ⟨o.q, o.n + BitVec.ofNat 5 k⟩

/-! ### Narrowing conversions (R354, R119) -/

/-- The target of a narrowing conversion: its width, and the code, the flags and the value of a conversion (R106, R114). -/
inductive NarrowTo where
  | fp (f : Fmt) (sat : Bool)
  | int (w : Nat)
deriving DecidableEq, Repr

/-- The width of a target. -/
def NarrowTo.width : NarrowTo → Nat
  | .fp f _ => f.width
  | .int w => w

/-- A value converted to a target (R106, R114). -/
def NarrowTo.convert (t : NarrowTo) (r : Rnd) (x : Fp) : Nat × Nst × Fp :=
  match t with
  | .fp f sat => let c := f.convert r sat x; (c.code, c.nst, f.decode c.code)
  | .int w => let c := fpToInt w r x; (intCode w c.1, c.2, .fin (decide (c.1 < 0)) c.1.natAbs 0)

/-- What x + res rounds to, and the flags of R119. -/
def residued (x res : Nat) : Nat × Nst := let r := addResidue x res; (r.1, r.2 &&& (nstNX ||| nstUF ||| nstOF))

/-- A narrowing conversion (R354): codes at their packed places, and with `.ef` the new residues. -/
def narrow (t : NarrowTo) (g : Guard) (r : Rnd) (d a : VOp) (c : BitVec 4) (s : State) : Host.Outcome State Fault Refusal :=
  vector g false a s fun s =>
    let ef := decide (r = .ef)
    let ro : VOp := ⟨0#1, residueReg c⟩
    let xs := s.velems s.cur 32 a
    let rs := s.velems s.cur 32 ro
    let ys : List (Nat × Nst) := if ef then List.zipWith residued xs rs else xs.map (fun x => (x, 0))
    let zs := ys.map (fun y => t.convert r (Fmt.fp32.decode y.1))
    let s1 := s.putPacked g t.width d (zs.map (fun z => z.1))
    let s2 := if ef then s1.putElems g 32 ro (List.zipWith (fun y z => (newResidue y.1 z.2.2, 0)) ys zs) else s1
    s2.raise s.cur (s.laneFlags g (List.zipWith (fun y z => y.2 ||| z.2.1) ys zs))

/-- `vcvt.to.f32.rnd[.sat]` of major 0x2F (R354). -/
def execVcvtNarrowFp (g : Guard) (tgt : NarrowFp) (rnd : Rnd) (sat : Bool) (d a : VOp) (c : BitVec 4) (s : State) :
    Host.Outcome State Fault Refusal :=
  let f : Fmt := match tgt with
    | .f16 => .fp16 | .bf16 => .bf16 | .e4m3 => .e4m3 | .e5m2 => .e5m2
  narrow (.fp f sat) g rnd d a c s

/-- `vcvt.to.f32.rnd[.sat]` of major 0x30 (R354); SAT is the choice of its E2M1 target (R114). -/
def execVcvtNarrowInt (g : Guard) (tgt : NarrowInt) (rnd : Rnd) (sat : Bool) (d a : VOp) (c : BitVec 4) (s : State) :
    Host.Outcome State Fault Refusal :=
  let t : NarrowTo := match tgt with
    | .e2m1 => .fp .e2m1 sat | .i8 => .int 8 | .i16 => .int 16 | .i32 => .int 32
  narrow t g rnd d a c s

/-! ### Widening conversions (R355) -/

/-- The source width of a widening conversion (R251). -/
def WidenFrom_width : WidenFrom → Nat
  | .f16 | .bf16 | .i16 => 16
  | .e4m3 | .e5m2 | .i8 => 8
  | .e2m1 => 4
  | .i32 => 32

/-- A code widened to FP32 (R355). -/
def widen (fr : WidenFrom) (r : Rnd) (x : Nat) : Nat × Nst :=
  let fp (f : Fmt) : Nat × Nst := ((Fmt.fp32.result (f.decode x) 0).1, 0)
  match fr with
  | .f16 => fp .fp16
  | .bf16 => fp .bf16
  | .e4m3 => fp .e4m3
  | .e5m2 => fp .e5m2
  | .e2m1 => fp .e2m1
  | .i8 => ((intToFp32 .rne (codeInt 8 x) 0).1, 0)
  | .i16 => ((intToFp32 .rne (codeInt 16 x) 0).1, 0)
  | .i32 => let z := intToFp32 r (codeInt 32 x) 0; (z.1, z.2 &&& nstNX)

/-- `vcvt.f32.from.rnd vd, va` (R355). -/
def execVcvtWiden (g : Guard) (fr : WidenFrom) (rnd : Rnd) (d a : VOp) (s : State) : Host.Outcome State Fault Refusal :=
  vector g false a s fun s =>
    let xs := elemsOf (WidenFrom_width fr) (lanesOf s.cur) (s.rv s.cur a).toNat
    s.putElems g 32 d (xs.map (widen fr rnd))

/-! ### FX128 (R356, R121, R123) -/

/-- Half of the lanes' contributions in one register of a pair (R356). -/
def State.putHalf (s : State) (on : List Bool) (d : VOp) (first : Nat) (cs : List Nat) : State :=
  let new := (s.velems s.cur 64 d).mapIdx (fun k x => if on.getD (first + k) false then cs.getD (first + k) x else x)
  s.wv s.cur d (BitVec.ofNat 2048 (ofElems 64 new))

/-- `vcvt.fx.fx128.f32.rnd vd, va` (R356). -/
def execVcvtFxToFx128 (g : Guard) (rnd : Rnd) (d a : VOp) (s : State) : Host.Outcome State Fault Refusal :=
  vector g false a s fun s =>
    let on := s.lanesOn g
    let rs := (s.velems s.cur 32 a).map (fun x => fpToFx rnd (Fmt.fp32.decode x))
    let cs := rs.map (fun r => intCode 64 r.1)
    let s1 := (s.putHalf on d 0 cs).putHalf on (vopAdd d 1) (lanesOf s.cur / 2) cs
    s1.raise s.cur (s.laneFlags g (rs.map (fun r => r.2.1)))

/-- `vcvt.fx.f32.fx128 vd, va` (R356). -/
def execVcvtFxFromFx128 (g : Guard) (d a : VOp) (s : State) : Host.Outcome State Fault Refusal :=
  vector g false a s fun s =>
    let q := lanesOf s.cur / 4
    let xs := (List.range 4).flatMap (fun k => elemsOf 128 q (s.rv s.cur (vopAdd a k)).toNat)
    s.putElems g 32 d (xs.map (fun x => let z := intToFp32 .rne (codeInt 128 x) (-32); (z.1, z.2 &&& nstNX)))

/-! ### MX blocks (R357, R358) -/

/-- The registers of an instruction's FP32 group (R252). -/
def groupSize (ag : Agent) (b : Blk) : Nat := max 1 (4 * blkLen b / vbOf ag)

/-- The FP32 values of a group of registers, in register and lane order. -/
def State.groupElems (s : State) (o : VOp) (k : Nat) : List Nat :=
  (List.range k).flatMap (fun j => s.velems s.cur 32 (vopAdd o j))

/-- One block of a quantisation: its codes and scale bytes, its flags, and the new residues; none where every lane is
disabled (R357). -/
structure QBlock where
  codes : List Byte
  scale : List Byte
  nst : Nst
  res : List Nat

/-- A block quantised (R111, R119, R357): values, residues and enables of its lanes. -/
def quantBlock (b : Blk) (r : Rnd) (xs rs : List Nat) (on : List Bool) : Option QBlock :=
  if !on.any id then none
  else
    let ef := decide (r = .ef)
    let ys : List (Nat × Nst) := xs.mapIdx (fun i x =>
      if !on.getD i false then (0, 0) else if ef then residued x (rs.getD i 0) else (x, 0))
    let z := quantMx b r (ys.map (fun y => Fmt.fp32.decode y.1))
    let k := z.1
    let res := rs.mapIdx (fun i o =>
      if !on.getD i false then o
      else if k.scale = 0xFF then 0
      else newResidue (ys.getD i (0, 0)).1 (blkValue b k.scale k.extra (k.codes.getD i 0)))
    some {
      codes := packCodes (blkBits b) k.codes
      scale := if blkScaleBytes b = 2 then [BitVec.ofNat 8 k.scale, BitVec.ofNat 8 k.extra] else [BitVec.ofNat 8 k.scale]
      nst := ys.foldl (fun n y => n ||| y.2) z.2.1
      res := res }

/-- Bytes laid over bytes from an offset. -/
def overBytes (old new : List Byte) (off : Nat) : List Byte :=
  old.mapIdx (fun j x => if off ≤ j then new.getD (j - off) x else x)

/-- The registers of a group written from FP32 values in register and lane order. -/
def State.putGroup (s : State) (o : VOp) (vals : List Nat) : Nat → State
  | 0 => s
  | k + 1 =>
    let l := lanesOf s.cur
    (s.putGroup o vals k).wv s.cur (vopAdd o k) (BitVec.ofNat 2048 (ofElems 32 ((vals.drop (k * l)).take l)))

/-- `vq.mx.blk.rnd vd, va, gc` (R357). -/
def execVqMx (g : Guard) (blk : Blk) (rnd : Rnd) (d : VReg) (a : VOp) (c : Reg) (s : State) : Host.Outcome State Fault Refusal :=
  vector g false a s fun s =>
    let k := groupSize s.cur blk
    let n := blkLen blk
    let xs := s.groupElems a k
    let rs := if rnd = .ef then s.groupElems (vopAdd a k) k else xs.map (fun _ => 0)
    let lanes := s.lanesOn g
    let on := (List.range xs.length).map (fun j => lanes.getD (j % lanesOf s.cur) false)
    let blocks := (List.range (xs.length / n)).map (fun j =>
      quantBlock blk rnd ((xs.drop (j * n)).take n) ((rs.drop (j * n)).take n) ((on.drop (j * n)).take n))
    let old := bytesOfNat (vbOf s.cur) (s.rv s.cur ⟨0#1, d⟩).toNat
    let codes := blocks.zipIdx.foldl (fun l p => match p.1 with
      | some q => overBytes l q.codes (p.2 * blkCodeBytes blk)
      | none => l) old
    let oldSc := bytesOfNat 8 (s.g c).toNat
    let size := blkScaleBytes blk
    let sc := blocks.zipIdx.flatMap (fun p => match p.1 with
      | some q => q.scale
      | none => (oldSc.drop (p.2 * size)).take size)
    let res := blocks.zipIdx.flatMap (fun p => match p.1 with
      | some q => q.res
      | none => (rs.drop (p.2 * n)).take n)
    let fl := blocks.foldl (fun m q => match q with
      | some z => m ||| z.nst
      | none => m) (0 : Nst)
    let s1 := (s.wv s.cur ⟨0#1, d⟩ (BitVec.ofNat 2048 (natOfBytes codes))).wg s.cur c (BitVec.ofNat 64 (natOfBytes sc))
    let s2 := if rnd = .ef then s1.putGroup (vopAdd a k) res k else s1
    s2.raise s.cur fl

/-- The values of one block's codes with its scale entry (R109). -/
def dequantBlock (b : Blk) (codes : List Nat) (entry : Nat) : List Fp :=
  codes.map (blkValue b (entry % 256) (entry / 256 % 256))

/-- `vdq.mx.blk vd, va, gc` (R358). -/
def execVdqMx (g : Guard) (blk : Blk) (d : VOp) (a : VReg) (c : Reg) (s : State) : Host.Outcome State Fault Refusal :=
  vector g false ⟨0#1, a⟩ s fun s =>
    let k := groupSize s.cur blk
    let n := blkLen blk
    let l := lanesOf s.cur
    let nb := k * l / n
    let size := blkScaleBytes blk
    let codes := elemsOf (blkBits blk) (nb * n) (s.rv s.cur ⟨0#1, a⟩).toNat
    let vals := (List.range nb).flatMap (fun j =>
      dequantBlock blk ((codes.drop (j * n)).take n) ((s.g c).toNat / 2 ^ (8 * size * j) % 2 ^ (8 * size)))
    let rs := vals.map (fun v => Fmt.fp32.result v 0)
    (List.range k).foldl (fun u j => u.putElems g 32 (vopAdd d j) ((rs.drop (j * l)).take l)) s

end Sys2Proof.Machine
end

