-- ==== Sys2Proof/Machine/Tiles.lean ====
section
/-!
DEFINITION. Instructions of a tile beside its loads, stores and vector operations (spec/11_tensor_and_timed.md R364 to
R392, R399, R401): templates, tensor operations, drains, row masks, barriers, votes, domain state, the tap, time-triggered
issue and window records.
-/
namespace Sys2Proof.Machine

/-! ### Places and waits of a tile (R361, R363, R365) -/

/-- The column and the row of a tile in its die (R93, R375). -/
def tileCol (t : Nat) : Nat := t % 64 / 8
/-- The row of a tile. -/
def tileRow (t : Nat) : Nat := t % 8

/-- The range of the tile's own memory at an offset lies in it, and a write stays off its code region (R18, R264, R365). -/
def State.rangeFault (s : State) (t : TileId) (off n : Nat) (kind : Kind) : Option FaultInfo :=
  if n = 0 then none
  else if s.tileSize t.val < off + n then some (tfault 0x0B 7 0 kind off)
  else if kind.writes && decide (off < (s.tile t).tclen) then some { cause := 0x07, kind := kind.num, faddr := off }
  else none

/-- The first fault of a list of ranges with their kinds. -/
def State.rangesFault (s : State) (t : TileId) (l : List (Nat × Nat × Kind)) : Option FaultInfo :=
  l.findSome? (fun r => s.rangeFault t r.1 r.2.1 r.2.2)

/-- An operand range of the tile's own memory: its checks, then the wait of R363. -/
def State.ownRange (s : State) (t : TileId) (off n : Nat) (kind : Kind) : Res Unit :=
  match s.rangeFault t off n kind with
  | some f => .fault f s
  | none =>
    match (s.tile t).busy off n kind.writes with
    | some hold => .wait (.stall hold) s
    | none => .ok () (s.useBanks t off n)

/-- The wait of an engine operation for lines that landings, receive spans and collectives still write, or that sends and
timed writes still read (R363; log 36). -/
def Tile.engineBusy (x : Tile) (f : Foot) : Option Hold :=
  let pend (r : Nat × Nat) : Bool := x.lands.any (fun l => linesMeet r (l.off, 256))
    || x.recvs.any (fun v => linesMeet r (v.off + 64 * v.fin, 64 * (v.words - v.fin)))
    || x.xreds.any (fun v => !v.fin && v.wr.any (linesMeet r))
  let reads (r : Nat × Nat) : Bool := x.sends.any (fun v => linesMeet r (v.off + 64 * v.fin, 64 * (v.words - v.fin)))
    || x.writes.any (fun l => !l.gone && linesMeet r (l.off, 256))
  if f.rd.any pend || f.wr.any pend then some .always else if f.wr.any reads then some .never else none

/-- A wait, if there is one. -/
def waitOn (s : State) (h : Option Hold) : Res Unit :=
  match h with
  | some h => .wait (.stall h) s
  | none => .ok () s

/-- A 32-byte descriptor in the tile's own memory, read at issue (R365). -/
def State.descriptor (s : State) (t : TileId) (va : Nat) : Res (Vector Word 4) :=
  let off := tileOperand va
  if off % 32 != 0 then .fault { cause := 0x05, kind := 1, faddr := va } s
  else (s.ownRange t off 32 .read).bind fun _ s =>
    if s.tmMarked t off 32 then .fault { cause := 0x13, kind := 1, faddr := va } s
    else
      let g (k : Nat) : Word := BitVec.ofNat 64 (s.tmNat t (off + 8 * k) 8)
      .ok #v[g 0, g 1, g 2, g 3] s

/-- The barrier domain of the issuing tile; a tile without one takes a barrier-domain fault (R389; log 37). -/
def onDomain (s : State) (t : TileId) (k : Nat → Domain → Host.Outcome State Fault Refusal) :
    Host.Outcome State Fault Refusal :=
  match s.domainOf t.val with
  | some (d, x) => k d x
  | none => .next (s.raiseFault s.cur { cause := 0x14 })

/-- An illegal-instruction fault at the executing instruction. -/
def illegal (s : State) : Host.Outcome State Fault Refusal := .next (s.raiseFault s.cur { cause := 0x01 })

/-- A misaligned-access fault at the executing instruction. -/
def misalignedAt (s : State) (va : Nat) (kind : Kind) : Host.Outcome State Fault Refusal :=
  .next (s.raiseFault s.cur { cause := 0x05, kind := kind.num, faddr := va })

/-! ### Templates and tensor operations (R258, R259, R366, R375, R376) -/

/-- Template `idx` of a tile (R256). -/
def Tile.tmplAt (x : Tile) (idx : Nat) : BitVec 256 := (x.r.tmpl.find idx).getD 0

/-- `tload idx, [ga+off]` (R258). -/
def execTload (idx : BitVec 6) (a : Reg) (off : BitVec 15) (s : State) : Host.Outcome State Fault Refusal :=
  onTile s fun t =>
    let va := (s.g a + 32#64 * off.signExtend 64).toNat
    if va % 32 != 0 then misalignedAt s va .read
    else finish s s.cur ((s.tileAim t va 32 .read).bind fun o s =>
      if s.tmMarked t o 32 then .fault { cause := 0x13, kind := 1, faddr := va } s
      else
        let x := s.tile t
        .ok () (s.setTile t { x with r := { x.r with tmpl := x.r.tmpl.put idx.toNat (BitVec.ofNat 256 (s.tmNat t o 32)) } }))

/-- Gang operations that are on their way to the queue of a tile (R375). -/
def State.gangsDue (s : State) (t : TileId) : Nat :=
  ((s.agenda ++ s.timers.map (fun p => p.2)).filter (fun e =>
    match e with
    | .gangQueueEntry u mask _ => u.val / 64 == t.val / 64 && tileRow u.val == tileRow t.val && mask / 2 ^ tileCol t.val % 2 == 1
    | _ => false)).length

/-- The matrix-array queue of a tile takes no more (R366). -/
def State.queueFull (s : State) (t : TileId) : Bool := decide (4 ≤ (s.tile t).queue.length + s.gangsDue t)

/-- `tx idx, sel, val` (R259, R366). -/
def execTx (idx : BitVec 6) (sel : BitVec 4) (val : BitVec 16) (s : State) : Host.Outcome State Fault Refusal :=
  onTile s fun t =>
    if sel = 0 ∧ val ≠ 0 then illegal s
    else
      let T := amend ((s.tile t).tmplAt idx.toNat) sel.toNat val.toNat
      match s.tmplFault t T with
      | some f => .next (s.raiseFault s.cur f)
      | none =>
        finish s s.cur ((waitOn s ((s.tile t).engineBusy (footTmpl T 0 (tN T)))).bind fun _ s =>
          if s.queueFull t then .wait (.stall .exchange) s else .ok () (s.enqueue t (.tmpl T none)))

/-- The tiles that a gang mask names, lowest column first (R375). -/
def gangOf (t : TileId) (mask : Nat) : List TileId :=
  ((List.range 8).filter (fun c => mask / 2 ^ c % 2 == 1)).map (fun c => Fin.ofNat 128 (t.val / 64 * 64 + c * 8 + tileRow t.val))

/-- A gang operation on its way counts among the operations of its issuer, unless it has no columns there (R363, R376). -/
def State.issueGang (s : State) (t : TileId) (gang : List TileId) (T : BitVec 256) : State :=
  let x := s.tile t
  let g := some (gang.idxOf t, gang.length)
  let c := colsOf T g
  if c.1 = c.2 ∧ tOPC T ≤ 2 then s
  else s.setTile t { x with gangs := x.gangs ++ [TKind.op (.tmpl T g) x.seq], seq := x.seq + 1 }

/-- `tgang idx, sel, ga` (R259, R375). -/
def execTgang (idx : BitVec 6) (sel : BitVec 4) (a : Reg) (s : State) : Host.Outcome State Fault Refusal :=
  onTile s fun t =>
    let v := s.g a
    let val := bitsAt v 0 16
    let mask := bitsAt v 16 8
    if bitsAt v 24 40 != 0 || (sel == 0 && val != 0) || mask / 2 ^ tileCol t.val % 2 == 0 then illegal s
    else
      let T := amend ((s.tile t).tmplAt idx.toNat) sel.toNat val
      match s.tmplFault t T with
      | some f => .next (s.raiseFault s.cur f)
      | none =>
        let gang := gangOf t mask
        onDomain s t fun _ x =>
          if gang.any (fun u => !x.member u.val) then .next (s.raiseFault s.cur { cause := 0x14 })
          else
            let foot (r : Nat) : Foot := let c := colsOf T (some (r, gang.length)); footTmpl T c.1 c.2
            let wait := (gang.zipIdx).findSome? (fun p => (s.tile p.1).engineBusy (foot p.2))
            finish s s.cur ((waitOn s wait).bind fun _ s =>
              if gang.any s.queueFull then .wait (.stall .exchange) s
              else .ok () ((s.issueGang t gang T).after 4 (.gangQueueEntry t mask T)))

/-- `GANG_QUEUE_ENTRY` (R375, R376): the operation enters every member's queue; a member without columns does nothing. -/
def execGangQueueEntry (s : State) : Host.Outcome State Fault Refusal :=
  match s.event with
  | some (.gangQueueEntry t mask T) =>
    let gang := gangOf t mask
    .next ((gang.zipIdx).foldl (fun (u : State) p =>
      let g := some (p.2, gang.length)
      let c := colsOf T g
      if c.1 = c.2 ∧ tOPC T ≤ 2 then u
      else if p.1 = t then
        (match (u.tile t).gangs with
          | o :: rest => (u.setTile t { u.tile t with gangs := rest }).join t o
          | [] => u)
      else u.enqueue p.1 (.tmpl T g)) s)
  | _ => .next s

/-- The running operation of a tile completes one ck later. -/
def State.delayOp (s : State) (t : TileId) : State :=
  let x := s.tile t
  s.setTile t { x with queue := match x.queue with
    | o :: rest => { o with left := o.left.map (· + 1) } :: rest
    | [] => [] }

/-- `MATRIX_OP_COMPLETE` (R366, R370, R371): the running operation takes effect, and the next one starts; its writes wait for a
drain that has still to read one of their lines (R378). A data error that cannot be confined faults the tile. -/
def execMatrixOpComplete (s : State) : Host.Outcome State Fault Refusal :=
  match s.event with
  | some (.matrixOpComplete t) =>
    match (s.tile t).queue with
    | [] => .next s
    | o :: _ =>
      if o.left != some s.ck then .next s
      else if (s.tile t).drainBars o then .next ((s.delayOp t).after 1 (.matrixOpComplete t))
      else
        let pop (u : State) : State := (u.setTile t { u.tile t with queue := (u.tile t).queue.drop 1 }).startOp t
        match (s.withOperands t o).runOp t o.kind with
        | .ok u => .next (pop (u.sinceOperands s t o))
        | .dataError u =>
          let v := pop (u.sinceOperands s t o)
          .next (v.tileFault t { cause := 0x13, imp := true } (v.tile t).h.pc)
  | _ => .next s

/-! ### `tdrain` (R377, R378) -/

/-- The place that the first operand of a `tdrain` names: its core and palette offset, or a fault (R10, R14, R47, R377). Of a
palette that no running launch holds, the order of R377 comes before the cause of R16 (log 113). -/
def State.drainAim (s : State) (t : TileId) (va n swo : Nat) : Except FaultInfo (CoreId × Nat) :=
  let off := va % 2 ^ 48
  if 2 ^ 55 ≤ va then .error (tfault 0x0A 1 0 .write va)
  else if !(inWindow va && decide (0x10000000 ≤ off) && decide (off < 0x20000000)) then .error (tfault 0x0B 7 0 .write va)
  else
    let c : CoreId := Fin.ofNat 1024 ((off - 0x10000000) / 0x40000)
    let o := off % 0x40000
    let part := (s.core c).part
    let claimed := (((s.tile t).lid.bind s.launches.find).map (fun l => l.hasCluster (c.val / 8))).getD false
    if !s.clusterPresent (c.val / 8) || !claimed then .error (tfault 0x0A 7 0 .write va)
    else if !partV part || decide (o < partACCB part) || decide (partSCRB part < o + n) then
      .error { cause := 0x06, kind := 2, faddr := va }
    else if swo != 0 && (decide (swo < partSCRB part) || decide (0x40000 < swo + 16)) then
      .error { cause := 0x06, kind := 2, faddr := va }
    else .ok (c, o)

/-- `tdrain ga, gb` (R377, R378). -/
def execTdrain (a b : Reg) (s : State) : Host.Outcome State Fault Refusal :=
  onTile s fun t =>
    let va := (s.g a).toNat
    let w := s.g b
    let accl := bitsAt w 20 11
    let nl := bitsAt w 8 12
    let swo := 16 * bitsAt w 50 14
    if bitsAt w 31 19 != 0 || bitsAt w 0 8 != 0 || nl == 0 || decide (2048 < accl + nl) then illegal s
    else if va % 256 != 0 then misalignedAt s va .write
    else match s.drainAim t va (256 * nl) swo with
    | .error f => .next (s.raiseFault s.cur f)
    | .ok (c, off) =>
      let x := s.tile t
      if 1024 < (x.drains.map (fun d => d.nl)).foldl (· + ·) nl then .next (s.raiseFault s.cur { cause := 0x14 })
      else if clmapChg (s.clmapAt (c.val / 8)) then .next (s.park s.cur (.stall .always))
      else
        let d : Drain := { core := c, off := off, acc := accl, nl := nl, swo := swo, seq := x.seq, got := [], put := 0 }
        .next ((s.setTile t { x with drains := x.drains ++ [d], seq := x.seq + 1 }).done s.cur)

/-! ### `tred` (R379) -/

/-- The fields of a `tred` descriptor lie in their limits, alignment apart (R379). -/
def tredOk (w : Vector Word 4) : Bool :=
  let nl := bitsAt w[0] 25 12
  bitsAt w[0] 0 25 == 0 && bitsAt w[1] 0 32 == 0 && bitsAt w[3] 0 32 == 0 && bitsAt w[0] 60 2 != 3
    && nl != 0 && decide (bitsAt w[0] 37 11 + nl ≤ 2048) && nl % (bitsAt w[0] 48 6 + 1) == 0 && bitsAt w[3] 32 32 != 0

/-- A field or the source of a `tred` that misses its alignment (R379). -/
def tredMisaligned (w : Vector Word 4) (src : Nat) : Option Nat :=
  [(src, 256), (bitsAt w[1] 32 32, 256), (bitsAt w[2] 32 32, 8), (bitsAt w[2] 0 32, 8), (bitsAt w[3] 32 32, 8)].findSome?
    (fun p => if p.1 % p.2 != 0 then some p.1 else none)

/-- `tred ga, gb` (R379, R380). -/
def execTred (a b : Reg) (s : State) : Host.Outcome State Fault Refusal :=
  onTile s fun t =>
    finish s s.cur ((s.descriptor t (s.g a).toNat).bind fun w s =>
      let src := tileOperand (s.g b).toNat
      if !tredOk w then .fault { cause := 0x01 } s
      else match tredMisaligned w src with
      | some o => .fault { cause := 0x05, kind := 1, faddr := o } s
      | none =>
        match s.footFault t (footRed w src) with
        | some f => .fault f s
        | none =>
          (waitOn s ((s.tile t).engineBusy (footRed w src))).bind fun _ s =>
            if s.queueFull t then .wait (.stall .exchange) s else .ok () (s.enqueue t (.red w src)))

/-! ### Row masks (R381) -/

/-- The row-mask word that a `prow` instruction names: its offset and its value. -/
def State.maskWord (s : State) (t : TileId) (va : Nat) (kind : Kind) : Res (Nat × Word) :=
  let off := tileOperand va
  if off % 8 != 0 then .fault { cause := 0x05, kind := kind.num, faddr := va } s
  else (s.ownRange t off 8 kind).bind fun _ s =>
    if s.tmMarked t off 8 then .fault { cause := 0x13, kind := kind.num, faddr := va } s
    else .ok (off, BitVec.ofNat 64 (s.tmNat t off 8)) s

/-- `prow.get gd, ga` (R381). -/
def execProwGet (d a : Reg) (s : State) : Host.Outcome State Fault Refusal :=
  onTile s fun t => finishG s s.cur d ((s.maskWord t (s.g a).toNat .read).bind fun p s => .ok p.2 s)

/-- `prow.set ga, gb` (R381). -/
def execProwSet (a b : Reg) (s : State) : Host.Outcome State Fault Refusal :=
  onTile s fun t => finish s s.cur ((s.maskWord t (s.g a).toNat .write).bind fun p s =>
    let v := p.2 ||| s.g b
    let s1 := s.tmStore t p.1 (bytesOfNat 8 v.toNat)
    .ok () (if v = p.2 then s1 else s1.raise s.cur nstPZ))

/-- `prow.clr ga, gb` (R381). -/
def execProwClr (a b : Reg) (s : State) : Host.Outcome State Fault Refusal :=
  onTile s fun t => finish s s.cur ((s.maskWord t (s.g a).toNat .write).bind fun p s =>
    .ok () (s.tmStore t p.1 (bytesOfNat 8 (p.2 &&& ~~~(s.g b)).toNat)))

/-! ### Barriers, votes and domain state (R389 to R391) -/

/-- Every earlier operation of the tile has completed (R389): a drain when its lines have been read, a send in the ck in which its
last word leaves. -/
def State.enginesDone (s : State) (t : TileId) : Bool :=
  let x := s.tile t
  x.ops.isEmpty && s.gangsDue t == 0 && x.drains.all (fun d => d.got.length == d.nl) && x.lands.isEmpty && x.writes.isEmpty
    && x.sends.all (fun v => v.fin == v.words && decide (v.start + v.words ≤ x.so + 1)) && x.recvs.all (fun v => v.fin == v.words) && x.xreds.all (fun v => v.fin)

/-- `xsync` (R389): the arrival, once every engine is done; on several packages it takes effect at the phase offset equal
to the sequencer offset (R446). -/
def execXsync (s : State) : Host.Outcome State Fault Refusal :=
  onTile s fun t =>
    onDomain s t fun d x =>
      if !s.enginesDone t then .next (s.park s.cur (.stall .never))
      else
        let s1 := s.park s.cur (.barrier d x.step)
        if x.xpkg then let y := s1.tile t; .next (s1.setTile t { y with arrive := some y.so })
        else .next (s1.setDomain d { x with arrived := insertNat t.val x.arrived })

/-- `xvote gd, ga` (R390). -/
def execXvote (d a : Reg) (s : State) : Host.Outcome State Fault Refusal :=
  onTile s fun t =>
    let v := s.g a
    if bitsAt v 4 60 != 0 then illegal s
    else onDomain s t fun _ x =>
      let y := s.tile t
      let s1 := s.setTile t { y with r := { y.r with voted := true, vote := BitVec.ofNat 4 v.toNat } }
      .next ((s1.wg s.cur d (BitVec.ofNat 64 x.pattern)).done s.cur)

/-- The timetable of the launch of a domain (R231). -/
def State.timetable (s : State) (x : Domain) : List Word := ((s.launches.find x.lid).map (fun l => l.timetable)).getD []

/-- XE (R360): 64 after the last span of a member in the pattern of the phase, or 0 without one. -/
def State.exchangeEnd (s : State) (x : Domain) : Nat :=
  let es := (s.timetable x).filter (fun e => xtV e && xtPAT e == x.pattern && x.member (xtTILE e))
  if es.isEmpty then 0 else 64 + es.foldl (fun m e => max m (xtOFF e + xtLEN e)) 0

/-- The value of a selector of `xdom` (R391). -/
def State.domainWord (s : State) (t : TileId) (d : Nat) (x : Domain) (sel : Nat) : Nat :=
  let y := s.tile t
  match sel with
  | 0 => d + bitNat x.pent 8 + bitNat x.strict 9 + bitNat x.xpkg 10
  | 1 => x.step
  | 2 => y.so
  | 3 => x.pattern
  | 4 => s.exchangeEnd x
  | 5 => x.heldCk
  | _ => bitNat y.r.late 0 + bitNat y.r.voted 1 + bitNat y.thr 2 + y.r.vote.toNat * 2 ^ 4

/-- `xdom gd, ga` (R391). -/
def execXdom (d a : Reg) (s : State) : Host.Outcome State Fault Refusal :=
  onTile s fun t =>
    let v := s.g a
    let sel := bitsAt v 0 4
    if bitsAt v 5 59 != 0 || decide (6 < sel) || (bitsAt v 4 1 == 1 && sel != 6) then illegal s
    else onDomain s t fun k x =>
      let r := s.domainWord t k x sel
      let s1 := if bitsAt v 4 1 = 1 then let y := s.tile t; s.setTile t { y with thr := false, r := { y.r with late := false } } else s
      .next ((s1.wg s.cur d (BitVec.ofNat 64 r)).done s.cur)

/-! ### The tap (R392) -/

/-- `xmux ga` (R392, R446): the tap changes from the next ck of the phase clock on. -/
def execXmux (a : Reg) (s : State) : Host.Outcome State Fault Refusal :=
  onTile s fun t =>
    let v := s.g a
    if bitsAt v 8 56 != 0 then illegal s
    else onDomain s t fun _ x =>
      let src := bitsAt v 0 7
      let tap := if bitsAt v 7 1 = 1 then none else some src
      if tap.isSome && !x.member src then .next (s.raiseFault s.cur { cause := 0x14 })
      else
        let y := s.tile t
        let y1 := if x.xpkg then { y with taps := y.taps ++ [(y.so, tap)] } else { y with r := { y.r with tap := tap } }
        .next ((s.setTile t y1).done s.cur)

/-! ### Time-triggered issue (R399, R400) -/

/-- The clock that an `xarm.at` names: domain time, or the tile's offset in its superstep (R399, R446). -/
def State.armClock (s : State) (t : TileId) (phase : Bool) : Nat := if phase then (s.tile t).so else s.time

/-- STRICT of the domain of a tile. -/
def State.strictAt (s : State) (t : TileId) : Bool := ((s.domainOf t.val).map (fun p => p.2.strict)).getD false

/-- `xarm.at ga, gb` (R399, R400). -/
def execXarmAt (a b : Reg) (s : State) : Host.Outcome State Fault Refusal :=
  onTile s fun t =>
    let T := (s.g a).toNat
    let v := s.g b
    if bitsAt v 1 63 != 0 then illegal s
    else
      let phase := v.getLsbD 0
      let late := decide (T < s.armClock t phase)
      if late && s.strictAt t then .next (s.raiseFault s.cur { cause := 0x10 })
      else
        let x := s.tile t
        .next ((s.setTile t { x with armed := some (phase, T), r := { x.r with late := x.r.late || late } }).done s.cur)

/-- `ARMED_ISSUE` (R400): the armed instruction issues in this ck, or issues late, or faults. -/
def execArmedIssue (s : State) : Host.Outcome State Fault Refusal :=
  match s.event with
  | some (.armedIssue t) =>
    let x := s.tile t
    match x.armed with
    | none => .next s
    | some (phase, T) =>
      let s1 := s.setTile t { x with armed := none }
      if !phase && s.skew then .next (s1.tileFault t { cause := 0x11 } x.h.pc)
      else if s.armClock t phase ≤ T then .next s1
      else if s.strictAt t then .next (s1.tileFault t { cause := 0x10 } x.h.pc)
      else .next (s.setTile t { x with armed := none, r := { x.r with late := true } })
  | _ => .next s

/-! ### Window records at the tile (R401) -/

/-- The record that `wtake` reads (R401): the latest delivery, or the default before the first. -/
def Window.taken (w : Window) : Vector Word 8 :=
  match w.delivered with
  | some r => r.1
  | none => w.defpost.set 0 (postWord w.defpost[0] 0xFFFF true)

/-- The window opens in this superstep, and its delivery for it has not happened (R401). -/
def Window.awaited (w : Window) (step : Nat) : Bool :=
  w.opensIn step && !w.deliveredIn step

/-- `wtake gd, ga` (R401). -/
def execWtake (d a : Reg) (s : State) : Host.Outcome State Fault Refusal :=
  onTile s fun t =>
    let v := s.g a
    if bitsAt v 3 5 != 0 || bitsAt v 16 48 != 0 then illegal s
    else onDomain s t fun k _ =>
      match s.windowOf (s.tile t).lid (bitsAt v 8 8) with
      | none => .next (s.raiseFault s.cur { cause := 0x14 })
      | some (j, x, w) =>
        if j != k then .next (s.raiseFault s.cur { cause := 0x14 })
        else if w.awaited x.step then .next (s.park s.cur (.window k w.wid))
        else .next ((s.wg s.cur d (w.taken.toList.getD (bitsAt v 0 3) 0)).done s.cur)

end Sys2Proof.Machine
end

