-- ==== Sys2Proof/Machine/Timed.lean ====
section
/-!
DEFINITION. Timed transfers (spec/11_tensor_and_timed.md R382 to R388; spec/02_memory_hierarchy.md R69, R80 to R88, R95 to
R99, R495; spec/01_address_spaces.md R18, R31 to R34; spec/04_copy_and_sync.md R156): `tfetch`, `tstream`, `tgather`, the
ring, the timed HBM slots, and the landings.
-/
namespace Sys2Proof.Machine

/-! ### Translation of timed accesses (R31 to R33, R38) -/

/-- The translation of a paged address for a tile in its ring-station micro-TLB and the locked array, which serve even a page
under invalidation until the domain's next closing barrier (R31, R32, R38). -/
def State.tileLookup (s : State) (t : TileId) (kind : Kind) (va : Nat) : Tr :=
  ({ s with invals := [] } : State).lookup (s.ctxOf (s.tile t).lid) kind true va ((s.tile t).rtlb ++ s.lockedOf t.val)

/-- A line that a timed transfer names: its physical address, its leaf, and its page. -/
structure TLine where
  pa : Nat
  leaf : Word
  page : Option PageTag
  /-- It lies in a sealed range (R157). -/
  sld : Bool
deriving DecidableEq, Repr

/-- One line of a timed access in the paged range (R18, R32, R33): a miss waits for the die TLB, and for a walk if that misses
too. -/
def State.timedLine (s : State) (t : TileId) (kind : Kind) (va : Nat) : Res TLine :=
  if 2 ^ 55 ≤ va then .fault (tfault 0x0A 1 0 kind va) s
  else if inWindow va then .fault (tfault 0x0B 7 0 kind va) s
  else match s.tileLookup t kind va with
  | .fault f => .fault f s
  | .miss => .wait (.walk va) (s.after dieLookupTime (.pageWalk (.tile t) va kind.num 0))
  | .blocked id => .wait (.inval id va kind.num) s
  | .ok pa e page => .ok ⟨pa, e, some page, s.sealedAt page.asid va⟩ s

/-- The lines of a timed access from line `k` on, in order. -/
def State.timedLines (s : State) (t : TileId) (kind : Kind) (va : Nat) : Nat → Nat → Res (List TLine)
  | 0, _ => .ok [] s
  | left + 1, k =>
    (s.timedLine t kind (va + 256 * k)).bind fun l s =>
      (s.timedLines t kind va left (k + 1)).bind fun ls s => .ok (l :: ls) s

/-- An address in the L2-scratch range of the local window: its offset (R14). -/
def scratchOff (va : Nat) : Option Nat :=
  if inWindow va ∧ va < 2 ^ 55 ∧ 0x80000000 ≤ va % 2 ^ 48 ∧ va % 2 ^ 48 < 0xA0000000 then some (va % 2 ^ 48 - 0x80000000) else none

/-- The lines of a `tfetch` in the L2-scratch range (R18, R19): each slice has its allotment. -/
def State.scratchLines (s : State) (va off n : Nat) : Except FaultInfo (List TLine) :=
  match (List.range n).find? (fun k => decide (0x20000000 ≤ off + 256 * k) || decide (s.scw * 0x80000 ≤ (off + 256 * k) % 0x800000)) with
  | some k => .error (tfault 0x0A 2 0 .read (va + 256 * k))
  | none => .ok ((List.range n).map (fun k => ⟨0x200080000000 + off + 256 * k, 0, none, false⟩))

/-! ### Slot tables (R84 to R88) -/

/-- The slice of a line: of L2 scratch by its address, of anything else by the hash (R19, R72). -/
def State.sliceNo (s : State) (pa : Nat) : Nat :=
  match s.phys pa with
  | .scratch k _ => k
  | _ => sliceOf pa

/-- The entries of the slot table of a tile's die in its launch (R84, R85). -/
def State.ringEntries (s : State) (t : TileId) : List Word :=
  match ((s.tile t).lid.bind s.launches.find) with
  | none => []
  | some l => (l.rings.filter (fun r => r.1 == t.val / 64)).flatMap (fun r => r.2.2)

/-- Some valid entry joins the tile's station with the station of a line's slice in the direction (R383, R88). -/
def State.ringServes (s : State) (t : TileId) (write : Bool) (pa : Nat) : Bool :=
  let me := tileStation t.val
  let sl := sliceStation (s.sliceNo pa)
  (s.ringEntries t).any (fun e => seV e && (if write then seOP e == 2 && seSRC e == me && seDST e == sl
    else seOP e == 1 && seDST e == me && seSRC e == sl))

/-! ### `tfetch` (R382 to R385) -/

/-- The operand of a `tfetch` or a `tstream`: its reserved bits are zero and NL lies in its limits (R382). -/
def moveOk (w : Word) : Bool := bitsAt w 45 18 == 0 && bitsAt w 23 9 == 0 && decide (bitsAt w 32 13 ≤ 4096)

/-- Lines that a tile has pending on the ring, and from HBM (R387). -/
def Tile.pendingOf (x : Tile) (k : LandKind) : Nat :=
  (x.lands.filter (fun l => l.kind == k)).length + (if k == .fetch then x.writes.length else 0)

/-- Landings added for lines to consecutive destination lines, each with its timed slot if any (R384, R387). -/
def State.addLands (s : State) (t : TileId) (kind : LandKind) (off : Nat) (ls : List (TLine × Option Nat)) : State :=
  let x := s.tile t
  let mk (p : (TLine × Option Nat) × Nat) : Landing :=
    { id := x.nextLand + p.2, seq := x.seq, kind := kind, pa := p.1.1.pa, off := off + 256 * p.2, asked := s.ck,
      slotCk := p.1.2, pinned := false, page := p.1.1.page, held := none, since := none, buf := false, own := false }
  s.setTile t { x with lands := x.lands ++ ls.zipIdx.map mk, nextLand := x.nextLand + ls.length, seq := x.seq + 1 }

/-- The own checks of a `tfetch` on its lines, in the order of R383: device leaves and writes to scratch, sealed ranges,
slot ownership. -/
def State.fetchFault (s : State) (t : TileId) (write : Bool) (va : Nat) (ls : List TLine) : Option FaultInfo :=
  let kind : Kind := if write then .write else .read
  let at' (p : TLine → Bool) : Option Nat := (ls.zipIdx.find? (fun l => p l.1)).map (fun l => va + 256 * l.2)
  match at' (fun l => pteMT l.leaf == 1 || (write && l.page.isNone)) with
  | some v => some (tfault 0x0B 7 0 kind v)
  | none =>
    match at' (fun l => write && l.sld) with
    | some v => some { cause := 0x09, kind := 2, faddr := v }
    | none => if ls.any (fun l => !s.ringServes t write l.pa) then some { cause := 0x0E } else none

/-- `tfetch ga, gb` (R382 to R385). -/
def execTfetch (a b : Reg) (s : State) : Host.Outcome State Fault Refusal :=
  onTile s fun t =>
    let va := (s.g a).toNat
    let w := s.g b
    let write := bitsAt w 63 1 == 1
    let nl := bitsAt w 32 13
    let off := bitsAt w 0 23
    let kind : Kind := if write then .write else .read
    if !moveOk w then illegal s
    else if va % 256 != 0 then misalignedAt s va kind
    else if off % 256 != 0 then misalignedAt s off (if write then .read else .write)
    else match s.rangeFault t off (256 * nl) (if write then .read else .write) with
    | some f => .next (s.raiseFault s.cur f)
    | none =>
      if nl = 0 then .next (s.done s.cur)
      else
        let lines : Res (List TLine) := match scratchOff va with
          | some o =>
            if write then .fault (tfault 0x0B 7 0 .write va) s
            else match s.scratchLines va o nl with
              | .error f => .fault f s
              | .ok ls => .ok ls s
          | none => s.timedLines t kind va nl 0
        finish s s.cur (lines.bind fun ls s =>
          match s.fetchFault t write va ls with
          | some f => .fault f s
          | none =>
            let x := s.tile t
            if 4096 < x.pendingOf .fetch + nl then .wait (.stall .always) s
            else if write then
              let mk (p : TLine × Nat) : WLine := { off := off + 256 * p.2, pa := p.1.pa, seq := x.seq, gone := false, page := p.1.page }
              .ok () (s.setTile t { x with writes := x.writes ++ ls.zipIdx.map mk, seq := x.seq + 1 })
            else .ok () (s.addLands t .fetch off (ls.map (fun l => (l, none)))))

/-! ### Timed HBM slots (R96 to R99, R386, R387) -/

/-- Slot `k` of the slot clock is timed (R96 to R98). -/
def State.slotTimed (s : State) (k : Nat) : Bool :=
  s.pattern.getLsbD 31 && k / 16 % 32 != 31 && s.pattern.getLsbD (k % 16)

/-- The slots of a pseudo-channel that are assigned already, by their start (R387). -/
def State.slotsTaken (s : State) (pch : Nat) : List Nat :=
  s.tiles.flatMap (fun p => p.2.lands.filterMap (fun l =>
    if l.kind == .stream && pchOf l.pa == pch then l.slotCk else none))

/-- The first timed slot from slot `k` on that is not assigned, tried over `n` slots; its start. -/
def State.firstSlot (s : State) (taken : List Nat) : Nat → Nat → Option Nat
  | 0, _ => none
  | n + 1, k => if s.slotTimed k && !taken.contains (16 * k) then some (16 * k) else s.firstSlot taken n (k + 1)

/-- The slot of a line that is translated now (R387): a pattern of 16 slots holds one timed slot at least, but for one
pattern in 32. -/
def State.assignSlot (s : State) (taken : List Nat) : Option Nat :=
  s.firstSlot taken (16 * (2 * taken.length + 4)) ((s.ck + 32 + 15) / 16)

/-- Lines with the timed slots of their pseudo-channels, in increasing line order (R387). -/
def State.assignLines (s : State) : List (Nat × Nat) → List TLine → List (TLine × Option Nat)
  | _, [] => []
  | given, l :: r =>
    let pch := pchOf l.pa
    let k := s.assignSlot (s.slotsTaken pch ++ (given.filter (fun g => g.1 == pch)).map (fun g => g.2))
    (l, k) :: s.assignLines (match k with | some c => (pch, c) :: given | none => given) r

/-- A line that the streaming unit may not read (R386): outside HBM, or a device leaf. -/
def State.notHbm (s : State) (l : TLine) : Bool := pteMT l.leaf == 1 || s.phys l.pa != .hbm

/-- The launch of a tile holds the claim on the HBM slot pattern (R224). -/
def State.ownsPattern (s : State) (t : TileId) : Bool := (s.tile t).lid.isSome && s.patOwner == (s.tile t).lid

/-- `tstream ga, gb` (R382, R386, R387). -/
def execTstream (a b : Reg) (s : State) : Host.Outcome State Fault Refusal :=
  onTile s fun t =>
    let va := (s.g a).toNat
    let w := s.g b
    let nl := bitsAt w 32 13
    let off := bitsAt w 0 23
    if !moveOk w || bitsAt w 63 1 == 1 then illegal s
    else if va % 256 != 0 then misalignedAt s va .read
    else if off % 256 != 0 then misalignedAt s off .write
    else match s.rangeFault t off (256 * nl) .write with
    | some f => .next (s.raiseFault s.cur f)
    | none =>
      if nl = 0 then .next (s.done s.cur)
      else
        finish s s.cur ((s.timedLines t .read va nl 0).bind fun ls s =>
          match ls.zipIdx.find? (fun l => s.notHbm l.1) with
          | some l => .fault (tfault 0x0B 7 0 .read (va + 256 * l.2)) s
          | none =>
            if !s.ownsPattern t then .fault { cause := 0x0E } s
            else if 4096 < (s.tile t).pendingOf .stream + nl then .wait (.stall .always) s
            else .ok () (s.addLands t .stream off (s.assignLines [] ls)))

/-! ### `tgather` (R156, R388, R484) -/

/-- Blocks of a gather from block `j` on (R156, R388): the index is read when its block is translated. Indices of one
line come with one access of its bank, as `mine` holds of this ck; a line of a bank that this ck has used waits (R63, R65, R69). -/
def State.gatherFrom (s : State) (t : TileId) (base bl n ioff doff : Nat) (mine : List Nat) : Nat → Nat → Res Unit
  | 0, _ =>
    let x := s.tile t
    .ok () (s.setTile t { x with gath := none, r := { x.r with gprog := gprogWord false n n } })
  | left + 1, j =>
    let s := s.setTile t { s.tile t with gath := some (j, n) }
    let size := 2 ^ (bl + 8)
    let line := (ioff + 4 * j) / 256
    match (s.tile t).waits (ioff + 4 * j) 4 false with
    | some hold => .wait (.stall hold) s
    | none =>
      if !mine.contains line && (s.tile t).bankLost [line] then .wait (.stall .exchange) s
      else
      let s := s.useBanks t (ioff + 4 * j) 4
      if s.tmMarked t (ioff + 4 * j) 4 then .fault { cause := 0x13, kind := 1, faddr := ioff + 4 * j } s
      else
        let va := base + s.tmNat t (ioff + 4 * j) 4 * size
        match s.timedLine t .read va with
        | .fault f s => Res.fault f s
        | .wait w s => .wait w s
        | .stop f => .stop f
        | .ok l s =>
          if s.notHbm l then .fault (tfault 0x0B 7 0 .read va) s
          else if 4096 < (s.tile t).pendingOf .stream + size / 256 then .wait (.stall .always) s
          else
            let ls : List TLine := (List.range (size / 256)).map (fun k => { l with pa := l.pa + 256 * k })
            (s.addLands t .stream (doff + j * size) (s.assignLines [] ls)).gatherFrom t base bl n ioff doff (insertNat line mine) left (j + 1)

/-- The block at which a gather of `n` blocks begins: where it waits, where `k.gprog` stopped it, or 0 (R156, R484). -/
def Tile.gatherStart (x : Tile) (n : Nat) : Nat :=
  match x.gath with
  | some p => p.1
  | none => if bitsAt x.r.gprog 63 1 = 1 ∧ bitsAt x.r.gprog 0 16 = n then min n (bitsAt x.r.gprog 16 16) else 0

/-- `tgather ga, gb` (R156, R388). -/
def execTgather (a b : Reg) (s : State) : Host.Outcome State Fault Refusal :=
  onTile s fun t =>
    let base := (s.g a).toNat
    let w := s.g b
    let bl := bitsAt w 60 4
    let n := bitsAt w 44 16
    let ioff := 4 * bitsAt w 23 21
    let doff := bitsAt w 0 23
    let size := 2 ^ (bl + 8)
    if 8 < bl then illegal s
    else if base % size != 0 then misalignedAt s base .read
    else if doff % 256 != 0 then misalignedAt s doff .write
    else match s.rangesFault t [(ioff, 4 * n, .read), (doff, n * size, .write)] with
    | some f => .next (s.raiseFault s.cur f)
    | none =>
      if n != 0 && !s.ownsPattern t then .next (s.raiseFault s.cur { cause := 0x0E })
      else
        let j := (s.tile t).gatherStart n
        finish s s.cur (s.gatherFrom t base bl n ioff doff [] (n - j) j)

/-! ### Landings (R69, R87, R99, R384) -/

/-- The tentative contents of a line that the tile's own domain has written in this superstep; a line of host memory has none
(R45, R80). -/
def State.ownTent (s : State) (t : TileId) (line : Nat) : Option Tent :=
  if hostLine line then none else (s.domainOf t.val).bind (fun p => s.tent.find (64 * line + p.1))

/-- The committed or, for the domain's own tentative line, the tentative contents of a line that a `tfetch` reads, with its
marks (R191). -/
def State.ringData (s : State) (t : TileId) (pa : Nat) : VWord × BitVec 4 :=
  match s.ownTent t (pa / 256) with
  | some z => (BitVec.ofNat 2048 (natOfBytes z.bytes), z.marks)
  | none => (BitVec.ofNat 2048 (memNat s.mem pa 256), s.lineMarks pa)

/-- The event of a landing that reaches its tile (R69, R99). -/
def Landing.event (l : Landing) (t : TileId) : Event :=
  match l.kind with
  | .fetch => .landingBufferWrite t l.id
  | .stream => .tstreamLineArrival t l.id

/-- The landings of a tile after one has left the landing buffer of its bank: the oldest of the store that waits for it moves in
(R69). -/
def Tile.moveIn (x : Tile) (bank : Nat) : Tile :=
  let old := x.lands.filter (fun m => m.since.isSome && !m.buf && bankOf m.off == bank)
  match old.find? (fun m => old.all (fun n => decide (m.since.getD 0 ≤ n.since.getD 0))) with
  | none => x
  | some z => { x with lands := x.lands.map (fun m => if m.id = z.id then { m with buf := true } else m) }

/-- A landing takes effect in its bank in the first ck in which no source before it uses it. One that loses its bank as it
arrives is held in the bank's landing buffer, which has room for 8 lines, or in the landing store; from there it contends no
more until it has moved into the buffer (R69). -/
def State.land (s : State) (t : TileId) (id : Nat) : State :=
  let x := s.tile t
  match x.lands.find? (fun l => l.id == id) with
  | none => s
  | some l =>
    match l.held with
    | none => s
    | some (v, m4) =>
      let bank := bankOf l.off
      let room := decide ((x.lands.filter (fun m => m.buf && bankOf m.off == bank)).length < 8)
      if x.banks.contains bank || (l.since.isSome && !l.buf) then
        let hold (m : Landing) : Landing := { m with since := some (m.since.getD s.ck), buf := m.buf || (m.since.isNone && room) }
        (s.setTile t { x with lands := x.lands.map (fun m => if m.id = id then hold m else m) }).after 1 (l.event t)
      else
        let s1 := s.tmStore t l.off (bytesOfNat 256 v.toNat)
        let s2 := s1.setLineMarks (tileBase t + l.off) m4
        let y := s2.tile t
        let z := { y with lands := y.lands.filter (fun m => m.id != id), banks := insertNat bank y.banks }
        s2.setTile t (if l.buf then z.moveIn bank else z)

/-- `LANDING_BUFFER_WRITE` (R69). -/
def execLandingBufferWrite (s : State) : Host.Outcome State Fault Refusal :=
  match s.event with
  | some (.landingBufferWrite t k) => .next (s.land t k)
  | _ => .next s

/-- `TSTREAM_LINE_ARRIVAL` (R99). -/
def execTstreamLineArrival (s : State) : Host.Outcome State Fault Refusal :=
  match s.event with
  | some (.tstreamLineArrival t k) => .next (s.land t k)
  | _ => .next s

/-- The closed-page access of a timed slot leaves no row open in the bank of its line (R99). -/
def State.closeRow (s : State) (pch pa : Nat) : State :=
  match s.hbmQ.find pch with
  | none => s
  | some x => { s with hbmQ := s.hbmQ.put pch { x with rows := x.rows.del (hbmBank pa) } }

/-- `HBM_TIMED_SLOT` (R99): the line that the slot is assigned to is read, and its bank is closed; it arrives 512 ck after the slot
starts. -/
def execHbmTimedSlot (s : State) : Host.Outcome State Fault Refusal :=
  match s.event with
  | some (.hbmTimedSlot pch) =>
    .next ((List.finRange 128).foldl (fun (u : State) t =>
      ((u.tile t).lands.filter (fun l => l.kind == .stream && l.held.isNone && l.slotCk == some s.ck && pchOf l.pa == pch)).foldl
        (fun (v : State) l =>
          let y := v.tile t
          let d := (BitVec.ofNat 2048 (memNat v.mem l.pa 256), v.lineMarks l.pa)
          ((v.closeRow pch l.pa).setTile t { y with lands := y.lands.map (fun m => if m.id = l.id then { m with held := some d } else m) }).after 512
            (.tstreamLineArrival t l.id)) u) s)
  | _ => .next s

/-! ### The ring (R82, R84, R87, R384, R385, R495) -/

/-- The tentative lines in the set of a line that are pinned (R82). -/
def State.tentPins (s : State) (line : Nat) : List Nat :=
  s.tiles.foldl (fun l p => (p.2.lands.filter (fun m => m.pinned && m.own && sameSet (m.pa / 256) line)).foldl
    (fun l m => insertNat (m.pa / 256) l) l) []

/-- The pins in the set of a line (R81, R82). -/
def State.pinsIn (s : State) (line : Nat) : Nat :=
  (s.lines.filter (fun p => sameSet p.1 line && p.2.pins != 0)).length + (s.tentPins line).length

/-- The line of a pending ring read is asked of its slice: it is filled if it misses, and pinned once its slice holds it
without refusal conditions and its set has room (R77, R82, R87). The tentative line of the tile's own domain is pinned where it
stands (R80, R191). -/
def State.pinLand (s : State) (t : TileId) (l : Landing) : State :=
  let line := l.pa / 256
  let mark (own : Bool) (u : State) : State :=
    let y := u.tile t
    u.setTile t { y with lands := y.lands.map (fun m => if m.id = l.id then { m with pinned := true, own := own } else m) }
  if l.page.isNone then mark false s
  else if (s.ownTent t line).isSome then
    if (s.tentPins line).contains line || decide (s.pinsIn line < 2) then mark true s else s
  else match s.lines.find line with
  | some z =>
    if s.lineAnswer line false == .serve && (z.pins != 0 || decide (s.pinsIn line < 2)) then
      mark false { s with lines := s.lines.put line { z with pins := z.pins + 1 } }
    else s
  | none => s.startFill line

/-- Every pending ring read without a pin asks for it; the slices do so in every ck (R82). -/
def State.pinStep (s : State) : State :=
  (List.finRange 128).foldl (fun (u : State) t =>
    ((u.tile t).lands.filter (fun l => l.kind == .fetch && !l.pinned)).foldl (fun v l => v.pinLand t l) u) s

/-- The slice holds the line of a pending ring read without refusal conditions (R77, R87): the tentative line of the tile's
own domain, or a pinned line. -/
def State.readHeld (s : State) (t : TileId) (l : Landing) : Bool :=
  let line := l.pa / 256
  if l.page.isNone then l.pinned
  else if (s.ownTent t line).isSome then l.pinned && ((s.lines.find line).map (fun z => z.st != .promoting)).getD true
  else l.pinned && s.lineAnswer line false == .serve

/-- A pending ring read is ready for a slot: held and pinned, and 40 ck old, or 56 from the other die (R87). -/
def State.readReady (s : State) (t : TileId) (l : Landing) : Bool :=
  l.kind == .fetch && l.slotCk.isNone && s.readHeld t l
    && decide (l.asked + (if s.sliceNo l.pa / 32 = t.val / 64 then 40 else 56) ≤ s.ck)

/-- A line of a timed write is ready: every earlier operation of the tile that writes it has completed (R385). -/
def Tile.writeReady (x : Tile) (w : WLine) : Bool :=
  let r := (w.off, 256)
  !w.gone && !x.ops.any (fun o => decide (o.seq < w.seq) && o.kind.foot.wr.any (linesMeet r))
    && !x.lands.any (fun l => decide (l.seq < w.seq) && linesMeet r (l.off, 256))
    && !x.recvs.any (fun v => decide (v.seq < w.seq) && linesMeet r (v.off + 64 * v.fin, 64 * (v.words - v.fin)))
    && !x.xreds.any (fun v => decide (v.seq < w.seq) && !v.fin && v.wr.any (linesMeet r))

/-- The lines that a read slot takes: up to 8, oldest first (R384). -/
def State.slotReads (s : State) (t : TileId) (src : Nat) : List Landing :=
  ((s.tile t).lands.filter (fun l => s.readReady t l && sliceStation (s.sliceNo l.pa) == src)).take 8

/-- The lines that a write slot takes: up to 8, oldest first (R385). -/
def State.slotWrites (s : State) (t : TileId) (dst : Nat) : List WLine :=
  let x := s.tile t
  (x.writes.filter (fun w => x.writeReady w && sliceStation (sliceOf w.pa) == dst)).take 8

/-- `RING_SLOT_DEPARTURE` (R87, R384, R385). -/
def execRingSlotDeparture (s : State) : Host.Outcome State Fault Refusal :=
  match s.event with
  | some (.ringSlotDeparture die e) =>
    if seOP e = 1 then
      let t : TileId := Fin.ofNat 128 (stationTile die (seDST e))
      let ls := s.slotReads t (seSRC e)
      if ls.isEmpty then .next s
      else
        let y := s.tile t
        let take (m : Landing) : Landing :=
          if ls.any (fun l => l.id == m.id) then { m with slotCk := some s.ck, held := some (s.ringData t m.pa) } else m
        .next ((s.setTile t { y with lands := y.lands.map take }).after (seDist e) (.ringSlotArrival t (ls.map (fun l => l.id))))
    else
      let t : TileId := Fin.ofNat 128 (stationTile die (seSRC e))
      .next ((s.slotWrites t (seDST e)).foldl (fun (u : State) w =>
        let y := u.tile t
        let cross := if sliceOf w.pa / 32 = die then 0 else 16  -- log 106
        let data := BitVec.ofNat 2048 (u.tmNat t w.off 256)
        (u.setTile t { y with writes := y.writes.map (fun z => if z = w then { z with gone := true } else z) }).after
          (seDist e + cross) (.timedWriteAccept t w.pa data (u.lineMarks (tileBase t + w.off)))) s)
  | _ => .next s

/-- `RING_SLOT_ARRIVAL` (R82, R384): the pins end, and the lines land 2 ck later. -/
def execRingSlotArrival (s : State) : Host.Outcome State Fault Refusal :=
  match s.event with
  | some (.ringSlotArrival t ks) =>
    .next (ks.foldl (fun (u : State) k =>
      match (u.tile t).lands.find? (fun l => l.id == k) with
      | none => u
      | some l =>
        let y := u.tile t
        ((u.unpin l).setTile t { y with lands := y.lands.map (fun m => if m.id = k then { m with pinned := false } else m) }).after 2
          (.landingBufferWrite t k)) s)
  | _ => .next s

/-- A tentative line more would break the limits of its set or its slice (R81); a line of host memory is none (R45). -/
def State.tentFull (s : State) (line key : Nat) : Bool :=
  let real (p : Nat × Tent) : Bool := !hostLine (p.1 / 64)
  (s.tent.find key).isNone && !hostLine line
    && (decide (2 ≤ (s.tent.filter (fun p => real p && sameSet (p.1 / 64) line)).length)
      || decide (4096 ≤ (s.tent.filter (fun p => real p && sliceOf (p.1 / 64 * 256) == sliceOf (line * 256))).length))

/-- `TIMED_WRITE_ACCEPT` (R80, R81, R385, R495): the line becomes tentative in a way of its own, or the tile takes a
barrier-domain fault at its next boundary. A write to host memory waits for the closing barrier without becoming tentative
(R45). -/
def execTimedWriteAccept (s : State) : Host.Outcome State Fault Refusal :=
  match s.event with
  | some (.timedWriteAccept t pa data mk) =>
    let x := s.tile t
    match x.writes.find? (fun w => w.gone && w.pa == pa), s.domainOf t.val with
    | some w, some (d, _) =>
      let s1 := s.setTile t { x with writes := x.writes.erase w }
      let line := pa / 256
      let key := 64 * line + d
      if s1.tentFull line key then .next (s1.tileFault t { cause := 0x14, asy := true } x.h.pc)
      else
        let z : Tent := { dom := d, bytes := bytesOfNat 256 data.toNat, marks := mk, page := w.page }
        let s2 := if hostLine line || (s1.tent.find key).isSome then s1 else s1.makeRoom line
        .next { s2 with tent := s2.tent.put key z }
    | _, _ => .next s
  | _ => .next s

end Sys2Proof.Machine
end

