-- ==== Sys2Proof/Machine/Exchange.lean ====
section
/-!
DEFINITION. The exchange and the collectives of a barrier domain (spec/11_tensor_and_timed.md R392 to R398;
spec/02_memory_hierarchy.md R69, R93, R94; spec/03_number_formats.md R127 to R132): sends, receives and `xred`.
-/
namespace Sys2Proof.Machine

/-! ### Sends and receives (R393 to R395) -/

/-- D(a, b): the ck from the launch of a word by tile a to its arrival at the tap of tile b (R93). -/
def laneDelay (a b : Nat) : Nat :=
  let gcol (t : Nat) : Nat := t / 64 * 8 + tileCol t
  let dist (x y : Nat) : Nat := if x < y then y - x else x - y
  3 + dist (tileRow a) (tileRow b) + 2 * dist (gcol a) (gcol b) + (if a / 64 = b / 64 then 0 else 12)

/-- The offset just after the last of a list of spans (R393, R394). -/
def spansEnd (l : List Span) : Nat := l.foldl (fun m v => max m (v.start + v.words)) 0

/-- A bound that `k` steps of granted spans reach from offset `pos` (R231, R393). -/
def granted (es : List Word) : Nat → Nat → Nat
  | 0, pos => pos
  | k + 1, pos =>
    match es.find? (fun e => decide (xtOFF e ≤ pos) && decide (pos < xtOFF e + xtLEN e)) with
    | some e => granted es k (xtOFF e + xtLEN e)
    | none => pos

/-- Every offset from `f` to `f + n - 1` lies in a span of the tile in the pattern of the phase (R393). -/
def State.maySend (s : State) (t : TileId) (x : Domain) (f n : Nat) : Bool :=
  let es := (s.timetable x).filter (fun e => xtV e && xtPAT e == x.pattern && xtTILE e == t.val)
  decide (f + n ≤ granted es es.length f)

/-- The wait of a transmit read for lines that an uncompleted operation still writes (R361, R363). -/
def Tile.sendBusy (x : Tile) (off n : Nat) : Option Hold := ({ x with banks := [] }).busy off n false

/-- `xsend ga, gb` (R393). -/
def execXsend (a b : Reg) (s : State) : Host.Outcome State Fault Refusal :=
  onTile s fun t =>
    let off := tileOperand (s.g a).toNat
    let n := (s.g b).toNat
    if n = 0 ∨ 65536 < n then illegal s
    else if off % 64 != 0 then misalignedAt s off .read
    else match s.rangeFault t off (64 * n) .read with
    | some f => .next (s.raiseFault s.cur f)
    | none => onDomain s t fun _ x =>
      let y := s.tile t
      let f := max (y.so + 1) (spansEnd y.sends)
      if !s.maySend t x f n then .next (s.raiseFault s.cur { cause := 0x0E })
      else
        finish s s.cur ((waitOn s (y.sendBusy off (64 * n))).bind fun _ s =>
          let v : Span := { seq := y.seq, start := f, words := n, off := off, fin := 0 }
          let s1 := s.setTile t { y with sends := y.sends ++ [v], seq := y.seq + 1 }
          .ok () (if f = y.so + 1 then s1.post (.xsendWord t) else s1))

/-- `xrecv ga, gb` (R394). -/
def execXrecv (a b : Reg) (s : State) : Host.Outcome State Fault Refusal :=
  onTile s fun t =>
    let off := tileOperand (s.g a).toNat
    let n := (s.g b).toNat
    if n = 0 ∨ 65536 < n then illegal s
    else if off % 64 != 0 then misalignedAt s off .write
    else match s.rangeFault t off (64 * n) .write with
    | some f => .next (s.raiseFault s.cur f)
    | none => onDomain s t fun _ _ =>
      let y := s.tile t
      let v : Span := { seq := y.seq, start := max (y.so + 1) (spansEnd y.recvs), words := n, off := off, fin := 0 }
      .next ((s.setTile t { y with recvs := y.recvs ++ [v], seq := y.seq + 1 }).done s.cur)

/-- The span whose next word is read now: in the ck before the word leaves (R393). -/
def Tile.sending (x : Tile) : Option Span := x.sends.find? (fun v => v.fin != v.words && v.start + v.fin == x.so + 1)

/-- `XSEND_WORD` (R393): a word is read, and it leaves on the lane at its phase offset. -/
def execXsendWord (s : State) : Host.Outcome State Fault Refusal :=
  match s.event with
  | some (.xsendWord t) =>
    let x := s.tile t
    match x.sending with
    | none => .next s
    | some v =>
      let off := v.off + 64 * v.fin
      let word := (BitVec.ofNat 512 (s.tmNat t off 64), s.tmMarked t off 64)
      .next (s.setTile t { x with lane := x.lane.put (64 + v.start + v.fin) word,
                                  sends := x.sends.map (fun z => if z = v then { z with fin := z.fin + 1 } else z) })
  | _ => .next s

/-- The span that covers the phase offset of a domain. -/
def Tile.receiving (x : Tile) (off : Nat) : Option Span := x.recvs.find? (fun v => v.fin != v.words && v.start + v.fin == off)

/-- The word at the tap of a tile in the ck of a phase offset (R93, R94, R395). -/
def State.tapped (s : State) (t : TileId) (off : Nat) : Option (BitVec 512 × Bool) :=
  match (s.tile t).r.tap with
  | none => none
  | some a =>
    let d := laneDelay a t.val
    if 64 + off < d then none else (s.tile (Fin.ofNat 128 a)).lane.find (64 + off - d)

/-- `EXCHANGE_RECEIVE` (R69, R394): the latched word is written at rank 1, or its position is skipped. -/
def execExchangeReceive (s : State) : Host.Outcome State Fault Refusal :=
  match s.event with
  | some (.exchangeReceive t) =>
    match s.domainOf t.val with
    | none => .next s
    | some (_, d) =>
      match (s.tile t).receiving d.off with
      | none => .next s
      | some v =>
        let off := v.off + 64 * v.fin
        let s1 := match s.tapped t d.off with
          | none => s
          | some (w, bad) =>
            let u := s.tmStore t off (bytesOfNat 64 w.toNat)
            let pa := tileBase t + off
            let u1 : State := if bad then { u with marks := insertNat (pa / 64) u.marks } else u
            u1.setTile t { u1.tile t with banks := insertNat (bankOf off) (u1.tile t).banks }
        let y := s1.tile t
        .next (s1.setTile t { y with recvs := y.recvs.map (fun z => if z = v then { z with fin := z.fin + 1 } else z) })
  | _ => .next s

/-! ### Descriptors of collectives (R396) -/

/-- OP. -/
def xrOP (w : Vector Word 4) : Nat := bitsAt w[0] 60 4
/-- BLK. -/
def xrBlk (w : Vector Word 4) : Blk := match tfmt (8 + bitsAt w[0] 57 3) with | .blk b => b | _ => .mx32e4m3
/-- ROWS. -/
def xrROWS (w : Vector Word 4) : Nat := bitsAt w[0] 32 16
/-- RLEN. -/
def xrRLEN (w : Vector Word 4) : Nat := bitsAt w[0] 0 32
/-- SRC and DST. -/
def xrSRC (w : Vector Word 4) : Nat := bitsAt w[1] 32 32
/-- DST. -/
def xrDST (w : Vector Word 4) : Nat := bitsAt w[1] 0 32
/-- SMSK. -/
def xrSMSK (w : Vector Word 4) : Nat := bitsAt w[2] 32 32
/-- DMSK. -/
def xrDMSK (w : Vector Word 4) : Nat := bitsAt w[2] 0 32
/-- SSC. -/
def xrSSC (w : Vector Word 4) : Nat := bitsAt w[3] 32 32
/-- DSC. -/
def xrDSC (w : Vector Word 4) : Nat := bitsAt w[3] 0 32
/-- The bytes of the codes of a block. -/
def blkBytes (b : Blk) : Nat := blkLen b * blkBits b / 8
/-- The blocks of a row of OP 4. -/
def xrBlocks (w : Vector Word 4) : Nat := if xrOP w = 4 then xrRLEN w / blkBytes (xrBlk w) else 0
/-- The bytes of a scale array of OP 4. -/
def xrScales (w : Vector Word 4) : Nat := xrROWS w * xrBlocks w * blkScaleBytes (xrBlk w)

/-- The fields of an `xred` descriptor lie in their limits, alignment apart (R396). -/
def xredOk (w : Vector Word 4) : Bool :=
  decide (xrOP w ≤ 4) && (xrOP w == 4 || bitsAt w[0] 57 3 == 0) && bitsAt w[0] 54 2 != 3 && bitsAt w[0] 48 6 == 0
    && xrROWS w != 0 && xrRLEN w != 0 && xrRLEN w % 64 == 0 && decide (xrROWS w * xrRLEN w ≤ 2 ^ 20)
    && xrDMSK w != 0 && (xrOP w == 4 || w[3] == 0) && (xrOP w != 4 || xrRLEN w % blkBytes (xrBlk w) == 0)

/-- A field of an `xred` descriptor that misses its alignment (R396). -/
def xredMisaligned (w : Vector Word 4) : Option Nat :=
  [(xrSRC w, 64), (xrDST w, 64), (xrSMSK w, 8), (xrDMSK w, 8)].findSome? (fun p => if p.1 % p.2 != 0 then some p.1 else none)

/-- The ranges that an `xred` reads at issue, and those that it writes at completion (R398). -/
def xredFoot (w : Vector Word 4) : Foot :=
  let n := xrROWS w * xrRLEN w
  let msk := 8 * cdiv (xrROWS w) 64
  { rd := (xrSRC w, n) :: (if xrSMSK w = 0 then [] else [(xrSMSK w, msk)]) ++ [(xrSSC w, xrScales w)]
    wr := [(xrDST w, n), (xrDMSK w, msk), (xrDSC w, xrScales w)]
    accRd := (0, 0)
    accWr := (0, 0) }

/-- What the engine takes of a contribution at issue (R398, R420). -/
def State.stageXred (s : State) (t : TileId) (seq : Nat) (w : Vector Word 4) (tag : BitVec 16) : Xred :=
  let rows := List.range (xrROWS w)
  let sc := xrBlocks w * blkScaleBytes (xrBlk w)
  { seq := seq, desc := w, tag := tag, src := s.tm t (xrSRC w) (xrROWS w * xrRLEN w)
    smsk := rows.map (fun r => s.maskBit t (xrSMSK w) r)
    ssc := s.tm t (xrSSC w) (xrScales w)
    bad := rows.map (fun r => s.tmMarked t (xrSRC w + r * xrRLEN w) (xrRLEN w) || (sc != 0 && s.tmMarked t (xrSSC w + r * sc) sc))
    fin := false }

/-! ### Contributions of other packages (R397, R436; log 38) -/

/-- The bytes that carry a contribution between packages: rows, scales, and two flags for each row. -/
def Xred.stream (v : Xred) : List Byte :=
  v.src ++ v.ssc ++ v.smsk.map (fun b => if b then 1 else 0) ++ v.bad.map (fun b => if b then 1 else 0)

/-- The contribution of a member of another package, read back from its bytes and from the descriptor word and the tag that came
with them; the other words are those of a local member. -/
def Xred.ofStream (v : Xred) (w0 : Word) (tag : BitVec 16) (bytes : List Byte) : Xred :=
  let w := v.desc.set 0 w0
  let n := xrROWS w * xrRLEN w
  let m := xrScales w
  let flags (k : Nat) : List Bool := ((bytes.drop (n + m + k * xrROWS w)).take (xrROWS w)).map (fun b => b != 0)
  { v with desc := w, tag := tag, src := bytes.take n, ssc := (bytes.drop n).take m, smsk := flags 0, bad := flags 1 }

/-- The bytes of a contribution with a descriptor word. -/
def streamLen (v : Xred) (w0 : Word) : Nat :=
  let w := v.desc.set 0 w0
  xrROWS w * xrRLEN w + xrScales w + 2 * xrROWS w

/-- The 48-bit element position in a DATA flit (R436): barrier domain, tile, superstep modulo 16, the number of the collective
modulo 256, and the byte; byte 2^22 begins the head of a contribution (log 38). -/
def dataPos (d t step k off : Nat) : Nat := d * 2 ^ 42 + t * 2 ^ 35 + step % 16 * 2 ^ 31 + k % 256 * 2 ^ 23 + off

/-- The byte number of a head. -/
def headByte : Nat := 2 ^ 22

/-- The head of a contribution: the members of its package, the number of the collective, and word 0 of the descriptor. -/
def headBytes (members k : Nat) (w0 : Word) : List Byte := bytesOfNat 8 members ++ bytesOfNat 8 k ++ bytesOfNat 8 w0.toNat

/-- Word `j` of a head. -/
def headWord (b : List Byte) (j : Nat) : Nat := natOfBytes ((b.drop (8 * j)).take 8)

/-- The DATA flits of a contribution to the k-th collective: its head, and its bytes (log 38). -/
def State.sendContribution (s : State) (d : Nat) (x : Domain) (t : TileId) (k : Nat) (v : Xred) : State :=
  let bytes := v.stream
  let flit (off : Nat) (b : List Byte) : FlitBody := .data v.tag.toNat (dataPos d t.val x.step k off) b
  (s.peers x).foldl (fun u n =>
    (List.range (cdiv bytes.length 104)).foldl (fun (w : State) j =>
      w.sendFlit n 0 (flit (104 * j) ((bytes.drop (104 * j)).take 104)))
      (u.sendFlit n 0 (flit headByte (headBytes x.colTiles.length k v.desc[0])))) s

/-- A piece of collective data of a package at a position: its tag and its bytes. -/
def Domain.piece (x : Domain) (pkg pos : Nat) : Option (Nat × List Byte) :=
  (x.xdata.find? (fun e => e.1 == pkg && e.2.2.1 == pos)).map (fun e => (e.2.1, e.2.2.2))

/-- The contribution of a tile of another package to the k-th collective, once every byte of it has come. -/
def Domain.remoteXred (x : Domain) (d pkg tile k : Nat) (v : Xred) : Option Xred :=
  (x.piece pkg (dataPos d tile x.step k headByte)).bind fun h =>
    let w0 := BitVec.ofNat 64 (headWord h.2 2)
    let parts := (List.range (cdiv (streamLen v w0) 104)).map (fun j => x.piece pkg (dataPos d tile x.step k (104 * j)))
    if parts.all Option.isSome then
      some (v.ofStream w0 (BitVec.ofNat 16 h.1) (parts.map (fun p => (p.map (fun q => q.2)).getD [])).flatten)
    else none

/-- The contributions of another package in the order of its tiles, once all have come. -/
def Domain.packageXreds (x : Domain) (d pkg k : Nat) (v : Xred) : Option (List Xred) :=
  match (List.range 128).findSome? (fun t => x.piece pkg (dataPos d t x.step k headByte)) with
  | none => none
  | some h =>
    let got := (List.range 128).filterMap (fun t => x.remoteXred d pkg t k v)
    if got.length = headWord h.2 0 then some got else none

/-- The contributions of the k-th collective with their packages, in the order of (PZ, PY, PX, tile) (R397); none while one is
missing. -/
def State.contributed (s : State) (d : Nat) (x : Domain) (k : Nat) : Option (List (Nat × Xred)) :=
  let mine := x.colTiles.map (fun t => (s.tile (Fin.ofNat 128 t)).xreds[k]?)
  if mine.isEmpty || !mine.all Option.isSome then none
  else
    let loc := mine.filterMap id
    match loc with
    | [] => none
    | v :: _ =>
      let all := (insertNat s.here (s.peers x)).map (fun n =>
        (if n = s.here then some loc else x.packageXreds d n k v).map (fun l => l.map (fun y => (n, y))))
      if all.all Option.isSome then some (all.filterMap id).flatten else none

/-- The contributions of the k-th collective. -/
def State.contributions (s : State) (d : Nat) (x : Domain) (k : Nat) : Option (List Xred) :=
  (s.contributed d x k).map (fun l => l.map (fun p => p.2))

/-- The position belongs to the k-th collective of a domain in a superstep. -/
def posOf (d step k pos : Nat) : Bool := pos / 2 ^ 42 == d && pos / 2 ^ 31 % 16 == step % 16 && pos / 2 ^ 23 % 256 == k % 256

/-- The flits of a collective that has completed are used up. -/
def Domain.dropData (x : Domain) (d k : Nat) : Domain := { x with xdata := x.xdata.filter (fun e => !posOf d x.step k e.2.2.1) }

/-- The byte number of the count of collectives of a member that has no more of them in its superstep (R397; log 38). -/
def countByte : Nat := 2 ^ 22 + 1

/-- A member tile that has arrived, or ended, tells the other packages how many `xred` it has issued (R397; log 38). -/
def State.sendCount (s : State) (d : Nat) (x : Domain) (t : TileId) : State :=
  let n := (s.tile t).xreds.length
  let pos := dataPos d t.val x.step n countByte
  if x.xpkg && x.colTiles.contains t.val && !x.xdata.any (fun e => e.1 == s.here && e.2.2.1 == pos) then
    (s.peers x).foldl (fun u p => u.sendFlit p 0 (.data 0 pos (bytesOfNat 8 n)))
      (s.setDomain d { x with xdata := x.xdata ++ [(s.here, 0, pos, bytesOfNat 8 n)] })
  else s

/-- The counts that members of other packages have told in this superstep. -/
def Domain.countsIn (x : Domain) (d : Nat) : List Nat :=
  (x.xdata.filter (fun e => e.2.2.1 / 2 ^ 42 == d && e.2.2.1 / 2 ^ 31 % 16 == x.step % 16 && e.2.2.1 % 2 ^ 23 == countByte)).map
    (fun e => natOfBytes e.2.2.2)

/-- The collectives that other packages have contributed to in this superstep, by the heads that have come. -/
def Domain.headsIn (x : Domain) (d : Nat) : List Nat :=
  (x.xdata.filter (fun e => e.2.2.1 / 2 ^ 42 == d && e.2.2.1 / 2 ^ 31 % 16 == x.step % 16 && e.2.2.1 % 2 ^ 23 == headByte)).map
    (fun e => headWord e.2.2.2 1)

/-! ### Results of collectives (R397, R398) -/

/-- The tags and descriptors of the members agree (R397). -/
def agree (l : List Xred) : Bool :=
  match l with
  | [] => true
  | v :: r => r.all (fun z => z.tag == v.tag && xrOP z.desc == xrOP v.desc && bitsAt z.desc[0] 57 3 == bitsAt v.desc[0] 57 3
      && xrROWS z.desc == xrROWS v.desc && xrRLEN z.desc == xrRLEN v.desc)

/-- The bits of an element of an operation on elements. -/
def xrBits (op : Nat) : Nat := if op = 3 then 128 else 32

/-- Op at a node for OP 0 to 3 (R397). -/
def xrNode (op : Nat) (sat : Bool) (a b : Nat) : Nat × Nst :=
  match op with
  | 0 => addSat sat a b
  | 1 => fminmax .fp32 true a b
  | 2 => ((a + b) % 2 ^ 32, 0)
  | _ => ((a + b) % 2 ^ 128, 0)

/-- Row `r` of the source of a contribution. -/
def Xred.row (v : Xred) (r : Nat) : List Byte := (v.src.drop (r * xrRLEN v.desc)).take (xrRLEN v.desc)

/-- Block `i` of row `r` of a contribution (R110). -/
def Xred.block (v : Xred) (r i : Nat) : Block :=
  let b := xrBlk v.desc
  let w := blkScaleBytes b
  let sc := (v.ssc.drop ((r * xrBlocks v.desc + i) * w)).take w
  { codes := elemsOf (blkBits b) (blkLen b) (natOfBytes (((v.row r).drop (i * blkBytes b)).take (blkBytes b)))
    scale := (sc.getD 0 0).toNat
    extra := if w = 2 then (sc.getD 1 0).toNat else 0 }

/-- A result row: its bytes, its scale bytes, its flags, and whether an event of R115 poisons it. -/
abbrev XRow := List Byte × List Byte × Nst × Bool

/-- A result row of OP 0 to 3 (R346, R397). -/
def elemRow (op : Nat) (sat : Bool) (rows : List (List Byte)) : XRow :=
  let bits := xrBits op
  let n := (rows.headD []).length * 8 / bits
  let cols := rows.map (fun r => elemsOf bits n (natOfBytes r))
  let vals := (List.range n).map (fun e => treeReduce (xrNode op sat) cols.length (cols.map (fun c => some (c.getD e 0))))
  let out := vals.map (fun v => if op ≤ 1 then canonFp32 (v.1.getD 0) else v.1.getD 0)
  (packCodes bits out, [], vals.foldl (fun f v => f ||| v.2) 0, decide (op ≤ 1) && out.any badFp32)

/-- A node of OP 4 with the poison of its events (R127). -/
def blockNode (b : Blk) (sat : Bool) (x y : Block × Bool) : (Block × Bool) × Nst :=
  let z := combineMx b sat x.1 y.1
  ((z.1, x.2 || y.2 || z.2.2), z.2.1)

/-- A result row of OP 4 (R127, R128). -/
def blockRow (l : List Xred) (sat : Bool) (r : Nat) : XRow :=
  match l with
  | [] => ([], [], 0, false)
  | v :: _ =>
    let b := xrBlk v.desc
    let vals := (List.range (xrBlocks v.desc)).map (fun i =>
      treeReduce (blockNode b sat) l.length (l.map (fun z => some (z.block r i, false))))
    let blocks := vals.map (fun x =>
      let y := x.1.getD (⟨[], 0, 0⟩, false)
      let z := y.1.written b
      (z.1, y.2 || z.2))
    let sc := (blocks.map (fun x => if blkScaleBytes b = 2 then [BitVec.ofNat 8 x.1.scale, BitVec.ofNat 8 x.1.extra]
      else [BitVec.ofNat 8 x.1.scale])).flatten
    (packCodes (blkBits b) (blocks.map (fun x => x.1.codes)).flatten, sc, vals.foldl (fun f x => f ||| x.2) 0,
      blocks.any (fun x => x.2))

/-- A result row before the poison mode of a member, with the poison of its sources (R397). Where members' SAT differ, the
first member's holds at every node: the model's choice (log 101). -/
def collectiveRow (l : List Xred) (r : Nat) : XRow :=
  match l with
  | [] => ([], [], 0, false)
  | v :: _ =>
    let sat := bitsAt v.desc[0] 56 1 == 1
    let x := if xrOP v.desc = 4 then blockRow l sat r else elemRow (xrOP v.desc) sat (l.map (fun z => z.row r))
    let pois := x.2.2.2 || l.any (fun z => z.smsk.getD r false || z.bad.getD r false)
    (x.1, x.2.1, x.2.2.1 ||| nstIf pois nstPZ, pois)

/-- A result row as a member's poison mode writes it (R131): under `qzero` a poisoned row is +0, or scale 0x7F with zero codes
and, for MX64-E2M1, an extra byte 0x00 (log 98). -/
def Xred.rowOf (v : Xred) (x : XRow) : XRow :=
  if x.2.2.2 && bitsAt v.desc[0] 54 2 == 0 then
    let w := blkScaleBytes (xrBlk v.desc)
    (x.1.map (fun _ => 0), x.2.1.mapIdx (fun i _ => if i % w = 0 then 0x7F else 0), x.2.2.1, true)
  else x

/-- A member writes its destination, its scales and its mask bits, and marks its `xred` done (R398); a marked mask word is a
data error that cannot be confined (R132). -/
def State.writeCollective (s : State) (t : TileId) (k : Nat) (rows0 : List XRow) : State :=
  let x := s.tile t
  match x.xreds[k]? with
  | none => s
  | some v =>
    let rows := rows0.map v.rowOf
    if rows.any (fun r => r.2.2.2) && s.tmMarked t (xrDMSK v.desc) (8 * cdiv (xrROWS v.desc) 64) then
      s.tileFault t { cause := 0x13, imp := true } x.h.pc
    else
      let s1 := s.tmStore t (xrDST v.desc) (rows.map (fun r => r.1)).flatten
      let sc := (rows.map (fun r => r.2.1)).flatten
      let s2 := if sc.isEmpty then s1 else s1.tmStore t (xrDSC v.desc) sc
      let s3 := rows.zipIdx.foldl (fun u r => if r.1.2.2.2 then u.setMaskBit t (xrDMSK v.desc) (xrROWS v.desc) r.2 else u) s2
      let y := s3.tile t
      (s3.setTile t { y with xreds := y.xreds.mapIdx (fun i z => if i = k then { z with fin := true } else z) }).tileFlags t
        (rows.foldl (fun f r => f ||| r.2.2.1) 0)

/-- Every member tile takes a fault at its next boundary (R397, R427, R439, R442). -/
def State.faultMembers (s : State) (x : Domain) (f : FaultInfo) : State :=
  (x.tiles.filter (fun t => (s.tile t).running)).foldl (fun u t => u.tileFault t f (u.tile t).h.pc) s

/-- A level of a collective's tree: where each node stands and the ck until it is there. A node whose operands lie on different
packages adds 48 ck for each hop between them and the ck of its DATA flits (R398). -/
def State.collectiveLevel (s : State) (b : Nat) : List (Nat × Nat) → List (Nat × Nat)
  | x :: y :: l =>
    let far := if x.1 = y.1 then 0 else 48 * s.hops (pkgPos x.1) (pkgPos y.1) + cdiv b 62
    (x.1, max x.2 y.2 + 24 + cdiv b 256 + far) :: s.collectiveLevel b l
  | l => l

/-- The levels of a collective's tree, down to its root. -/
def State.collectiveRoot (s : State) (b : Nat) : Nat → List (Nat × Nat) → Nat
  | 0, l => (l.map (fun x => x.2)).foldl max 0
  | n + 1, l =>
    match l with
    | [] => 0
    | [x] => x.2
    | l => s.collectiveRoot b n (s.collectiveLevel b l)

/-- The ck from the last contribution of a collective of `b` bytes to its completion (R398), by the packages of its ranks. -/
def State.collectiveTime (s : State) (pkgs : List Nat) (b : Nat) : Nat :=
  40 + s.collectiveRoot b 20 (pkgs.map (fun p => (p, 0)))

/-- The k-th collective of a domain has every contribution: its completion is due (R398), less the ck that the last contribution
has already taken to come here. -/
def State.scheduleCollective (s : State) (d k spent : Nat) : State :=
  match s.domains.find d with
  | none => s
  | some x =>
    match s.contributed d x k with
    | none => s
    | some l =>
      s.after (max 1 (s.collectiveTime (l.map (fun v => v.1)) ((l.map (fun v => v.2.src.length)).headD 0) - spent)) (.collectiveComplete d k)

/-- `COLLECTIVE_COMPLETE` (R200, R397, R398): every member writes its destination, or, where the members do not agree, takes a
barrier-domain fault; after the loss of a member nothing is written. -/
def execCollectiveComplete (s : State) : Host.Outcome State Fault Refusal :=
  match s.event with
  | some (.collectiveComplete d k) =>
    match s.domains.find d with
    | none => .next s
    | some x =>
      if k < x.colDone || x.tiles.any (fun t => (s.tile t).wait == .stopped && bitsAt (s.tile t).h.cause 0 8 == 0x15) then .next s
      else if x.colDone < k then .next (s.after 1 (.collectiveComplete d k))
      else match s.contributions d x k with
      | none => .next s
      | some l =>
        if !agree l then .next (s.faultMembers x { cause := 0x14, asy := true })
        else
          let rows := (List.range ((l.map (fun v => xrROWS v.desc)).headD 0)).map (collectiveRow l)
          let s1 := s.setDomain d ({ x with colDone := k + 1 }.dropData d k)
          .next (x.colTiles.foldl (fun u t => u.writeCollective (Fin.ofNat 128 t) k rows) s1)
  | _ => .next s

/-- `xred ga, gb` (R396 to R398). -/
def execXred (a b : Reg) (s : State) : Host.Outcome State Fault Refusal :=
  onTile s fun t =>
    let tag := s.g b
    if bitsAt tag 16 48 != 0 then illegal s
    else
      finish s s.cur ((s.descriptor t (s.g a).toNat).bind fun w s =>
        if !xredOk w then .fault { cause := 0x01 } s
        else match xredMisaligned w with
        | some o => .fault { cause := 0x05, kind := 1, faddr := o } s
        | none =>
          match s.footFault t (xredFoot w), s.domainOf t.val with
          | some f, _ => .fault f s
          | none, none => .fault { cause := 0x14 } s
          | none, some (d, x) =>
            (waitOn s ((s.tile t).engineBusy (xredFoot w))).bind fun _ s =>
              (waitOn s (((xredFoot w).rd.filter (fun r => r.2 != 0)).findSome? (fun r => (s.tile t).sendBusy r.1 r.2))).bind fun _ s =>
                let word (o : Nat) : Bool := o != 0 && s.tmMarked t o (8 * cdiv (xrROWS w) 64)
                if word (xrSMSK w) then .fault { cause := 0x13, kind := 1, faddr := xrSMSK w } s
                else if word (xrDMSK w) then .fault { cause := 0x13, kind := 1, faddr := xrDMSK w } s
                else
                  let y := s.tile t
                  let v := s.stageXred t y.seq w (BitVec.ofNat 16 tag.toNat)
                  let s1 := s.setTile t { y with xreds := y.xreds ++ [v], seq := y.seq + 1 }
                  .ok () ((s1.sendContribution d x t y.xreds.length v).scheduleCollective d y.xreds.length 0))

end Sys2Proof.Machine
end

