-- ==== Sys2Proof/Machine/Barriers.lean ====
section
/-!
DEFINITION. Barriers of a domain (spec/06_execution_and_scheduling.md R229 to R231, R239; spec/02_memory_hierarchy.md R76,
R80; spec/11_tensor_and_timed.md R378, R389, R397; spec/13_links_and_host.md R444): arrival, promotion, drains and
release.
-/
namespace Sys2Proof.Machine

/-! ### Drains (R378) -/

/-- The drain that reads next, once every earlier operation that writes one of its lines has completed (R363, R378). -/
def Tile.draining (x : Tile) : Option Drain :=
  match x.drains.find? (fun d => d.got.length != d.nl) with
  | some d => if x.ops.any (fun o => decide (o.seq < d.seq) && runsMeet o.kind.foot.accWr (d.acc, d.nl)) then none else some d
  | none => none

/-- One ck of the drain unit of a tile: a line is read; with pentimento off it is on its way to the palette at once, 3H + 11 ck
after its read (R64). -/
def State.drainStep (s : State) (t : TileId) : State :=
  let x := s.tile t
  match x.draining with
  | none => s
  | some d =>
    let k := d.got.length
    let d' := { d with got := d.got ++ [(x.accLine (d.acc + k), x.accLineMarks (d.acc + k))] }
    let s1 := s.setTile t { x with drains := x.drains.map (fun z => if z.seq = d.seq then d' else z) }
    if ((s.domainOf t.val).map (fun p => p.2.pent)).getD false then s1
    else s1.send 2 (tileRouter t.val) (s1.coreRouter d.core) 7 (.drainDelivery t d.seq k)

/-- A drain of the tile that is to be delivered now meets a cluster in change: the tile holds the line (R48, R361). A tile that has
ended raises it no more (R274). -/
def State.drainHeld (s : State) (x : Tile) (now : Bool) : Bool :=
  now && !x.ended && x.drains.any (fun d => d.put < d.got.length && clmapChg (s.clmapAt (d.core.val / 8)))

/-- The tile without a drain whose lines the palette has all taken, or with the count of those it has taken. -/
def Tile.drained (x : Tile) (d : Drain) : Tile :=
  { x with drains := if d.put + 1 = d.nl then x.drains.filter (fun z => z.seq != d.seq)
                     else x.drains.map (fun z => if z.seq = d.seq then { z with put := z.put + 1 } else z) }

/-- `DRAIN_DELIVERY` (R195, R378): a line is written at rank 1, and after the last of its drain the sync word is updated; with
pentimento on only while the closing barrier is being released. A cluster in change, a lost bank or a claim of a commit makes it
come again (R48, R62, R180). -/
def execDrainDelivery (s : State) : Host.Outcome State Fault Refusal :=
  match s.event with
  | some (.drainDelivery t n k) =>
    let x := s.tile t
    let e : Event := .drainDelivery t n k
    match x.drains.find? (fun d => d.seq == n) with
    | none => .next s
    | some d =>
      match d.got[k]? with
      | none => .next s
      | some line =>
        let pa := s.palette d.core + d.off + 256 * k
        let r := s.takeBanks (.event e) pa 256
        if ((s.domainOf t.val).map (fun p => p.2.pent && !p.2.releasing)).getD false then .next s
        else if clmapChg (s.clmapAt (d.core.val / 8)) then .next (s.after 1 e)
        else if s.claimed pa 256 then .next (s.after 16 e)
        else if !r.1 then .next (r.2.after 1 e)
        else
          let s1 := ((r.2.setTile t (x.drained d)).store pa (bytesOfNat 256 line.1.toNat) none).setLineMarks pa line.2
          .next (if d.swo = 0 ∨ d.put + 1 ≠ d.nl then s1
            else s1.post (.syncUpdate (s.palette d.core + d.swo) (256 * d.nl) 1 false none none))
  | _ => .next s

/-! ### Arrival (R230, R389, R397, R444) -/

/-- Every member tile and CARR core arrivals are in (R230); a tile that has ended counts as arrived once its engines have
completed (R274). Of a domain whose members have all ended, the barrier of the superstep in which the last one did is released;
after that it needs core arrivals, or other packages (log 93). -/
def State.barrierMet (s : State) (x : Domain) : Bool :=
  x.tiles.all (fun t => x.arrived.contains t.val || ((s.tile t).ended && s.enginesDone t))
    && (x.carr != 0 || x.xpkg || !x.colTiles.isEmpty)
    && decide (x.carr ≤ x.coreArr.headD 0)

/-- A member has arrived, or ended, with fewer `xred` than another, here or on another package (R397). -/
def State.collectiveShort (s : State) (d : Nat) (x : Domain) : Bool :=
  let n (t : Nat) : Nat := (s.tile (Fin.ofNat 128 t)).xreds.length
  x.colTiles.any (fun a => (x.arrived.contains a || (s.tile (Fin.ofNat 128 a)).ended)
    && (x.colTiles.any (fun b => decide (n a < n b)) || (x.headsIn d).any (fun k => decide (n a ≤ k))))
    || x.colTiles.any (fun b => (x.countsIn d).any (fun k => decide (k < n b)))

/-- An open hold window without a post holds the release (R234). -/
def Domain.windowWaits (x : Domain) : Bool := x.windows.any (fun w => w.isOpen && w.hold && w.posted.isNone)

/-- The largest vote of the local members (R390). -/
def State.localVote (s : State) (x : Domain) : Nat :=
  x.tiles.foldl (fun m t => let r := (s.tile t).r; if r.voted then max m r.vote.toNat else m) 0

/-! ### Promotion (R76, R191, R495) -/

/-- The lines of a domain's tentative lines (R80). -/
def State.tentLines (s : State) (d : Nat) : List Nat := (s.tent.filter (fun p => p.2.dom == d)).map (fun p => p.1 / 64)

/-- A way without contents, as a slice marks the committed way of a tentative line that it does not hold (R495). -/
def Line.absent : Line := { st := .filling, dirty := false, hostHeld := 0, asked := 0, pins := 0 }

/-- Step 1 of R76: the lines are in flight, also those whose committed way is absent, and BISnpInv goes out for what the
host may hold (R495). -/
def State.startPromotion (s : State) (d : Nat) : State :=
  (s.tentLines d).foldl (fun (u : State) line =>
      let l := (u.lines.find line).getD Line.absent
      let u1 : State := { u with lines := u.lines.put line { l with st := .promoting, asked := l.hostHeld } }
      ((List.range 4).filter (fun k => l.hostHeld.getLsbD k)).foldl (fun v k =>
        let r := v.draw
        r.1.after (Config.farLatency r.2) (.birsp line k)) u1) s

/-- Every slice with tentative lines of the domain has reported (R76). -/
def State.promotable (s : State) (d : Nat) : Bool :=
  (s.tentLines d).all (fun line => ((s.lines.find line).map (fun l => l.asked == 0)).getD true)

/-- A pseudo-channel without the fill of a line. -/
def Pch.without (x : Pch) (line : Nat) : Pch :=
  { x with reads := x.reads.filter (fun m => m != line), waits := x.waits.filter (fun m => m != (line, false)) }

/-- One tentative line becomes the line of its slice; a fill of the committed contents is abandoned (R495). -/
def State.promoteLine (s0 : State) (key : Nat) (z : Tent) : State :=
  let line := key / 64
  let s := s0.ownLine line
  let l : Line := match s.lines.find line with
    | some l => { l with st := .ready, dirty := true, asked := 0 }
    | none => { st := .ready, dirty := true, hostHeld := 0, asked := 0, pins := 0 }
  let s1 : State := { s with
    mem := memPut s.mem (line * 256) z.bytes
    marks := marksAfter s.marks (line * 256) 256
    lines := s.lines.put line l
    hbmQ := s.hbmQ.map (fun q => (q.1, q.2.without line))
    tent := s.tent.del key }
  s1.setLineMarks (line * 256) z.marks

/-- Every tentative line of a domain promoted as one event, under one stamp for each slice; the requests that the slices
refused meet the new lines. -/
def State.promote (s : State) (d : Nat) : State :=
  let zs := s.tent.filter (fun p => p.2.dom == d)
  let lines := zs.map (fun p => p.1 / 64)
  let s1 := (zs.foldl (fun u p => u.promoteLine p.1 p.2) s).stampAll (lines.map (fun l => l * 256)) none
  let s2 := (lines.foldl (fun (u : State) l => u.wakeWatch (l * 256) 256) s1).abortReaders (lines.flatMap (fun l => blocksOf (l * 256) 256)) none
  lines.foldl (fun u l => u.answerKept l) s2

/-- `PROMOTION` (R76). -/
def execPromotion (s : State) : Host.Outcome State Fault Refusal :=
  match s.event with
  | some (.promotion d) => .next (s.promote d)
  | _ => .next s

/-! ### Release (R230, R231, R239, R389 to R392, R399) -/

/-- The lane of a tile as the offsets of the next superstep number it: words that have left go on (R93, R395). The release ck is
offset 0 of the new superstep, and `len` of the old. -/
def Tile.laneFrom (x : Tile) (len : Nat) : Tbl (BitVec 512 × Bool) :=
  (x.lane.filter (fun p => decide (len ≤ p.1))).map (fun p => (p.1 - len, p.2))

/-- A member at the release (R389 to R393, R399, R422): its `xsync` completes, its vote, sends and arming are cleared, its
shadow is emptied, and it takes a checkpoint. -/
def State.releaseTile (s : State) (d len : Nat) (t : TileId) : State :=
  let x := s.tile t
  let waits := match x.wait with
    | .barrier e _ => e == d
    | _ => false
  let h := if waits then x.h.advance else x.h
  let r := { x.r with h := h, voted := false, vote := 0 }
  s.setTile t { x with r := r, wait := if waits then .none else x.wait, armed := none, sends := [], recvs := [], xreds := [],
                       lane := x.laneFrom len, so := 0, taps := [], arrive := none, holds := [], shadow := [], journal := [],
                       checkpoint := some r }

/-- A slot that waits for the release of a barrier of the domain returns from `bar.wait` (R329), also while it is
suspended. -/
def State.releaseSlots (s : State) (d step : Nat) : State :=
  (s.slots.map (fun p => p.1)).foldl (fun (u : State) k =>
    let i := slotNo k
    let x := u.slot i
    match x.wait with
    | .barrier e b =>
      if e = d ∧ b < step then
        let pair := match x.pair with
          | some (e', b') => if e' = d then none else some (e', b')
          | none => none
        u.setSlot i { x with h := x.h.advance, pair := pair, wait := .none, st := if x.st == .waiting then .running else x.st }
      else u
    | _ => u) s

/-- Covered entries that served domain `d` under an open invalidation serve it no more (R38): an entry of the locked array
goes with the last domain that it serves. -/
def State.dropCovered (s : State) (d : Nat) (x : Domain) : State :=
  let stale (e : TlbEntry) : Bool := s.invals.any (fun v => v.2.phase != .block && v.2.coversEntry e)
  { s with
    tiles := s.tiles.map (fun p => if x.member p.1 then (p.1, { p.2 with rtlb := p.2.rtlb.filter (fun e => !stale e) }) else p)
    launches := s.launches.map (fun p =>
      let kept := p.2.locked.map (fun e => (e.1, e.2.1, e.2.2.map (fun l => l.filter (fun k => k != d))))
      (p.1, { p.2 with locked := kept.filter (fun e => e.2.2 != some []) })) }

/-- The domain at the opening of its next superstep (R230, R231, R397, R424, R425). -/
def Domain.opening (x : Domain) (live : List Nat) (vote : Nat) : Domain :=
  { x with
    step := x.step + 1
    off := 0
    lead := x.hlead
    pattern := vote
    arrived := []
    coreArr := x.coreArr.drop 1
    windows := x.windows.map (fun (w : Window) => { w with kept := false, stopped := none, posted := none })
    held := true
    heldCk := 0
    rollbacks := 0
    unprot := false
    releasing := false
    colTiles := live
    colDone := 0
    saved := x.preempt
    preempt := false
    xarr := x.xarr.filter (fun p => decide (x.step < p.2))
    xvote := 0
    xsent := false
    trel := none
    xheld := []
    xgo := [] }

/-- `BARRIER_RELEASE` (R230, R234, R239): windows that are still open close with the barrier, and the release reaches every
member in the same ck. A drain of the superstep that has not been delivered puts it off (R378). -/
def execBarrierRelease (s : State) : Host.Outcome State Fault Refusal :=
  match s.event with
  | some (.barrierRelease d) =>
    match s.domains.find d with
    | none => .next s
    | some x0 =>
      if x0.pent && x0.tiles.any (fun t => !(s.tile t).drains.isEmpty) then
        .next (if x0.xpkg then s.after 1 (.barrierRelease d) else s)
      else
      let s1 := (x0.windows.filter (fun w => w.isOpen)).foldl (fun u w => u.closeWindow d w.wid) s
      match s1.domains.find d with
      | none => .next s1
      | some x =>
        let vote := if x.xpkg then x.xresult else s1.localVote x
        let live := (x.tiles.filter (fun t => !(s1.tile t).ended)).map (fun t => t.val)
        let s2 := x.tiles.foldl (fun u t => u.releaseTile d (x.off + x.hlead) t) s1
        let s3 := (s2.setDomain d (x.opening live vote)).dropCovered d x
        .next (s3.releaseSlots d (x.step + 1))
  | _ => .next s

/-- The release of a barrier whose conditions hold: promotion, the drains of the superstep, and the release itself, once
every slice has reported (R76, R230, R378). -/
def State.closing (s : State) (d : Nat) (x : Domain) (now : Bool) : State :=
  if !s.promotable d then s
  else
    let s1 := if (s.tentLines d).isEmpty then s else s.post (.promotion d)
    let s2 := if x.pent then x.tiles.foldl (fun u t => (s.tile t).drains.foldl (fun v z =>
      (List.range z.nl).foldl (fun w k => w.post (.drainDelivery t z.seq k)) v) u) s1 else s1
    if now then s2.post (.barrierRelease d) else s2

end Sys2Proof.Machine
end

