-- ==== Sys2Proof/Machine/Recovery.lean ====
section
/-!
DEFINITION. Recovery (spec/12_faults_and_recovery.md R402, R410, R411, R416 to R418, R422 to R430): what becomes of a tile
fault, the rollback of a superstep, the loss of a collective member, the checker, and the failure of a mesh router.
-/
namespace Sys2Proof.Machine

/-! ### Tile faults (R402, R411, R422 to R426) -/

/-- What the command processor does for a tile fault (R402). -/
inductive Disposition where
  | service | rollback | lose
deriving DecidableEq, Repr

/-- The disposition of a cause and a syndrome on a tile (R402). -/
def disposition (f : FaultInfo) : Disposition :=
  if f.cause = 0x0A then (if f.synd = 9 then .lose else .service)
  else if f.cause = 0x0B then (if 1 ≤ f.synd ∧ f.synd ≤ 5 then .service else .lose)
  else if f.cause = 0x17 ∨ f.cause = 0x18 then .service
  else if f.cause = 0x11 ∨ f.cause = 0x13 ∨ f.cause = 0x15 ∨ f.cause = 0x16 then .rollback
  else .lose

/-- The fault is reported to the host, and the domain stays frozen; a queue that takes no record ends the launch (R411,
R463). Where the record's write waits, the fault is handled after the wait (R42, R43). -/
def State.service (s : State) (lid : Nat) (l : Launch) (t : TileId) (f : FaultInfo) : State :=
  match s.faultRecord l.home lid t (s.tileWord t) with
  | .ok true u =>
    (match u.domainOf t.val with
    | some (d, x) => u.setDomain d { x with frozen := true, service := true }
    | none => u)
  | .wait w u => u.after (u.delay w) (.tileFaultHandling t f)
  | _ => s.endOnFault lid (.tile t) f 1

/-- A launch ends on a tile fault. A fault with syndrome 0x9 first drops the domain's tentative lines and releases its pins,
so that the invalidation completes (R40, R426). -/
def State.endTile (s : State) (lid : Nat) (t : TileId) (f : FaultInfo) (reason : Nat) : State :=
  let s1 :=
    if f.cause = 0x0A ∧ f.synd = 9 then
      (match s.domainOf t.val with
        | some (d, x) =>
          let u : State := { s with tent := s.tent.filter (fun p => p.2.dom != d) }
          (x.tiles.foldl (fun v k => v.dropLands k) u).dropCovered d x
        | none => s)
    else s
  s1.endOnFault lid (.tile t) f reason

/-- Every window that is open at the freeze is journaled (R423). -/
def State.journalOpen (s : State) (d : Nat) (x : Domain) : State :=
  (x.windows.filter (fun (w : Window) => w.isOpen)).foldl (fun u w => u.journalWindow d w) s

/-- A rollback request (R422 to R426): the superstep rolls back, or the launch ends with the cause of the request. -/
def State.requestRollback (s : State) (lid : Nat) (t : TileId) (f : FaultInfo) : State :=
  match s.domainOf t.val with
  | none => s.endTile lid t f 1
  | some (d, x) =>
    if x.releasing then s.after 1 (.tileFaultHandling t f)
    else
      let s1 := s.journalOpen d x
      match s1.domains.find d with
      | none => s1
      | some y =>
        if !y.pent || y.unprot then s1.endTile lid t f 1
        else if f.cause = 0x11 ∧ s.skew = true then s1
        else if 3 ≤ y.rollbacks then s1.endTile lid t f 5
        else s1.post (.rollback d)

/-- `TILE_FAULT_HANDLING` (R402, R411): the command processor reports the frozen domain, rolls it back or ends its
launch. -/
def execTileFaultHandling (s : State) : Host.Outcome State Fault Refusal :=
  match s.event with
  | some (.tileFaultHandling t f) =>
    match (s.tile t).lid with
    | none => .next s
    | some lid =>
      match s.launches.find lid with
      | none => .next s
      | some l =>
        if l.fault.isSome || (s.tile t).wait != .stopped then .next s
        else match disposition f with
        | .service => .next (s.service lid l t f)
        | .rollback => .next (s.requestRollback lid t f)
        | .lose => .next (s.endTile lid t f 1)
  | _ => .next s

/-! ### Rollback (R422 to R424) -/

/-- A shadow line is written back to its place with its marks (R67, R422). -/
def State.restoreShadow (s : State) (t : TileId) (z : Shadow) : State :=
  if z.acc then
    let x := s.tile t
    let marks := (List.range 4).foldl (fun l k => if z.marks.getLsbD k then insertNat (4 * z.line + k) l else l)
      (x.accMarks.filter (fun g => g / 4 != z.line))
    s.setTile t { x with acc := x.acc.put z.line z.bytes, accMarks := marks }
  else
    let pa := tileBase t + 256 * z.line
    (s.write pa ((bytesOfNat 256 z.bytes.toNat).map some) none).setLineMarks pa z.marks

/-- The sequencer state of a checkpoint; the fault registers keep the last fault (R403, R422). -/
def TileRegs.restored (c now : TileRegs) : TileRegs := { c with h := { c.h with cause := now.h.cause, epc := now.h.epc } }

/-- One member in a rollback (steps 1 and 2 of R422): its engines are emptied, its shadow lines written back, and its
checkpoint restored; a tile that ended in this superstep runs again (R274). -/
def State.rollTile (s : State) (x : Domain) (t : TileId) : State :=
  let s1 := (s.dropTileEvents t).dropLands t
  let s2 := (s1.tile t).shadow.foldl (fun (u : State) z => u.restoreShadow t z) s1
  let y := s2.tile t
  s2.setTile t { y with
    r := match y.checkpoint with | some c => c.restored y.r | none => y.r
    running := y.running || (y.ended && x.colTiles.contains t.val)
    ended := y.ended && !x.colTiles.contains t.val
    wait := .none
    queue := []
    gangs := []
    flagged := 0
    drains := []
    sends := []
    recvs := []
    xreds := []
    lane := []
    so := 0
    taps := []
    arrive := none
    holds := []
    banks := []
    turn := 0
    armed := none
    port := []
    shadow := [] }

/-- A window at the repeat (R423): it is closed; a post that was accepted in this superstep is kept, and a delivery of this
superstep has not happened (R401). -/
def Window.again (w : Window) (step : Nat) : Window :=
  { w with
    isOpen := false
    stopped := none
    kept := w.posted.isSome && w.opensIn step
    delivered := if w.deliveredIn step then w.prior else w.delivered
    wrote := [] }

/-- The domain at the repeat of its superstep (steps 3 and 4 of R422, R424); a cross-package domain waits for its common
start (R413). -/
def Domain.again (x : Domain) : Domain :=
  { x with
    off := 0
    lead := x.hlead
    arrived := []
    windows := x.windows.map (fun (w : Window) => w.again x.step)
    held := true
    heldCk := 0
    frozen := false
    service := false
    rollbacks := x.rollbacks + 1
    releasing := false
    colDone := 0
    started := !x.xpkg
    startAt := none
    xarr := x.xarr.filter (fun p => decide (x.step < p.2))
    xvote := 0
    xsent := false
    trel := none
    xheld := []
    xgo := []
    xdata := [] }

/-- The event belongs to a run of a domain's superstep that is discarded. -/
def eventOfRun (d : Nat) : Event → Bool
  | .crossPackageRelease e => e == d
  | .phaseClockResume e => e == d
  | .domainStart e => e == d
  | .rollback e => e == d
  | e => eventDomain e == some d

/-- The rollback of a domain's superstep (R422). -/
def State.rollBack (s : State) (d : Nat) (x : Domain) : State :=
  let s1 := s.dropEvents (eventOfRun d)
  let s2 := x.tiles.foldl (fun u t => u.rollTile x t) s1
  let lines := s2.tentLines d
  let s3 : State := { s2 with tent := s2.tent.filter (fun p => p.2.dom != d) }
  let s4 := (s3.dropCovered d x).setDomain d x.again
  let s5 := lines.foldl (fun u l => u.answerKept l) s4
  if x.xpkg then s5.reportReady d x.again else s5

/-- The first member that a fault with this cause stopped. -/
def State.stoppedBy (s : State) (x : Domain) (cause : Nat) : Option TileId :=
  x.tiles.find? (fun t => (s.tile t).wait == .stopped && (s.tile t).lastFault.cause == cause)

/-- `ROLLBACK` (R422, R427, R439): the superstep rolls back. After the loss of a member the launch ends; after a link
failure the host is asked for service. -/
def execRollback (s : State) : Host.Outcome State Fault Refusal :=
  match s.event with
  | some (.rollback d) =>
    match s.domains.find d with
    | none => .next s
    | some x =>
      if x.releasing then .next (s.after 1 (.rollback d))
      else
        let s1 := s.rollBack d x
        match s.stoppedBy x 0x15, s.stoppedBy x 0x16 with
        | some t, _ => .next (s1.endOnFault x.lid (.tile t) (s.tile t).lastFault 1)
        | none, some t =>
          (match s1.launches.find x.lid with
            | some l =>
              .next ((s1.setTile t { s1.tile t with wait := .stopped }).service x.lid l t (s.tile t).lastFault)
            | none => .next s1)
        | none, none => .next s1
  | _ => .next s

/-- `COLLECTIVE_MEMBER_LOST` (R200, R427): every surviving member takes cause 0x15 at its next boundary, and no destination
of a collective is written any more. -/
def execCollectiveMemberLost (s : State) : Host.Outcome State Fault Refusal :=
  match s.event with
  | some (.collectiveMemberLost d) =>
    match s.domains.find d with
    | none => .next s
    | some x =>
      let live := x.tiles.filter (fun t => (s.tile t).lid.isSome)
      let mine (e : Event) : Bool := match e with
        | .collectiveComplete k _ => k == d
        | _ => false
      .next (live.foldl (fun u t => u.tileFault t { cause := 0x15, asy := true } (u.tile t).h.pc) (s.dropEvents mine))
  | _ => .next s

/-! ### An invalidation that waits for its own domain (R40) -/

/-- The invalidation that a waiting lookup waits for, with its address and access kind: the one named, or an earlier one,
since invalidations are acknowledged in the order of their arrival (R35). -/
def Wait.invalFrom (w : Wait) (id : Nat) : Option (Nat × Nat) :=
  match w with
  | .inval id' va kind => if id ≤ id' then Option.some (va, kind) else Option.none
  | _ => Option.none

/-- A member waits for an open invalidation whose drain its own domain holds open: with pentimento on the superstep rolls
back; otherwise the held tile takes a translation-not-present fault with syndrome 0x9. -/
def State.resolveDrain (s : State) (id : Nat) (v : Inval) (d : Nat) (x : Domain) : State :=
  if x.frozen || x.releasing || !s.domainHoldsDrain v d then s
  else match x.tiles.findSome? (fun t => ((s.tile t).wait.invalFrom id).map (fun w => (t, w))) with
  | none => s
  | some (t, va, kind) =>
    let s1 := s.journalOpen d x
    match s1.domains.find d with
    | none => s1
    | some y =>
      if y.pent && !y.unprot && decide (y.rollbacks < 3) then (s1.setDomain d { y with frozen := true }).post (.rollback d)
      else s1.tileFault t { cause := 0x0A, synd := 9, kind := kind, faddr := va } (s1.tile t).h.pc

/-! ### The checker (R416 to R418; log 17) -/

/-- A core stops on a second mismatch of one group (R418): its slots stop, the launches that hold its cluster end, and V of the
cluster's entry is cleared. -/
def State.stopCore (s : State) (i : SlotId) : State :=
  let c := coreOf i
  let f : FaultInfo := { cause := 0x12 }
  let y := s.slot i
  let s1 := s.setSlot i { y with raised := (s.time, s.ck), h := { y.h with
    cause := causeWord (causeTEN y.h.cause) (causeACT y.h.cause) (causeTVEC y.h.cause) f, epc := y.h.pc } }
  let s2 := (List.range 4).foldl (fun (u : State) k =>
    let j := slotOf c k
    if (u.slot j).st == .idle then u else u.setSlot j { u.slot j with st := .waiting, wait := .stopped }) s1
  let s3 := s2.setCore c { s2.core c with checking := [], stopped := true }
  let n := c.val / 8
  let s4 := (s3.launches.filter (fun p => p.2.st != .claiming && p.2.st != .suspended && p.2.hasCluster n)).foldl
    (fun (u : State) p => u.endOnFault p.1 (.slot i) f 2) s3
  { s4 with clmap := s4.clmap.put n (s4.clmapAt n &&& 0x7FFFFFFF#32) }

/-- `CHECKER_MISMATCH` (R417, R418): the group that the slot issues in this ck has no effect, and those after it are not issued;
the mismatch is found 6 ck later, and the group is issued again 12 ck after that; or, on its retry, the core stops. A slot that
waits has no group that is still to be checked (log 17). -/
def execCheckerMismatch (s : State) : Host.Outcome State Fault Refusal :=
  match s.event with
  | some (.checkerMismatch i) =>
    let c := coreOf i
    let x := s.core c
    if x.stopped then .next s
    else if numOf i ∈ x.checking then .next (s.stopCore i)
    else if (s.slot i).st == .running then
      let s1 := s.setCore c { x with checking := insertNat (numOf i) x.checking }
      .next (({ s1 with nretry := s1.nretry + 1 }.park (.slot i) (.retry (s.ck + 18))).after 18 (.checkerRetry i))
    else .next s
  | _ => .next s

/-- `CHECKER_RETRY` (R417): the group is issued again, and checked again 6 ck later. -/
def execCheckerRetry (s : State) : Host.Outcome State Fault Refusal :=
  match s.event with
  | some (.checkerRetry i) =>
    match (s.slot i).wait with
    | .retry _ => .next ((s.wake i).after 6 (.checkerPass i))
    | _ => .next (s.after 6 (.checkerPass i))
  | _ => .next s

/-- `CHECKER_PASS` (R416): the group has been checked. -/
def execCheckerPass (s : State) : Host.Outcome State Fault Refusal :=
  match s.event with
  | some (.checkerPass i) =>
    let x := s.core (coreOf i)
    .next (s.setCore (coreOf i) { x with checking := x.checking.erase (numOf i) })
  | _ => .next s

/-! ### Mesh routers (R89, R91, R428, R429) -/

/-- The logical cluster that holds a physical cluster, if any (R46). -/
def State.logicalOf (s : State) (phys : Nat) : Option Nat :=
  (List.range 128).find? (fun n => s.clusterPresent n && clmapPhys (s.clmapAt n) == phys)

/-- The launches that a test picks out end on a fault. -/
def State.endLaunches (s : State) (p : Launch → Bool) (who : Agent) (reason : Nat) : State :=
  (s.launches.filter (fun l => p l.2)).foldl (fun (u : State) l => u.endOnFault l.1 who { cause := 0 } reason) s

/-- The other packages of the cross-package domains learn that this one has failed (R439; log 131). -/
def State.alarmFatal (s : State) : State :=
  (s.domains.filter (fun p => p.2.xpkg)).foldl (fun u p => (u.peers p.2).foldl (fun v n => v.sendFlit n 0 (.alarm 2 0)) u) s

/-- The lines of a slice are lost (R428): those that were written since their fill leave values in memory that the spec does not
state (log 125), and tentative ones are gone. -/
def State.loseSlice (s : State) (k : Nat) : State :=
  let here (line : Nat) : Bool := sliceOf (256 * line) == k
  let lost := (s.lines.filter (fun p => here p.1 && p.2.dirty)).map (fun p => p.1)
  let s1 : State := { s with
    lines := s.lines.filter (fun p => !here p.1)
    gone := s.gone.filter (fun p => !here p.1)
    tent := s.tent.filter (fun p => !here (p.1 / 64)) }
  lost.foldl (fun u line =>
    let r := u.draw
    { r.1 with mem := memPut r.1.mem (256 * line) ((List.range 256).map (fun j => Config.byteAt r.2 j)) }) s1

/-- `MESH_ROUTER_FAILURE` (R428): a slice is lost and the package closes, or a cluster is lost and the mesh is rerouted. -/
def execMeshRouterFailure (s : State) : Host.Outcome State Fault Refusal :=
  match s.event with
  | some (.meshRouterFailure r) =>
    if 128 ≤ r ∨ s.routers.contains r = true then .next s
    else
      let s1 : State := { s with routers := insertNat r s.routers }
      if routerHasSlice r then
        .next { (s1.alarmFatal.endLaunches (fun _ => true) (.slot 0) 4).loseSlice ((routerSlice r).getD 0) with closed := true }
      else
        let s2 := match s1.logicalOf r with
          | none => s1
          | some n =>
            let u := s1.endLaunches (fun l => l.holds && l.hasCluster n) (.slot (slotOf (coreNo (8 * n)) 0)) 3
            { u with clmap := u.clmap.put n (u.clmapAt n &&& 0x7FFFFFFF#32) }
        .next ({ s2 with rerouting := true }.post (.meshReroute r))
  | _ => .next s

/-- The event is the arrival of a message that is in flight on the mesh or on the steal network: one that its place has refused
is not (R429). -/
def State.onMesh (s : State) (e : Event) : Bool :=
  match e with
  | .copyPiece p => ((s.pieces.find p).map (fun x => !x.arrived)).getD false
  | .piecePush .. => !s.resent e
  | .transactionBarrierUpdate .. => !s.resent e
  | .syncUpdate .. => true
  | .updateAcknowledgment .. => true
  | .responseArrival .. => true
  | .remotePaletteAccess _ => true
  | .windowPortServe _ => true
  | .windowPostArrival .. => true
  | .spawnArrival .. => true
  | .stealRequest _ => true
  | .stealReply .. => true
  | .commitFrontMessage .. => true
  | .pageWalk _ _ _ read => read != 0
  | _ => false

/-- Messages are in flight (R429): among the events to come, the steal requests that have not reached their victims, and the walks
of units. -/
def State.meshBusy (s : State) : Bool :=
  (s.agenda ++ s.timers.map (fun p => p.2)).any s.onMesh || s.cores.any (fun p => p.2.thieves.any (fun t => decide (s.ck < t.2)))
    || s.unitWalks.any (fun w => w.walk && decide (s.ck < w.ready))

/-- `MESH_REROUTE` (R429): once every message in flight has been delivered, the tables are rewritten and injection goes
on. -/
def execMeshReroute (s : State) : Host.Outcome State Fault Refusal :=
  match s.event with
  | some (.meshReroute r) =>
    if s.meshBusy then .next (s.after 1 (.meshReroute r))
    else .next { s.rewriteRoutes with rerouting := false, generation := s.generation + 1 }
  | _ => .next s

end Sys2Proof.Machine
end

