-- ==== Sys2Proof/Machine/Firmware.lean ====
section
/-!
DEFINITION. Boot and firmware (spec/13_links_and_host.md R465 to R469; spec/01_address_spaces.md R20, R46 to R49): the boot
ROM, recovery, attestation, writes to device registers and the power limit.
-/
namespace Sys2Proof.Machine

/-! ### The boot image (R465, R466) -/

/-- `n` bytes of an image from an offset; bytes past its end read as zero. -/
def imageBytes (img : List Byte) (off n : Nat) : List Byte := (List.range n).map (fun k => img.getD (off + k) 0)
/-- SVN of an image. -/
def imageSVN (img : List Byte) : Nat := natOfBytes (imageBytes img 0x08 8)
/-- The body of an image. -/
def imageBody (img : List Byte) : List Byte := (img.drop 0x4400).take (natOfBytes (imageBytes img 0x10 8))
/-- The RSA modulus of an image. -/
def imageRsaKey (img : List Byte) : List Byte := imageBytes img 0x100 384
/-- The SLH-DSA public key of an image. -/
def imageSlhKey (img : List Byte) : List Byte := imageBytes img 0x280 48
/-- The signed message M. -/
def imageMessage (img : List Byte) : List Byte := imageBytes img 0 0x300 ++ imageBody img

/-- The number of the first check that an image fails, or 0: 1 the magic number, 2 and 3 the fuse hashes of the keys, 4 and 5
the signatures, 6 the security version (R465, R466). -/
def Boot.failed (b : Boot) (img : List Byte) : Nat :=
  if natOfBytes (imageBytes img 0 4) != 0xB0D79200 then 1
  else if Config.sha384 (imageRsaKey img) != b.rsaHash then 2
  else if Config.sha384 (imageSlhKey img) != b.slhHash then 3
  else if !Config.rsaValid (imageRsaKey img) (imageMessage img) (imageBytes img 0x300 384) then 4
  else if !Config.slhValid (imageSlhKey img) (imageMessage img) (imageBytes img 0x480 16224) then 5
  else if imageSVN img < b.svnFuse ∨ 64 < imageSVN img then 6
  else 0

/-- The boot ROM at work (R465, R466): the image runs, or the package stays in recovery and reports the failing check. -/
def Boot.run (b : Boot) : Boot :=
  match b.failed b.flash with
  | 0 =>
    let block := Config.sha384 (imageMessage b.flash)
    { b with
      st := .running
      failing := 0
      svn := imageSVN b.flash
      romDigest := Config.romDigest
      measure := block
      aliasRsa := Config.aliasKey 0 block
      aliasSlh := Config.aliasKey 1 block
      response := none }
  | k => { b with st := .recovery, failing := k, romDigest := Config.romDigest, response := none }

/-- The second tier as firmware assigns it at boot (R13): each of the four Type 3 ports gets one contiguous range, a multiple of
512 MiB, in port order from 0x0000_1000_0000_0000 upward; the capacity of a port is a free value (log 92). -/
def secondTier : List (Nat × Nat) :=
  let size (k : Nat) : Nat := Config.tierUnits k * 0x20000000
  (List.range 4).map (fun k => (0x100000000000 + ((List.range k).map size).foldl (· + ·) 0, size k))

/-- The torus extents as firmware sets them at boot: each from 1 to 16, and free (R433; log 14). -/
def bootExtents : Nat × Nat × Nat :=
  let e (k : Nat) : Nat := Config.torusExtent k % 16 + 1
  (e 0, e 1, e 2)

/-- PX, PY and PZ as firmware sets them at boot: a place of the torus, and free (R203, R433; log 14). -/
def bootPlace : Nat × Nat × Nat :=
  (Config.torusPlace 0 % bootExtents.1, Config.torusPlace 1 % bootExtents.2.1, Config.torusPlace 2 % bootExtents.2.2)

/-- The scale-out job that firmware holds at the host's request (R450): the spec gives no interface for the request, so its rank
entries, with the mode, the MTU and the permitted ports of each, are free values of the boot (log 92). -/
def bootJob : Tbl Rank :=
  Config.jobRanks.foldl (fun (t : Tbl Rank) r =>
    t.put r.1 { addr := r.2.1, rod := r.2.2.1, size := if r.2.2.2.1 = 0 then .k2 else if r.2.2.2.1 = 1 then .k4 else .k8, ports := r.2.2.2.2 }) []

/-- The state that a package reset leaves (R465): that of `State.reset`, with flash and fuses, and with memory as it was (log
14); firmware that runs assigns the second tier (R13), sets the package's place in the torus (R203, R433) and holds the
scale-out job (R450). -/
def State.afterReset (s : State) : State :=
  { State.reset with
    mem := s.mem
    marks := s.marks
    tier2 := if s.boot.run.st == .running then secondTier else []
    pos := if s.boot.run.st == .running then bootPlace else s.pos
    extents := if s.boot.run.st == .running then bootExtents else s.extents
    job := if s.boot.run.st == .running then bootJob else s.job
    myRank := if s.boot.run.st == .running then Config.jobPlace else s.myRank
    boot := s.boot.run
    agenda := s.agenda
    event := s.event
    cur := s.cur
    fresh := s.fresh }

/-- `PACKAGE_RESET` (R465). -/
def execPackageReset (s : State) : Host.Outcome State Fault Refusal :=
  match s.event with
  | some .packageReset => .next s.afterReset
  | _ => .next s

/-- `RECOVERY_IMAGE_LOAD` (R466): in recovery, the flash accepts a new image. -/
def execRecoveryImageLoad (s : State) : Host.Outcome State Fault Refusal :=
  match s.event with
  | some (.recoveryImageLoad image) =>
    if s.boot.st == .recovery then .next { s with boot := { s.boot with flash := image } } else .next s
  | _ => .next s

/-- `SVN_RAISE` (R466): firmware raises the fused counter to the SVN of the image that runs. -/
def execSvnRaise (s : State) : Host.Outcome State Fault Refusal :=
  match s.event with
  | some .svnRaise =>
    if s.boot.st == .running then .next { s with boot := { s.boot with svnFuse := max s.boot.svnFuse s.boot.svn } } else .next s
  | _ => .next s

/-- The measurement blocks (R467): the ROM digest, SHA-384 of M, SVN with the fused counter, and the fuse configuration. -/
def Boot.blocks (b : Boot) : List (List Byte) :=
  [bytesOfNat 48 b.romDigest.toNat, bytesOfNat 48 b.measure.toNat, bytesOfNat 8 b.svn ++ bytesOfNat 8 b.svnFuse, bytesOfNat 8 b.fuses.toNat]

/-- The response to a request (R467): its bytes are those of SPDM over the measurement blocks, and the same transcript is signed
with each alias key (log 12). -/
def Boot.respond (b : Boot) (req : List Byte) : SpdmResponse :=
  let body := Config.spdm req b.blocks
  { body := body, rsaSig := Config.sign 0 b.aliasRsa (req ++ body), slhSig := Config.sign 1 b.aliasSlh (req ++ body) }

/-- `SPDM_REQUEST` (R467): the DOE mailbox answers with a doubly signed response over the measurement blocks. -/
def execSpdmRequest (s : State) : Host.Outcome State Fault Refusal :=
  match s.event with
  | some (.spdmRequest req) =>
    if s.boot.st == .running then
      .next { s with boot := { s.boot with response := some (s.boot.respond req) } }
    else .next s
  | _ => .next s

/-! ### Device registers (R20, R46 to R49) -/

/-- The physical address of the palettes of a physical cluster (R12, R15). -/
def clusterBase (phys : Nat) : Nat := 0x200000000000 + phys * 0x200000

/-- The address lies in the palettes of the physical cluster at `base`. -/
def inCluster (base x : Nat) : Bool := decide (base ≤ x) && decide (x < base + 0x200000)

/-- A physical address after the palettes at `a` have moved to `b`. -/
def movedPa (a b pa : Nat) : Nat := if inCluster a pa then pa - a + b else pa

/-- A buffered effect after the move. -/
def BufOp.moved (o : BufOp) (a b : Nat) : BufOp :=
  match o with
  | .store pa bytes page => .store (movedPa a b pa) bytes page
  | .atom pa op w x y page => .atom (movedPa a b pa) op w x y page

/-- A wait after the move. -/
def Wait.moved (w : Wait) (a b : Nat) : Wait :=
  match w with
  | .sync pa => .sync (movedPa a b pa)
  | w => w

/-- An update that is on its way goes to where its sync word is. -/
def movedEvent (a b : Nat) : Event → Event
  | .syncUpdate pa bytes arr err ui ack => .syncUpdate (movedPa a b pa) bytes arr err ui ack
  | e => e

/-- The signature of a task that has read a block which moves holds the block at its new place too (R49, R176). -/
def Slot.recordMoved (x : Slot) (a b : Nat) : Slot :=
  if x.spec == .speculative then
    ((List.range 32768).filter (fun k => x.sigHit (a / 64 + k))).foldl (fun y k => y.record (b / 64 + k)) x
  else x

/-- What names an address in the palettes at `a` names the same place at `b` (R49). -/
def State.readdress (s : State) (a b : Nat) : State :=
  { s with
    slots := s.slots.map (fun p => (p.1, { p.2.recordMoved a b with
      buf := p.2.buf.map (fun o => o.moved a b)
      wait := p.2.wait.moved a b }))
    reqs := s.reqs.map (fun q => (q.1, { q.2 with pa := movedPa a b q.2.pa }))
    pieces := s.pieces.map (fun p => (p.1, { p.2 with line := movedPa a b p.2.line }))
    claims := s.claims.map (fun p => (movedPa a b (64 * p.1) / 64, p.2))
    agenda := s.agenda.map (movedEvent a b)
    timers := s.timers.map (fun p => (p.1, movedEvent a b p.2)) }

/-- The eight palettes of a physical cluster copied to another, with their marks: firmware's step 4 of R49. -/
def State.movePalettes (s0 : State) (old new : Nat) : State :=
  if old = new then s0
  else
    let a := clusterBase old
    let b := clusterBase new
    let s := s0.readdress a b
    let inside := inCluster
    let cells := s.mem.filter (fun c => inside a c.1)
    let cleared := s.mem.filter (fun c => !inside b c.1)
    let marks := (s.marks.filter (fun g => !inside b (64 * g)))
    { s with
      mem := cells.foldl (fun m c => memWrite m (c.1 - a + b) c.2) cleared
      marks := (s.marks.filter (fun g => inside a (64 * g))).foldl (fun l g => insertNat (g - a / 64 + b / 64) l) marks }

/-- The slots of a logical cluster. -/
def clusterSlots (n : Nat) : List SlotId := (List.range 32).map (fun k => slotOf (coreNo (8 * n + k / 4)) (k % 4))

/-- A firmware write to CLMAP n (R46, R48, R49): DIE and PCL change only while CHG reads 1, and V stays 0 where a checker has
stopped a core of the cluster (R418). Firmware suspends the slots of
the cluster while CHG is 1, copies the palettes before DIE and PCL change, and resumes the slots afterwards. -/
def State.writeClmap (s : State) (n : Nat) (x : BitVec 32) : State :=
  let old := s.clmapAt n
  let place := if clmapChg old then bitsAt x 0 7 else bitsAt old 0 7
  let v := if s.cores.any (fun p => p.2.stopped && p.1 / 8 == n) then 0 else bitsAt x 31 1
  let new := BitVec.ofNat 32 (v * 2 ^ 31 + bitsAt x 30 1 * 2 ^ 30 + place)
  let s1 := if place != clmapPhys old then s.movePalettes (clmapPhys old) place else s
  let s2 : State := { s1 with clmap := s1.clmap.put n new }
  if !clmapChg old && clmapChg new then
    (clusterSlots n).foldl (fun (u : State) i =>
      let y := u.slot i
      if y.st == .idle || y.due.contains .preempt then u else u.setSlot i { y with due := y.due ++ [.preempt] }) s2
  else if clmapChg old && !clmapChg new then
    let s3 := (clusterSlots n).foldl (fun (u : State) i => if (u.slot i).st == .suspended then u.post (.resumption i) else u) s2
    (List.range 4096).foldl (fun (u : State) k =>
      if (u.slot (slotNo k)).wait == Wait.change then u.wake (slotNo k) else u) s3
  else s2

/-- `CLMAP_WRITE` (R48): a write of firmware, which must run (R466). -/
def execClmapWrite (s : State) : Host.Outcome State Fault Refusal :=
  match s.event with
  | some (.clmapWrite n x) => if n < 128 ∧ s.boot.st = .running then .next (s.writeClmap n x) else .next s
  | _ => .next s

/-- `REGISTER_WRITE` (R20): a write of firmware, which must run (R466). ASCTX takes its writable fields; a register that the spec
does not describe stops the model. -/
def execRegisterWrite (s : State) : Host.Outcome State Fault Refusal :=
  match s.event with
  | some (.registerWrite pa x) =>
    if s.boot.st ≠ .running then .next s
    else if 0x300000000000 ≤ pa ∧ pa < 0x300000000800 ∧ pa % 8 = 0 then
      .next { s with asctx := s.asctx.put ((pa - 0x300000000000) / 8) (x &&& 0xC00FFFFFFFFFFFFF#64) }
    else if 0x300000010000 ≤ pa ∧ pa < 0x300000010200 ∧ pa % 4 = 0 then
      .next (s.writeClmap ((pa - 0x300000010000) / 4) (x.setWidth 32))
    else .fault (.deviceRegister pa)
  | _ => .next s

/-- `POWER_LIMIT` (R469): firmware, once it runs (R466), lowers the issue duty of the cores first, and then raises throttle holds. -/
def execPowerLimit (s : State) : Host.Outcome State Fault Refusal :=
  match s.event with
  | some (.powerLimit n) =>
    if s.boot.st = .running then .next { s with duty := min n 3, throttle := min (n - 3) 2 } else .next s
  | _ => .next s

end Sys2Proof.Machine
end

