-- ==== Sys2Proof/Machine/Links.lean ====
section
/-!
DEFINITION. Timed links (spec/13_links_and_host.md R433 to R447; spec/04_copy_and_sync.md R155): flits received and sent,
replay, failed ports, domain time, and barriers, holds and set-up across packages. What leaves a port leaves the model.
-/
namespace Sys2Proof.Machine

/-! ### Receiving (R435, R436, R438) -/

/-- The flits still kept once the port's partner has acknowledged a SEQ. -/
def dropAcked (a : Nat) (l : List Flit) : List Flit :=
  if l.any (fun f => f.seq == a) then (l.dropWhile (fun f => f.seq != a)).drop 1 else l

/-- A port with the acknowledgment word of a flit that it received. -/
def LinkPort.acked (x : LinkPort) (f : Flit) : LinkPort :=
  match f.ack with
  | none => x
  | some a => { x with kept := dropAcked a x.kept, resend := dropAcked a x.resend }

/-- A flit that fails its CRC (`bad`) or is out of turn is discarded (R438): each that fails asks the neighbour for a replay, and
so does the first that is out of turn. -/
def State.discardFlit (s : State) (p : Nat) (bad : Bool) : State :=
  let x := s.linkPort p
  if x.discarding && !bad then s
  else (s.setPort p { x with discarding := true }).enqueueFlit p
    { domn := 0, seq := 0, dst := s.neighbour (p / 2), src := s.here, slot := s.time / 10 % 2 ^ 18, ack := none, body := .retry x.expect }

/-- A flit is received at a port: discarded, passed on to its destination, or delivered here (R437, R438). -/
def State.receiveFlit (s : State) (p : Nat) (f : Flit) (ok : Bool) (k : State → State) : State :=
  let x := s.linkPort p
  if 12 ≤ p || x.failed then s
  else if !ok || f.seq != x.expect then s.discardFlit p (!ok)
  else
    let s1 := s.setPort p ({ x with expect := (x.expect + 1) % 4096, discarding := false }.acked f)
    match f.body with
    | .retry _ => k s1
    | _ => if f.dst = s.here then k s1 else s1.forward f

/-- The cross-package domains whose member box holds this package and a package. -/
def State.sharedDomains (s : State) (src : Nat) : List (Nat × Domain) :=
  s.domains.filter (fun p => p.2.xpkg && p.2.inBox src)

/-- `IDLE_FLIT` (R436): only its acknowledgment word counts (log 30). -/
def execIdleFlit (s : State) : Host.Outcome State Fault Refusal :=
  match s.event with
  | some (.idleFlit p f ok) =>
    if 12 ≤ p then .next s
    else if ok then .next (s.setPort p ((s.linkPort p).acked f)) else .next (s.discardFlit p true)
  | _ => .next s

/-- Collective data reaches its domain: the collectives that it completes are scheduled (R397, R436). -/
def State.takeData (s : State) (d : Nat) (x : Domain) (e : Nat × Nat × Nat × List Byte) : State :=
  if e.2.2.1 / 2 ^ 42 != d then s
  else
    let s1 := s.setDomain d { x with xdata := x.xdata ++ [e] }
    let n := (x.colTiles.map (fun t => (s.tile (Fin.ofNat 128 t)).xreds.length)).foldl max 0
    ((List.range n).filter (fun k => decide (x.colDone ≤ k) && (s.contributions d x k).isNone)).foldl
      (fun u k => u.scheduleCollective d k (48 * s.hops (pkgPos e.1) s.pos + 2)) s1

/-- `DATA` (R436). -/
def execData (s : State) : Host.Outcome State Fault Refusal :=
  match s.event with
  | some (.data p f ok) =>
    .next (s.receiveFlit p f ok fun u =>
      match f.body with
      | .data tag pos bytes => (u.sharedDomains f.src).foldl (fun v q => v.takeData q.1 q.2 (f.src, tag, pos, bytes)) u
      | _ => u)
  | _ => .next s

/-- A barrier payload of another package for a superstep (R444, R447): it counts in that superstep, and waits for it where the
domain has not come to it yet. -/
def State.inStep (s : State) (src d : Nat) (b : FlitBody) (st : Nat) (k : Domain → Domain) : State :=
  match s.domains.find d with
  | some x =>
    if !x.xpkg then s
    else if st = x.step then s.setDomain d (k x)
    else if x.step < st then { s with early := s.early ++ [(src, d, b)] } else s
  | none => s

/-- ARRIVE of a child of the gather tree, with the largest vote that it has seen (R444). -/
def Domain.takeArrive (x : Domain) (src st vote : Nat) : Domain :=
  if x.xarr.contains (src, st) then x else { x with xarr := x.xarr ++ [(src, st)], xvote := max x.xvote vote }

/-- A barrier payload of another package: ARRIVE, HOLD or GO (R444, R447). -/
def State.takeStep (s : State) (src d : Nat) (b : FlitBody) : State :=
  match b with
  | .arrive st vote _ => s.inStep src d b st (fun x => x.takeArrive src st vote)
  | .hold st o => s.inStep src d b st (fun x => { x with xheld := x.xheld ++ [(src, o)] })
  | .go st o tgo => s.inStep src d b st (fun x => { x with xgo := x.xgo ++ [(src, o, tgo)] })
  | _ => s

/-- `ARRIVE` (R444): a child of the gather tree has arrived. -/
def execArrive (s : State) : Host.Outcome State Fault Refusal :=
  match s.event with
  | some (.arrive p f ok) => .next (s.receiveFlit p f ok fun u => u.takeStep f.src f.domn f.body)
  | _ => .next s

/-- RELEASE at a package (R444): it goes on down the tree, and promotion starts; a release whose time has passed is
counted. -/
def State.takeRelease (s : State) (d : Nat) (x : Domain) (vote trel : Nat) : State :=
  let s1 := s.setDomain d { x with trel := some trel, xresult := vote, releasing := true }
  let s2 := (s1.childrenOf x).foldl (fun u n => u.sendFlit n d (.release x.step vote trel)) s1
  let s3 := s2.startPromotion d
  if trel < s.time then ({ s3 with lateReleases := s3.lateReleases + 1 } : State) else s3

/-- `RELEASE` (R444). -/
def execRelease (s : State) : Host.Outcome State Fault Refusal :=
  match s.event with
  | some (.release p f ok) =>
    .next (s.receiveFlit p f ok fun u =>
      match f.body, u.domains.find f.domn with
      | .release st vote trel, some x =>
        if x.xpkg && st == x.step && x.trel.isNone then u.takeRelease f.domn x vote trel else u
      | _, _ => u)
  | _ => .next s

/-- `CROSS_PACKAGE_RELEASE` (R444): the barrier is released to the members, once every slice has reported. -/
def execCrossPackageRelease (s : State) : Host.Outcome State Fault Refusal :=
  match s.event with
  | some (.crossPackageRelease d) =>
    match s.domains.find d with
    | none => .next s
    | some x =>
      if s.promotable d then .next ((s.setDomain d { x with trel := none }).closing d x true)
      else .next (s.after 1 (.crossPackageRelease d))
  | _ => .next s

/-- Every arrival of barrier `s` at this package is in (R444): its ARRIVE goes to its parent; the root sends RELEASE. -/
def State.sendArrive (s : State) (d : Nat) (x : Domain) : State :=
  let vote := max x.xvote (s.localVote x)
  match s.parentOf x with
  | some n =>
    (s.setDomain d { x with xsent := true, xvote := vote }).sendFlit n d (.arrive x.step vote (s.packagesBelow x))
  | none => (s.setDomain d { x with xsent := true, xvote := vote }).takeRelease d { x with xsent := true, xvote := vote } vote
      (s.time + 48 * x.reach + 40)

/-! ### Holds (R447) -/

/-- `HOLD` (R447). -/
def execHold (s : State) : Host.Outcome State Fault Refusal :=
  match s.event with
  | some (.hold p f ok) => .next (s.receiveFlit p f ok fun u => u.takeStep f.src f.domn f.body)
  | _ => .next s

/-- `GO` (R447). -/
def execGo (s : State) : Host.Outcome State Fault Refusal :=
  match s.event with
  | some (.go p f ok) => .next (s.receiveFlit p f ok fun u => u.takeStep f.src f.domn f.body)
  | _ => .next s

/-- A HOLD of this package goes to every member package (R447). -/
def State.sendHold (s : State) (d o : Nat) : State :=
  match s.domains.find d with
  | none => s
  | some x =>
    (s.peers x).foldl (fun u n => u.sendFlit n d (.hold x.step o)) (s.setDomain d { x with xheld := x.xheld ++ [(s.here, o)] })

/-- A GO of this package goes to every member package (R447). -/
def State.sendGo (s : State) (d o : Nat) : State :=
  match s.domains.find d with
  | none => s
  | some x =>
    let tgo := s.time + x.hlead
    (s.peers x).foldl (fun u n => u.sendFlit n d (.go x.step o tgo)) (s.setDomain d { x with xgo := x.xgo ++ [(s.here, o, tgo)] })

/-- The phase clock of a cross-package domain stands at an offset for which HOLDs have come (R447). -/
def Domain.stops (x : Domain) : Bool := x.lead == 0 && x.xheld.any (fun h => h.2 == x.off)

/-- The GOs of every package that held an offset have come, and domain time has reached the largest TGO (R447). -/
def State.mayResume (s : State) (x : Domain) : Bool :=
  let go (h : Nat × Nat) : Option (Nat × Nat × Nat) := x.xgo.find? (fun g => g.1 == h.1 && g.2.1 == h.2)
  (x.xheld.filter (fun h => h.2 == x.off)).all (fun h =>
    decide ((x.xheld.filter (fun z => z == h)).length ≤ (x.xgo.filter (fun g => g.1 == h.1 && g.2.1 == h.2)).length)
      && ((go h).map (fun g => decide (g.2.2 ≤ s.time))).getD false)
    && (x.xgo.filter (fun g => g.2.1 == x.off)).all (fun g => decide (g.2.2 ≤ s.time))

/-- `PHASE_CLOCK_RESUME` (R447). -/
def execPhaseClockResume (s : State) : Host.Outcome State Fault Refusal :=
  match s.event with
  | some (.phaseClockResume d) =>
    match s.domains.find d with
    | none => .next s
    | some x =>
      if s.mayResume x then
        .next (s.setDomain d { x with xheld := x.xheld.filter (fun h => h.2 != x.off), xgo := x.xgo.filter (fun g => g.2.1 != x.off) })
      else .next s
  | _ => .next s

/-! ### Domain time (R440 to R442) -/

/-- The packages of the torus (R433). -/
def State.torus (s : State) : List Nat :=
  (List.range 4096).filter (fun n => let p := pkgPos n
    decide (p.1 < s.extents.1) && decide (p.2.1 < s.extents.2.1) && decide (p.2.2 < s.extents.2.2))

/-- The time master: the live package with the lowest z, then y, then x (R440). -/
def State.master (s : State) : Option Nat := s.torus.find? (fun n => !s.lostPkgs.contains n)

/-- The parent of this package: the next on the route to the master (R440). -/
def State.timeParent (s : State) : Option Nat :=
  match s.master with
  | some m => if m = s.here then none else (s.routeDir m).map s.neighbour
  | none => none

/-- `TIME_MEASUREMENT` (R441). -/
def execTimeMeasurement (s : State) : Host.Outcome State Fault Refusal :=
  match s.event with
  | some .timeMeasurement =>
    match s.inTorus, s.timeParent with
    | true, some n => .next (s.sendFlit n 0 (.time s.time none none))
    | _, _ => .next s
  | _ => .next s

/-- The skew alarm becomes active (R442): the other packages are told, the domains freeze, and the counter steps to the
parent's time, once. -/
def State.raiseSkew (s : State) (offset : Int) : State :=
  let ds := s.domains.filter (fun p => p.2.xpkg)
  let s1 := ds.foldl (fun u p => (u.peers p.2).foldl (fun v n => v.sendFlit n 0 (.alarm 1 0)) u) s
  let s2 := ds.foldl (fun u p => u.faultMembers p.2 { cause := 0x11 }) s1
  { s2 with skew := true, good := 0, slew := 0, time := ((s2.time : Int) + offset).toNat }

/-- The tiles that a skew fault stopped have it handled once the alarm has cleared (R442). -/
def State.endSkew (s : State) : State :=
  (List.finRange 128).foldl (fun (u : State) t =>
    let x := u.tile t
    if x.wait == .stopped && x.lastFault.cause == 0x11 then u.post (.tileFaultHandling t x.lastFault) else u)
    { s with skew := false, good := 0 }

/-- A measurement of the offset to the parent (R441, R442). -/
def State.measured (s : State) (offset : Int) : State :=
  if !s.skew && decide (10 < offset.natAbs) then s.raiseSkew offset
  else
    let s1 := { s with slew := offset }
    if !s.skew then s1
    else if 3 < offset.natAbs then { s1 with good := 0 }
    else if 15 ≤ s.good then s1.endSkew
    else { s1 with good := s.good + 1 }

/-- `TIME` (R441): a request is answered; at the child an answer gives the offset. -/
def execTime (s : State) : Host.Outcome State Fault Refusal :=
  match s.event with
  | some (.time p f ok) =>
    .next (s.receiveFlit p f ok fun u =>
      match f.body with
      | .time t1 (some t2) (some t3) =>
        u.measured ((((t2 : Int) - t1) - ((u.time : Int) - t3)) / 2)
      | .time t1 _ _ => u.sendFlit f.src 0 (.time t1 (some u.time) (some u.time))
      | _ => u)
  | _ => .next s

/-! ### Replay, alarms and failures (R438, R439, R442) -/

/-- The flits kept from a SEQ on. -/
def keptFrom (n : Nat) (l : List Flit) : List Flit := l.dropWhile (fun f => f.seq != n)

/-- `RETRY` (R438, R439): the flits kept from the named SEQ are sent again; after 16 retries of one SEQ the port fails. -/
def execRetry (s : State) : Host.Outcome State Fault Refusal :=
  match s.event with
  | some (.retry p f ok) =>
    .next (s.receiveFlit p f ok fun u =>
      match f.body with
      | .retry n =>
        let x := u.linkPort p
        let count := if x.retries.1 = n then x.retries.2 + 1 else 1
        let u1 := u.setPort p { x with resend := keptFrom n x.kept, retries := (n, count) }
        if 16 ≤ count then u1.post (.portFailure p) else u1
      | _ => u)
  | _ => .next s

/-- A package is lost (R439): its members are lost to every domain with members on it (R427). -/
def State.losePackage (s : State) (n : Nat) : State :=
  (s.sharedDomains n).foldl (fun u p => u.post (.collectiveMemberLost p.1)) { s with lostPkgs := insertNat n s.lostPkgs }

/-- The members of the domains that a lost link touches take a link-failure fault (R439). -/
def State.linkFaults (s : State) (ds : List (Nat × Domain)) : State :=
  ds.foldl (fun u p => u.faultMembers p.2 { cause := 0x16, asy := true }) s

/-- The links of a list are lost (R439): firmware recomputes routes and HLEAD, and the members of the domains whose routes or trees
used the link of direction `dir` of `pkg` take a link-failure fault. -/
def State.loseLink (s : State) (pkg dir : Nat) : State :=
  let used := s.domains.filter (fun d => d.2.xpkg && s.usesLink d.2 pkg dir)
  let s1 := ({ s with lostLinks := s.lostLinks ++ (s.bothEnds pkg dir).filter (fun l => !s.lostLinks.contains l) } : State).linkFaults used
  { s1 with domains := s1.domains.map (fun d => (d.1, { d.2 with hlead := s1.hleadOf d.2 })) }

/-- `ALARM` (R439, R442). -/
def execAlarm (s : State) : Host.Outcome State Fault Refusal :=
  match s.event with
  | some (.alarm p f ok) =>
    .next (s.receiveFlit p f ok fun u =>
      match f.body with
      | .alarm 1 _ => (u.sharedDomains f.src).foldl (fun v q => v.faultMembers q.2 { cause := 0x11 }) u
      | .alarm 2 _ => u.losePackage f.src
      | .alarm 3 dir => u.loseLink f.src dir
      | _ => u)
  | _ => .next s

/-- A port that takes over the traffic of the other of its link (R439): what that one keeps is sent again first, from the oldest,
under the SEQ numbers of this one, and what waits there is put in line before its own. -/
def LinkPort.takeOver (y x : LinkPort) : LinkPort :=
  let moved := x.kept.zipIdx.map (fun p => { p.1 with seq := (y.nextSeq + p.2) % 4096 })
  { y with
    outq := Vector.ofFn (fun (k : Fin 4) => x.outq.toList.getD k.val [] ++ y.outq.toList.getD k.val [])
    kept := y.kept ++ moved
    resend := y.resend ++ moved
    nextSeq := (y.nextSeq + x.kept.length) % 4096 }

/-- `PORT_FAILURE` (R439): the traffic moves to the other port of the link; with both failed the link is lost, and a package
without a live link is lost. -/
def execPortFailure (s : State) : Host.Outcome State Fault Refusal :=
  match s.event with
  | some (.portFailure p) =>
    if 12 ≤ p ∨ (s.linkPort p).failed = true then .next s
    else
      let x := s.linkPort p
      let q := p ^^^ 1
      let y := s.linkPort q
      let s1 := s.setPort p { LinkPort.reset with failed := true, counted := x.counted }
      if !y.failed then .next (s1.setPort q (y.takeOver x))
      else
        let dir := p / 2
        let ds := s1.domains.filter (fun d => d.2.xpkg)
        let s3 := ds.foldl (fun u d => (u.peers d.2).foldl (fun v n => v.sendFlit n 0 (.alarm 3 dir)) u) s1
        let s5 := s3.loseLink s.here dir
        if (List.range 12).any (fun k => s5.dirUsed (k / 2) && !(s5.linkPort k).failed) then .next s5
        else .next (ds.foldl (fun u d => u.post (.collectiveMemberLost d.1)) s5)
  | _ => .next s

/-! ### Set-up and resumption (R413, R443) -/

/-- Two entries agree on what a domain record compares (R443). -/
def entriesAgree (a b : Vector Word 4) : Bool :=
  bitsAt a[3] 24 40 == bitsAt b[3] 24 40 && bitsAt a[0] 60 3 == bitsAt b[0] 60 3 && bitsAt a[0] 32 16 == bitsAt b[0] 32 16

/-- The domain record of another package (R443): it matches, or it rejects the launch that waits for it. -/
def State.takeRecord (s : State) (src d : Nat) (x : Domain) (l : Launch) (ent : Vector Word 4) : State :=
  if entriesAgree ent x.ent then
    (s.setDomain d { x with xrec := insertNat src x.xrec }).post (.launchClaim x.lid)
  else s.failLaunch x.lid l (0x07, d)

/-- Another package reports that it is ready to start a superstep (R413, R443); one that has rolled back makes this package
roll back the same superstep (R422), whose open windows are journaled at the freeze (R423). -/
def State.takeReady (s : State) (src d : Nat) (x : Domain) (t : Nat) : State :=
  let y := { x with xready := insertNat src x.xready, xwhen := max x.xwhen t }
  let s1 := s.setDomain d y
  if !x.started then s1
  else
    let s2 := s1.journalOpen d y
    match s2.domains.find d with
    | none => s2
    | some z =>
      if z.pent && !z.unprot then (s2.setDomain d { z with frozen := true }).post (.rollback d)
      else s2.post (.collectiveMemberLost d)

/-- A CONTROL payload of another package meets its domain, or waits for it. -/
def State.takeControl (s : State) (src d : Nat) (b : FlitBody) : State :=
  let later : State := { s with early := s.early ++ [(src, d, b)] }
  match s.domains.find d with
  | none => later
  | some x =>
    match s.launches.find x.lid with
    | none => later
    | some l =>
      match b with
      | .record ent => if l.st == .loading && x.xpkg && x.inBox src then s.takeRecord src d x l ent else later
      | .ready n t =>
        if l.st == .running && x.xpkg && x.inBox src && !x.saved && n == x.step then s.takeReady src d x t
        else if x.step < n || l.st != .running || x.saved then later
        else s
      | _ => s

/-- The payloads that wait for their domain or their superstep are tried again. -/
def State.retryControl (s : State) : State :=
  s.early.foldl (fun (u : State) e =>
    match e.2.2 with
    | .record _ => u.takeControl e.1 e.2.1 e.2.2
    | .ready .. => u.takeControl e.1 e.2.1 e.2.2
    | b => u.takeStep e.1 e.2.1 b) { s with early := [] }

/-- `CONTROL` (R413, R443). -/
def execControl (s : State) : Host.Outcome State Fault Refusal :=
  match s.event with
  | some (.control p f ok) => .next (s.receiveFlit p f ok fun u => u.takeControl f.src f.domn f.body)
  | _ => .next s

/-- The common start of a domain, once all its packages are ready (R413, R443): the first domain time that is a multiple of
2^20 and follows the last of the times at which they reported it, which every package takes from their READY (log 110). -/
def State.agreeStart (s : State) (d : Nat) (x : Domain) : State :=
  if x.xpkg && !x.started && x.startAt.isNone && !x.saved && (s.peers x).all x.xready.contains then
    s.setDomain d { x with startAt := some ((x.xwhen / 2 ^ 20 + 1) * 2 ^ 20) }
  else s

/-! ### Updates and reserved flits (R155, R436) -/

/-- `UPDATE` (R155): the update goes to the barrier's slice. -/
def execUpdate (s : State) : Host.Outcome State Fault Refusal :=
  match s.event with
  | some (.update p f ok) =>
    .next (s.receiveFlit p f ok fun u =>
      match f.body with
      | .update pa bytes arr err => u.post (.transactionBarrierUpdate pa bytes arr err none)
      | _ => u)
  | _ => .next s

/-- `RESERVED_FLIT` (R436): the flit is discarded and counted; no replay follows. -/
def execReservedFlit (s : State) : Host.Outcome State Fault Refusal :=
  match s.event with
  | some (.reservedFlit p f ok) =>
    if ok then
      .next (s.receiveFlit p { f with dst := s.here } ok fun u =>
        let x := u.linkPort p
        u.setPort p { x with counted := x.counted + 1 })
    else .next (s.discardFlit p true)
  | _ => .next s

/-! ### Sending (R434, R437, R438) -/

/-- The next flit of a port by class (R437): the class, and what is left. -/
def takeClass (q : Vector (List Flit) 4) : Option (Flit × Vector (List Flit) 4) :=
  (List.finRange 4).findSome? (fun k =>
    match q[k] with
    | f :: r => some (f, q.set k.val r)
    | [] => none)

/-- The payload of a flit that leaves its source at a domain time: TIME carries the time at which it leaves (R441). -/
def leavingBody (b : FlitBody) (now : Nat) : FlitBody :=
  match b with
  | .time _ none _ => .time now none none
  | .time t1 (some t2) _ => .time t1 (some t2) (some now)
  | b => b

/-- A flit that leaves a port: one of this package carries the slot of its departure (R435, R441). -/
def leavingFlit (f : Flit) (here now : Nat) : Flit :=
  if f.src = here then { f with slot := now / 10 % 2 ^ 18, body := leavingBody f.body now } else f

/-- One flit position of a port: a flit sent again, a new flit kept until it is acknowledged, or an idle flit. -/
def LinkPort.send (x : LinkPort) (here now : Nat) : LinkPort :=
  match x.resend with
  | _ :: r => { x with resend := r }
  | [] =>
    if 2048 ≤ x.kept.length then x
    else match takeClass x.outq with
    | some (f, q) =>
      let g : Flit := { leavingFlit f here now with seq := x.nextSeq, ack := some ((x.expect + 4095) % 4096) }
      { x with outq := q, kept := x.kept ++ [g], nextSeq := (x.nextSeq + 1) % 4096 }
    | none => x

/-- `LINK_SLOT` (R434): every live port of a used link sends 6 flits. -/
def execLinkSlot (s : State) : Host.Outcome State Fault Refusal :=
  match s.event with
  | some .linkSlot =>
    .next { s with ports := Vector.ofFn (fun (p : Fin 12) =>
      let x := s.ports[p]
      if x.failed || !s.dirUsed (p.val / 2) then x
      else (List.range 6).foldl (fun y _ => y.send s.here s.time) x) }
  | _ => .next s

end Sys2Proof.Machine
end

