-- ==== Sys2Proof/Machine/Scaleout.lean ====
section
/-!
DEFINITION. Ultra Ethernet and remote copies (spec/13_links_and_host.md R448 to R453; spec/04_copy_and_sync.md R147;
spec/16_programs_faults_in_flight.md R489). Packets that a port sends leave the model; acknowledgments and packets of other packages
come as events.
-/
namespace Sys2Proof.Machine

/-! ### Ports (R448, R452) -/

/-- A port by number: 0 is A, 1 is B. -/
def State.uePort (s : State) (p : Nat) : UePort := s.ue.toList.getD p { lost := [], links := [], training := false }
/-- The state with a port replaced. -/
def State.setUe (s : State) (p : Nat) (x : UePort) : State := { s with ue := s.ue.setIfInBounds p x }

/-- The lanes that a port uses (R448, R452): 16, 8 of one link, or 4 of one group of it. -/
def UePort.lanes (x : UePort) : List Nat :=
  match x.links with
  | [] => []
  | [l] =>
    let group (g : Nat) : List Nat := (List.range 4).map (fun k => 8 * l + 4 * g + k)
    let whole (g : Nat) : Bool := !(group g).any x.lost.contains
    if whole 0 && whole 1 then group 0 ++ group 1 else if whole 0 then group 0 else if whole 1 then group 1 else []
  | _ => List.range 16

/-- A port is live. -/
def State.ueLive (s : State) (p : Nat) : Bool := !(s.uePort p).lanes.isEmpty

/-! ### Remote copies (R137, R451) -/

/-- PORT of a block. -/
def Copy.portField (c : Copy) : Nat := bitsAt (c.w 0) 43 2
/-- RPKG. -/
def Copy.rpkg (c : Copy) : Nat := bitsAt (c.w 5) 0 32
/-- The copy has taken a port and a PDC. -/
def Copy.onPort (c : Copy) : Bool := c.kind == .remote && c.pdc.isSome

/-- The bytes queued on a port. -/
def State.queued (s : State) (p : Nat) : Nat :=
  ((s.copies.filter (fun q => q.2.onPort && q.2.port == p && q.2.stop.isNone)).map (fun q => q.2.total - q.2.sent)).foldl (· + ·) 0

/-- The payload of a packet in bytes (R449). -/
def Rank.mtu (r : Rank) : Nat :=
  match r.size with
  | .k2 => 2048
  | .k4 => 4096
  | .k8 => 8192

/-- A port that a rank permits (R450). -/
def Rank.permits (r : Rank) (p : Nat) : Bool := r.ports.getLsbD p

/-- The port of a copy at issue (R451): the one that PORT names, or the live one with fewer bytes queued, A on a tie. -/
def State.choosePort (s : State) (c : Copy) (r : Rank) : Option Nat :=
  let ok (p : Nat) : Bool := r.permits p && s.ueLive p
  match c.portField with
  | 1 => if ok 0 then some 0 else none
  | 2 => if ok 1 then some 1 else none
  | _ =>
    if ok 0 && ok 1 then some (if s.queued 1 < s.queued 0 then 1 else 0)
    else if ok 0 then some 0 else if ok 1 then some 1 else none

/-- A new PDC for a rank, a port and a mode. -/
def State.newPdc (s : State) (rank port : Nat) (rod : Bool) : State × Nat :=
  let k := s.pdcs.foldl (fun m p => max m (p.1 + 1)) 0
  let x : Pdc := { rank := rank, port := port, rod := rod, next := 0, cum := 0, acked := [], pkts := [], tries := 0, since := s.ck, sentAt := s.ck }
  ({ s with pdcs := s.pdcs.put k x }, k)

/-- A PDC for a rank, a port and a mode (R451); a new one if there is none. -/
def State.pdcFor (s : State) (rank port : Nat) (rod : Bool) : State × Nat :=
  match s.pdcs.find? (fun p => p.2.rank == rank && p.2.port == port && p.2.rod == rod) with
  | some (k, _) => (s, k)
  | none => s.newPdc rank port rod

/-- The packets of a copy (R451). -/
def packetsOf (total mtu : Nat) : Nat := if total = 0 then 1 else cdiv total (max 1 mtu)

/-- The parts of a range that stay within one 256-byte line. -/
def lineRuns (va n : Nat) : List (Nat × Nat) :=
  if n = 0 then [] else (List.range ((va + n - 1) / 256 - va / 256 + 1)).map (fun k =>
    let a := max va ((va / 256 + k) * 256)
    (a, min (va + n) ((va / 256 + k + 1) * 256) - a))

/-- What forming a packet comes to; `sent` is a read that a place refused, for which the event comes again. -/
inductive Formed where
  | ok (bytes : List Byte) (marked : Bool) (s : State)
  | fault (code cause synd : Nat)
  | later (n : Nat) (s : State)
  | sent (s : State)

/-- The source bytes of a packet, translated page by page through the sending core's context (R451); a refused read is sent
again (R78). -/
def State.formPacket (s : State) (e : Event) (c : Copy) : List (Nat × Nat) → List Byte → Bool → Formed
  | [], acc, m4 => .ok acc m4 s
  | (va, n) :: t, acc, m4 =>
    match s.copySource c (va % 2 ^ 64) n with
    | .fault code cause synd => .fault code cause synd
    | .later k u => .later k u
    | .ok d u =>
      match u.answer (.event e) d n false with
      | .refuse h resv => .sent (u.refuseEvent e d.pa d.page h resv)
      | .serve =>
        let k := u.takeBanks (.event e) d.pa n
        if !k.1 || u.portBusy d n then .later 1 k.2
        else
          let v := (k.2.takePort d n).closeReq (.event e) d.pa
          v.formPacket e c t (acc ++ v.read d.pa n) (m4 || v.marked d.pa n)

/-- A PDC's timers begin again (R453): 64 µs and 2 ms. -/
def State.armPdc (s : State) (k : Nat) : State := (s.rearm 160000 (.uetReplayTimeout k)).rearm 5000000 (.uetGiveUp k)

/-- A PDC with nothing in flight has no timers. -/
def State.stopPdc (s : State) (k : Nat) : State :=
  s.dropEvents (fun e => match e with
    | .uetReplayTimeout j => j == k
    | .uetGiveUp j => j == k
    | _ => false)

/-- A copy that stops on a transport error at a byte (R450, R453). -/
def Copy.lose (c : Copy) (prog : Nat) : Copy := c.stopAt ⟨0x08, 0x1C, 0, 0, prog⟩

/-- A copy ends on a transport error, which the dump reports (R432, R450, R453). -/
def State.failCopy (s : State) (id : Nat) (c : Copy) (prog : Nat) : State :=
  ({ s with transport := s.transport ++ if c.stop.isNone then [(c.slot.val, c.rpkg, prog)] else [] } : State).setCopy id (c.lose prog)

/-- The port of a copy: the one it is on, or the one that it takes at issue. -/
def State.portOfCopy (s : State) (c : Copy) (r : Rank) : Option Nat := if c.onPort then some c.port else s.choosePort c r

/-- A copy takes its port and its PDC at issue (R451). -/
def State.startPackets (s : State) (id : Nat) (c : Copy) (r : Rank) (p : Nat) : State × Copy :=
  if c.onPort then (s, c)
  else
    let u := s.pdcFor c.rpkg p r.rod
    let c' := { c with port := p, pdc := some u.2 }
    (u.1.setCopy id c', c')

/-- A copy still has packets to send. -/
def Copy.sending (c : Copy) : Bool := c.stop.isNone && (decide (c.sent < c.total) || (c.total == 0 && c.opn.isEmpty && c.upd.isEmpty && !c.closing))

/-- A copy of the same PDC that was issued before still has packets to send: a PDC sends the packets of one copy after those of
the other, so that the PSNs of each are consecutive (R451; log 126). -/
def State.behind (s : State) (id : Nat) (c : Copy) : Bool :=
  s.copies.any (fun q => decide (q.1 < id) && q.2.onPort && q.2.pdc == c.pdc && q.2.sending)

/-- A packet is in flight: it is kept until it is acknowledged (R451). -/
def State.sendPacket (s : State) (id : Nat) (c : Copy) (k mtu : Nat) (bytes : List Byte) (m4 : Bool) : State :=
  match c.pdc.bind s.pdcs.find with
  | none => s
  | some x =>
    let c' := { c with
      sent := min c.total ((k + 1) * mtu), opn := c.opn ++ [k], kept := c.kept ++ [(k, bytes)], marked := c.marked || m4
      psn := if k = 0 then x.next else c.psn }
    let s2 := s.setCopy id c'
    let fresh := x.pkts.isEmpty
    let y := { x with next := x.next + 1, pkts := x.pkts ++ [(x.next, id, k)], sentAt := s2.ck, since := if fresh then s2.ck else x.since }
    let p := c.pdc.getD 0
    let s3 : State := { s2 with pdcs := s2.pdcs.put p y }
    let s4 := if fresh then s3.armPdc p else s3
    if k + 1 < packetsOf c.total mtu then s4.after 1 (.uetPacketTransmit id (k + 1)) else s4

/-- `UET_PACKET_TRANSMIT` (R450, R451): a packet's source bytes are read, and it leaves; a copy without a rank or a port
completes with code 0x08. -/
def execUetPacketTransmit (s : State) : Host.Outcome State Fault Refusal :=
  match s.event with
  | some (.uetPacketTransmit id k) =>
    match s.copies.find id with
    | none => .next s
    | some c =>
      if c.stop.isSome then .next (s.closeCopy id)
      else match s.job.find c.rpkg with
      | none => .next ((s.failCopy id c c.sent).closeCopy id)
      | some r =>
        match s.portOfCopy c r with
        | none => .next ((s.failCopy id c c.sent).closeCopy id)
        | some p =>
          let v := s.startPackets id c r p
          let c := v.2
          if (s.uePort p).training || v.1.behind id c then .next (v.1.after 1 (.uetPacketTransmit id k))
          else match v.1.formPacket (.uetPacketTransmit id k) c (lineRuns (c.src + k * r.mtu) (min r.mtu (c.total - k * r.mtu))) [] false with
          | .fault code cause synd => .next ((v.1.setCopy id (c.stopAt ⟨code, cause, synd, 0, k * r.mtu⟩)).closeCopy id)
          | .later n u => .next (u.after n (.uetPacketTransmit id k))
          | .sent u => .next u
          | .ok bytes m4 u => .next (u.sendPacket id c k r.mtu bytes m4)
  | _ => .next s

/-! ### Acknowledgments, replay and giving up (R453) -/

/-- The lowest PSN of a PDC that is not acknowledged: PSNs are given as packets leave. -/
def Pdc.lowest (x : Pdc) : Nat := (x.pkts.map (fun p => p.1)).foldl min x.next

/-- A PDC after packets have left its list: progress restarts its timers (R453). -/
def State.pdcProgress (s : State) (k : Nat) (x : Pdc) : State :=
  let cum := x.lowest
  if x.pkts.isEmpty then ({ s with pdcs := s.pdcs.put k { x with cum := cum, tries := 0, since := s.ck } } : State).stopPdc k
  else if cum = x.cum then { s with pdcs := s.pdcs.put k x }
  else ({ s with pdcs := s.pdcs.put k { x with cum := cum, tries := 0, since := s.ck } } : State).armPdc k

/-- An acknowledged packet's payload bytes go to the copy's sync word as an update that the core which holds the word acknowledges
(R143, R147). -/
def State.creditPacket (s : State) (id : Nat) (c : Copy) (j bytes : Nat) : State :=
  if c.sync.isNone then (s.setCopy id c).closeCopy id
  else (s.setCopy id { c with upd := c.upd ++ [j] }).copyUpdate c (s.coreRouter (coreOf c.slot)) bytes 0 false (some (id, j))

/-- `UET_ACK` (R147, R453): a packet is acknowledged, or its copy refused by the destination. -/
def execUetAck (s : State) : Host.Outcome State Fault Refusal :=
  match s.event with
  | some (.uetAck k psn st) =>
    match s.pdcs.find k with
    | none => .next s
    | some x =>
      match x.pkts.find? (fun p => p.1 == psn) with
      | none => .next s
      | some (_, id, j) =>
        let s1 := s.pdcProgress k { x with pkts := x.pkts.filter (fun p => p.1 != psn), acked := insertNat psn x.acked }
        match s1.copies.find id with
        | none => .next s1
        | some c =>
          let bytes := ((c.kept.find? (fun p => p.1 == j)).map (fun p => p.2.length)).getD 0
          let mtu := ((s1.job.find c.rpkg).map (fun r => r.mtu)).getD 0
          let c1 := { c with opn := c.opn.erase j, kept := c.kept.filter (fun p => p.1 != j) }
          match st with
          | none => .next (s1.creditPacket id c1 j bytes)
          | some (cause, synd) =>
            let code := if cause = 0x09 then 0x09 else 0x02
            .next ((s1.setCopy id (c1.stopAt ⟨code, cause, synd, 1, j * mtu⟩)).closeCopy id)
  | _ => .next s

/-- Every packet of a PDC that is not acknowledged is sent again in increasing order (R453, R489); the payloads kept are
sent, so nothing is read. -/
def State.replayPdc (s : State) (k : Nat) (x : Pdc) : State :=
  ({ s with pdcs := s.pdcs.put k { x with tries := x.tries + 1, sentAt := s.ck } } : State).rearm 160000 (.uetReplayTimeout k)

/-- `UET_REPLAY_TIMEOUT` (R453): without progress the packets are sent again, at most 16 times. -/
def execUetReplayTimeout (s : State) : Host.Outcome State Fault Refusal :=
  match s.event with
  | some (.uetReplayTimeout k) =>
    match s.pdcs.find k with
    | none => .next s
    | some x =>
      if x.pkts.isEmpty then .next s
      else if (s.uePort x.port).training then .next (s.after 1 (.uetReplayTimeout k))
      else if 16 ≤ x.tries then .next (s.post (.uetGiveUp k))
      else .next (s.replayPdc k x)
  | _ => .next s

/-- A copy gives up (R453): PROG is the first byte of its lowest packet that is not acknowledged. -/
def State.loseCopy (s : State) (id : Nat) (c : Copy) : State :=
  let mtu := ((s.job.find c.rpkg).map (fun r => r.mtu)).getD 0
  let low := c.opn.foldl min (if c.opn.isEmpty then packetsOf c.total mtu else c.opn.headD 0)
  (s.failCopy id { c with opn := [], kept := [] } (if c.opn.isEmpty then c.sent else low * mtu)).closeCopy id

/-- The copies of a PDC that are under way: they have packets to send, or packets that are not acknowledged. -/
def State.copiesOn (s : State) (k : Nat) : List (Nat × Copy) :=
  s.copies.filter (fun p => p.2.onPort && p.2.pdc == some k && (p.2.sending || !p.2.opn.isEmpty))

/-- `UET_GIVE_UP` (R453): the copies of the PDC complete with code 0x08, and the PDC is reset. -/
def execUetGiveUp (s : State) : Host.Outcome State Fault Refusal :=
  match s.event with
  | some (.uetGiveUp k) =>
    match s.pdcs.find k with
    | none => .next s
    | some x =>
      if x.pkts.isEmpty then .next s
      else
        let s1 := (s.copiesOn k).foldl (fun u p => u.loseCopy p.1 p.2) s
        .next (({ s1 with pdcs := s1.pdcs.put k { x with next := 0, cum := 0, acked := [], pkts := [], tries := 0 } } : State).stopPdc k)
  | _ => .next s

/-! ### Lost lanes (R452) -/

/-- A copy of a dead port may move to the other one (R452). -/
def State.mayMove (s : State) (c : Copy) (q : Nat) : Bool :=
  c.portField == 0 && ((s.job.find c.rpkg).any (fun r => r.permits q)) && s.ueLive q

/-- The copies of a PDC of a dead port that may move go to the other port on a new PDC, which numbers the packets still to be
acknowledged anew in their order and sends them again; the others are lost (R452). -/
def State.movePdc (s : State) (k : Nat) (x : Pdc) : State :=
  let q := 1 - x.port
  let all := s.copiesOn k
  let go := all.filter (fun c => s.mayMove c.2 q)
  let s1 := (all.filter (fun c => !s.mayMove c.2 q)).foldl (fun (u : State) c => u.loseCopy c.1 c.2) s
  if go.isEmpty then s1
  else
    let v := s1.newPdc x.rank q x.rod
    let kept := (x.pkts.filter (fun p => go.any (fun c => c.1 == p.2.1))).zipIdx.map (fun p => (p.2, p.1.2.1, p.1.2.2))
    let s2 : State := go.foldl (fun (u : State) c =>
      u.setCopy c.1 { c.2 with port := q, pdc := some v.2, psn := ((kept.find? (fun p => p.2.1 == c.1)).map (fun p => p.1)).getD kept.length }) v.1
    match s2.pdcs.find v.2 with
    | none => s2
    | some y =>
      let s3 : State := { s2 with pdcs := s2.pdcs.put v.2 { y with next := kept.length, pkts := kept } }
      if kept.isEmpty then s3 else s3.armPdc v.2

/-- Both links of a port are down: its copies move or are lost, and its PDCs end. -/
def State.portDown (s : State) (p : Nat) : State :=
  (s.pdcs.filter (fun x => x.2.port == p)).foldl (fun (u : State) x =>
    let v := u.movePdc x.1 x.2
    ({ v with pdcs := v.pdcs.del x.1 } : State).stopPdc x.1) s

/-- `LANE_LOSS` (R452): the lane's link goes down; the port goes on with its other link, with four lanes, or not at all. -/
def execLaneLoss (s : State) : Host.Outcome State Fault Refusal :=
  match s.event with
  | some (.laneLoss p lane) =>
    if 2 ≤ p ∨ 16 ≤ lane then .next s
    else
      let x := s.uePort p
      let used := x.lanes.contains lane
      let links := match x.links with
        | [l] => [l]
        | ls => if used then ls.filter (fun l => l != lane / 8) else ls
      let y : UePort := { x with lost := insertNat lane x.lost, links := links }
      if !used then .next (s.setUe p y)
      else if y.lanes.isEmpty then .next ((s.setUe p { y with links := [], training := false }).portDown p)
      else .next ((s.setUe p { y with training := true }).rearm 10000 (.retrainingEnd p))
  | _ => .next s

/-- `RETRAINING_END` (R452, R489): the port sends again, the replay set before any new packet. -/
def execRetrainingEnd (s : State) : Host.Outcome State Fault Refusal :=
  match s.event with
  | some (.retrainingEnd p) =>
    if 2 ≤ p then .next s
    else
      let s1 := s.setUe p { s.uePort p with training := false }
      .next ((s1.pdcs.filter (fun x => x.2.port == p && !x.2.pkts.isEmpty)).foldl (fun u x => u.replayPdc x.1 x.2) s1)
  | _ => .next s

/-! ### Receiving (R147, R451, R453, R489) -/

/-- A destination write of a remote packet in context RCTX (R16, R17, R144, R147): no core owns it. The spec does not say whose
copy agent writes it: its paged addresses are translated in the die TLB of die 0 (log 107). -/
def State.landDest (s : State) (ctx va n : Nat) : CopyAim :=
  if 2 ^ 55 ≤ va then .fault 0x02 0x0A 1
  else if inWindow va then
    let o := va % 2 ^ 48
    if o < 0x10000000 then .fault 0x02 0x0A 2
    else if o < 0x20000000 then
      let k := coreNo ((o - 0x10000000) / 0x40000)
      if !s.clusterPresent (k.val / 8) then .fault 0x02 0x0A 7
      else match palCause (s.core k).part (o % 0x40000) n .copy with
        | some c => .fault 0x02 c 0
        | none =>
          if clmapChg (s.clmapAt (k.val / 8)) then .later 1 s
          else .ok ⟨.palette k false, s.palette k + o % 0x40000, none, false⟩ s
    else match s.aimWindow (coreNo 0) va n .write with
      | .ok d => .ok d s
      | .fault f => .fault 0x02 f.cause f.synd
      | _ => .later 1 s
  else match s.unitXlate none 0 ctx .write va with
  | .ok pa e page t =>
    if s.sealedAt page.asid va then .fault 0x09 0x09 0
    else .ok ⟨if pteMT e == 1 then .device else .slice, pa, some page, false⟩ t
  | .fault f => .fault 0x02 f.cause f.synd
  | .later n t => if s.sealedAt (ctxASID (s.asctxAt ctx)) va then .fault 0x09 0x09 0 else .later n t

/-- What the destinations of a packet come to: all are ready, or the packet is refused, waits some ck, or has sent a write again
that a place refused. -/
inductive Landed where
  | ok (l : List (Nat × List Byte)) (s : State)
  | fault
  | later (n : Nat) (s : State)
  | sent (s : State)

/-- Every destination of a packet checked before any byte of it is written (R147, R451). -/
def State.checkLanding (s : State) (e : Event) (ctx : Nat) : List DstRun → Landed
  | [] => .ok [] s
  | r :: t =>
    let n := r.bytes.length
    match s.landDest ctx r.va n with
    | .fault .. => .fault
    | .later k u => .later k u
    | .ok d u =>
      if d.place == .device then .fault
      else match u.checkLanding e ctx t with
      | .ok l v =>
        (match v.answer (.event e) d n true with
          | .refuse h resv => .sent ((v.snoopHost d.pa n true).refuseEvent e d.pa d.page h resv)
          | .serve =>
            let k := v.takeBanks (.event e) d.pa n
            if !k.1 || v.portBusy d n then .later 1 k.2 else .ok ((d.pa, r.bytes) :: l) ((k.2.takePort d n).closeReq (.event e) d.pa))
      | x => x

/-- The writes of a packet at their places, with its mark (R246, R419). -/
def State.writeLanding (s : State) (m4 : Bool) (l : List (Nat × List Byte)) : State :=
  l.foldl (fun (u : State) r =>
    let v := (u.placeWrite r.1 (r.2.map some) none).unlatchAt (u.paletteOf r.1) r.1 r.2.length
    if m4 then { v with marks := (blocksOf r.1 r.2.length).foldl (fun l g => insertNat g l) v.marks } else v) s

/-- The sync word that a packet names is refused (R147): cause and syndrome. -/
def State.syncRefused (s : State) (p : RPacket) : Option (Nat × Nat) :=
  match p.sync with
  | none => none
  | some (c, off) =>
    if 1024 ≤ c ∨ s.clusterPresent (c / 8) = false then some (0x0A, 7)
    else
      let x := s.core (coreNo c)
      let run := match x.lid.bind s.launches.find with
        | some l => l.st == .running && l.ctx == p.ctx
        | none => false
      if run && off % 16 == 0 && partV x.part && decide (partSCRB x.part ≤ off) && decide (off + 16 ≤ 0x40000) then none
      else some (0x06, 0)

/-- The barrier that a packet names (R147, R324): its physical address, a refusal with the cause and the syndrome that `xbar.arr`
would raise, or a wait. -/
def State.rbarAim (s : State) (p : RPacket) : Res Nat :=
  let bad (c y : Nat) : Res Nat := .fault { cause := c, synd := y, kind := Kind.num .atomic, faddr := p.rbar } s
  if p.rbar = 0 then .ok 0 s
  else if p.rbar % 16 != 0 then bad 0x05 0
  else if inWindow p.rbar && decide (p.rbar < 2 ^ 55) then bad 0x0B 5
  else if s.sealedAt (ctxASID (s.asctxAt p.ctx)) p.rbar then bad 0x09 0
  else (s.vaPhys p.ctx .atomic true p.rbar).bind fun pa s => if s.phys pa == .device then bad 0x0B 5 else .ok pa s

/-- The receiving side of a PDC of a rank. -/
def State.rxOf (s : State) (src pdc : Nat) : Rx :=
  (s.rx.find? (fun (r : Rx) => r.src == src && r.pdc == pdc)).getD { src := src, pdc := pdc, taken := [], early := [], copies := [] }

/-- The state with a receiving side replaced. -/
def State.setRx (s : State) (r : Rx) : State :=
  { s with rx := r :: s.rx.filter (fun (z : Rx) => !(z.src == r.src && z.pdc == r.pdc)) }

/-- A copy that has begun at the receiver. -/
def Rx.copyOf (r : Rx) (p : RPacket) : Option RxCopy := r.copies.find? (fun z => z.first == p.psn0)

/-- The receiver with a copy replaced. -/
def Rx.setCopy (r : Rx) (z : RxCopy) : Rx := { r with copies := z :: r.copies.filter (fun y => y.first != z.first) }

/-- Updates of the sync word and of the barrier that a packet names (R147). -/
def State.landUpdates (s : State) (p : RPacket) (rbar bytes arr : Nat) (err : Bool) : State :=
  let s1 := match p.sync with
    | some (c, off) => s.post (.syncUpdate (s.palette (coreNo c) + off) bytes arr err p.ui none)
    | none => s
  if p.rbar = 0 then s1 else s1.post (.transactionBarrierUpdate rbar bytes arr err none)

/-- A packet's bytes have been accepted (R147): its updates, and the arrivals after the copy's last byte. -/
def State.acceptPacket (s : State) (p : RPacket) (rbar : Nat) : State :=
  let r := s.rxOf p.src p.pdc
  let z := (r.copyOf p).getD ⟨p.psn0, false, 0, false⟩
  let bad := z.bad || p.marked || p.err
  let s1 := s.setRx ({ r with taken := insertNat p.psn r.taken }.setCopy { z with count := z.count + 1, bad := bad })
  let s2 := if p.err then s1 else s1.landUpdates p rbar p.data.length 0 false
  if p.err || z.count + 1 == p.n then s2.landUpdates p rbar 0 1 bad else s2

/-- A refused packet is not looked at again. -/
def State.refusePacket (s : State) (p : RPacket) : State :=
  let r := s.rxOf p.src p.pdc
  s.setRx { r with taken := insertNat p.psn r.taken }

/-- A copy refused before any byte of it has been accepted (R147): none of its packets is. -/
def State.refuseCopy (s : State) (p : RPacket) : State :=
  (s.setRx ((s.rxOf p.src p.pdc).setCopy ⟨p.psn0, true, 0, false⟩)).refusePacket p

/-- A packet is accepted or refused now (`true`), or comes again. RCORE, ROFF and RBAR decide about the copy with the first of
its packets (R147); a barrier that no longer translates later gets no update (log 107). -/
def State.landPacket (s : State) (p : RPacket) : Bool × State :=
  let e : Event := .uetPacketReceive p
  let land (rbar : Nat) (s : State) : Bool × State :=
    if p.err then (true, s.acceptPacket p rbar)
    else match s.checkLanding e p.ctx (splitRun 64 p.dst p.data) with
    | .later n u => (false, u.after n e)
    | .sent u => (false, u)
    | .fault => (true, s.refusePacket p)
    | .ok l u => (true, (u.writeLanding p.marked l).acceptPacket p rbar)
  match (s.rxOf p.src p.pdc).copyOf p, s.rbarAim p with
  | _, .wait w u => (false, u.after (u.delay w) e)
  | some z, .ok rbar u => if z.refused then (true, u.refusePacket p) else land rbar u
  | some z, _ => if z.refused then (true, s.refusePacket p) else land 0 s
  | none, .ok rbar u => if (s.syncRefused p).isSome then (true, u.refuseCopy p) else land rbar u
  | none, _ => (true, s.refuseCopy p)

/-- The packets that wait for their turn under ROD, in PSN order (R451). -/
def State.landEarly (s : State) (src pdc base : Nat) : Nat → State
  | 0 => s
  | n + 1 =>
    let r := s.rxOf src pdc
    match r.early.find? (fun (q : RPacket) => q.psn == base + r.taken.length) with
    | none => s
    | some q =>
      let r1 : Rx := { r with early := r.early.filter (fun (z : RPacket) => z.psn != q.psn) }
      match (s.setRx r1).landPacket q with
      | (false, u) => u
      | (true, u) => u.landEarly src pdc base n

/-- `UET_PACKET_RECEIVE` (R147, R451, R453, R489): a PSN is accepted once; under ROD packets land in PSN order. -/
def execUetPacketReceive (s : State) : Host.Outcome State Fault Refusal :=
  match s.event with
  | some (.uetPacketReceive p) =>
    let r := s.rxOf p.src p.pdc
    if r.taken.contains p.psn then .next (s.dropReqs (fun q => q.who == Requester.event (.uetPacketReceive p)))
    else if p.rod && p.psn != p.base + r.taken.length then
      (if r.early.any (fun (q : RPacket) => q.psn == p.psn) then .next s else .next (s.setRx { r with early := r.early ++ [p] }))
    else match s.landPacket p with
    | (false, u) => .next u
    | (true, u) => .next (if p.rod then u.landEarly p.src p.pdc p.base (r.early.length + 1) else u)
  | _ => .next s

end Sys2Proof.Machine
end

