-- ==== Sys2Proof/Machine/Checks.lean ====
section
/-!
DEFINITION. What a word meets before its instruction executes: its fetch (spec/07_isa_encoding.md R264;
spec/08_scalar_control_loops.md R299; spec/12_faults_and_recovery.md R419), and the checks of R247 in their order, with
the register groups of R252.
-/
namespace Sys2Proof.Machine

/-! ### Operands (R243, R248, R252) -/

/-- The guard of an instruction in a guarded format (R248); an unguarded one always executes. `vsel` has a selecting
predicate in its place. -/
def guardOf : Instr → Guard
  | .add g _ _ _ | .sub g _ _ _ | .mul g _ _ _ | .mulhI g _ _ _ | .mulhN g _ _ _ | .divI g _ _ _ | .divN g _ _ _
  | .remI g _ _ _ | .remN g _ _ _ | .madd g _ _ _ | .and g _ _ _ | .or g _ _ _ | .xor g _ _ _ | .shl g _ _ _
  | .shrI g _ _ _ | .shrN g _ _ _ | .rot g _ _ _ | .clz g _ _ | .ctz g _ _ | .popc g _ _ | .minI g _ _ _
  | .maxI g _ _ _ | .minN g _ _ _ | .maxN g _ _ _ | .setCc g _ _ _ _ | .sel g _ _ _ _ | .ldI8 g _ _ _
  | .ldN8 g _ _ _ | .ldI16 g _ _ _ | .ldN16 g _ _ _ | .ldI32 g _ _ _ | .ldN32 g _ _ _ | .ldD g _ _ _
  | .stB g _ _ _ | .stH g _ _ _ | .stW g _ _ _ | .stD g _ _ _ | .vaddF32 g _ _ _ _ | .vsubF32 g _ _ _ _
  | .vmulF32 g _ _ _ _ | .vminF32 g _ _ _ _ | .vmaxF32 g _ _ _ _ | .vdivF32 g _ _ _ _ | .vfmaF32 g _ _ _ _
  | .vfmsF32 g _ _ _ _ | .vfnmaF32 g _ _ _ _ | .vabsF32 g _ _ _ | .vnegF32 g _ _ _ | .vsqrtF32 g _ _ _
  | .vrsqrtF32 g _ _ _ | .vexp2F32 g _ _ _ | .vlog2F32 g _ _ _ | .vaddF16 g _ _ _ _ | .vsubF16 g _ _ _ _
  | .vmulF16 g _ _ _ _ | .vminF16 g _ _ _ _ | .vmaxF16 g _ _ _ _ | .vdivF16 g _ _ _ _ | .vfmaF16 g _ _ _ _
  | .vfmsF16 g _ _ _ _ | .vfnmaF16 g _ _ _ _ | .vabsF16 g _ _ _ | .vnegF16 g _ _ _ | .vsqrtF16 g _ _ _
  | .vrsqrtF16 g _ _ _ | .vexp2F16 g _ _ _ | .vlog2F16 g _ _ _ | .vaddBf16 g _ _ _ _ | .vsubBf16 g _ _ _ _
  | .vmulBf16 g _ _ _ _ | .vminBf16 g _ _ _ _ | .vmaxBf16 g _ _ _ _ | .vdivBf16 g _ _ _ _ | .vfmaBf16 g _ _ _ _
  | .vfmsBf16 g _ _ _ _ | .vfnmaBf16 g _ _ _ _ | .vabsBf16 g _ _ _ | .vnegBf16 g _ _ _ | .vsqrtBf16 g _ _ _
  | .vrsqrtBf16 g _ _ _ | .vexp2Bf16 g _ _ _ | .vlog2Bf16 g _ _ _ | .vaddI32 g _ _ _ _ | .vsubI32 g _ _ _ _
  | .vmulI32 g _ _ _ _ | .vminI32 g _ _ _ _ | .vmaxI32 g _ _ _ _ | .vminN32 g _ _ _ _ | .vmaxN32 g _ _ _ _
  | .vabsI32 g _ _ _ | .vaddI64 g _ _ _ _ | .vsubI64 g _ _ _ _ | .vmulI64 g _ _ _ _ | .vminI64 g _ _ _ _
  | .vmaxI64 g _ _ _ _ | .vminN64 g _ _ _ _ | .vmaxN64 g _ _ _ _ | .vabsI64 g _ _ _ | .vnegI32 g _ _ _
  | .vshlI32 g _ _ _ _ | .vshrI32 g _ _ _ _ | .vshrN32 g _ _ _ _ | .vnegI64 g _ _ _ | .vshlI64 g _ _ _ _
  | .vshrI64 g _ _ _ _ | .vshrN64 g _ _ _ _ | .vand g _ _ _ _ | .vor g _ _ _ _ | .vxor g _ _ _ _ | .vnot g _ _ _
  | .vmov g _ _ _ | .vperm g _ _ _ _ | .vshuf g _ _ _ _ | .vbcast g _ _ | .vcmp g _ _ _ _ _ _
  | .vredsum g _ _ _ _ | .vredmax g _ _ _ _ | .vredmin g _ _ _ _ | .vscan g _ _ _ _ | .vhist g _ _ _
  | .vflip g _ _ _ _ | .vld g _ _ _ | .vst g _ _ _ | .vldx g _ _ _ _ | .vstx g _ _ _ _ | .vldb g _ _ _
  | .vcvtNarrowFp g _ _ _ _ _ _ | .vcvtNarrowInt g _ _ _ _ _ _ | .vcvtWiden g _ _ _ _ | .vcvtFxToFx128 g _ _ _
  | .vcvtFxFromFx128 g _ _ | .vqMx g _ _ _ _ _ | .vdqMx g _ _ _ _ => g
  | _ => .pred 0

/-- The name of a q operand; a `v` operand has none. -/
def qName (o : VOp) : List Nat := if o.q = 1#1 then [o.n.toNat] else []

/-- `k` consecutive names from an operand on. -/
def qRun (o : VOp) (k : Nat) : List Nat := if o.q = 1#1 then (List.range k).map (fun j => o.n.toNat + j) else []

/-- The q names of an instruction, its groups and residues among them (R243, R252). -/
def qNamesOf (ag : Agent) : Instr → List Nat
  | .vaddF32 _ _ d a b | .vsubF32 _ _ d a b | .vmulF32 _ _ d a b | .vminF32 _ _ d a b | .vmaxF32 _ _ d a b
  | .vdivF32 _ _ d a b | .vfmaF32 _ _ d a b | .vfmsF32 _ _ d a b | .vfnmaF32 _ _ d a b | .vaddF16 _ _ d a b
  | .vsubF16 _ _ d a b | .vmulF16 _ _ d a b | .vminF16 _ _ d a b | .vmaxF16 _ _ d a b | .vdivF16 _ _ d a b
  | .vfmaF16 _ _ d a b | .vfmsF16 _ _ d a b | .vfnmaF16 _ _ d a b | .vaddBf16 _ _ d a b | .vsubBf16 _ _ d a b
  | .vmulBf16 _ _ d a b | .vminBf16 _ _ d a b | .vmaxBf16 _ _ d a b | .vdivBf16 _ _ d a b | .vfmaBf16 _ _ d a b
  | .vfmsBf16 _ _ d a b | .vfnmaBf16 _ _ d a b | .vaddI32 _ _ d a b | .vsubI32 _ _ d a b | .vmulI32 _ _ d a b
  | .vminI32 _ _ d a b | .vmaxI32 _ _ d a b | .vminN32 _ _ d a b | .vmaxN32 _ _ d a b | .vaddI64 _ _ d a b
  | .vsubI64 _ _ d a b | .vmulI64 _ _ d a b | .vminI64 _ _ d a b | .vmaxI64 _ _ d a b | .vminN64 _ _ d a b
  | .vmaxN64 _ _ d a b | .vshlI32 _ _ d a b | .vshrI32 _ _ d a b | .vshrN32 _ _ d a b | .vshlI64 _ _ d a b
  | .vshrI64 _ _ d a b | .vshrN64 _ _ d a b | .vand _ _ d a b | .vor _ _ d a b | .vxor _ _ d a b
  | .vperm _ _ d a b | .vshuf _ _ d a b | .vsel _ d a b _ => qName d ++ qName a ++ qName b
  | .vabsF32 _ _ d a | .vnegF32 _ _ d a | .vsqrtF32 _ _ d a | .vrsqrtF32 _ _ d a | .vexp2F32 _ _ d a
  | .vlog2F32 _ _ d a | .vabsF16 _ _ d a | .vnegF16 _ _ d a | .vsqrtF16 _ _ d a | .vrsqrtF16 _ _ d a
  | .vexp2F16 _ _ d a | .vlog2F16 _ _ d a | .vabsBf16 _ _ d a | .vnegBf16 _ _ d a | .vsqrtBf16 _ _ d a
  | .vrsqrtBf16 _ _ d a | .vexp2Bf16 _ _ d a | .vlog2Bf16 _ _ d a | .vabsI32 _ _ d a | .vabsI64 _ _ d a
  | .vnegI32 _ _ d a | .vnegI64 _ _ d a | .vnot _ _ d a | .vmov _ _ d a | .vscan _ _ _ d a | .vhist _ _ d a
  | .vflip _ _ _ d a | .vcvtNarrowFp _ _ _ _ d a _ | .vcvtNarrowInt _ _ _ _ d a _ | .vcvtWiden _ _ _ d a => qName d ++ qName a
  | .vbcast _ d _ | .vld _ d _ _ | .vst _ d _ _ | .vldb _ _ d _ => qName d
  | .vcmp _ _ _ _ _ a b => qName a ++ qName b
  | .vredsum _ _ _ _ a | .vredmax _ _ _ _ a | .vredmin _ _ _ _ a => qName a
  | .vldx _ _ d _ b | .vstx _ _ d _ b => qName d ++ qName b
  | .vcvtFxToFx128 _ _ d a => qRun d 2 ++ qName a
  | .vcvtFxFromFx128 _ d a => qName d ++ qRun a 4
  | .vqMx _ blk rnd _ a _ => qRun a (groupSize ag blk * (if rnd = .ef then 2 else 1))
  | .vdqMx _ blk d _ _ => qRun d (groupSize ag blk)
  | _ => []

/-- The alignment and the ends of the register groups whose size depends on the vector size (R252); the other groups
are limits of `wellFormed`. -/
def groupOk (ag : Agent) : Instr → Bool
  | .vqMx _ blk rnd _ a _ =>
    let k := groupSize ag blk
    a.n.toNat % k == 0 && decide (a.n.toNat + k ≤ 32) && (rnd != .ef || decide (a.n.toNat + 2 * k ≤ 32))
  | .vdqMx _ blk d _ _ => let k := groupSize ag blk; d.n.toNat % k == 0 && decide (d.n.toNat + k ≤ 32)
  | _ => true

/-! ### Profiles (R253, R254) -/

/-- The instruction is legal in the tile profile only. -/
def tileOnly : Instr → Bool
  | .tload .. | .tx .. | .tgang .. | .tfetch .. | .tstream .. | .tgather .. | .tdrain .. | .tred ..
  | .prowGet .. | .prowSet .. | .prowClr .. | .xsync | .xsend .. | .xmux .. | .xrecv .. | .xvote .. | .xred ..
  | .xdom .. | .xarmAt .. | .wtake .. => true
  | _ => false

/-- The instruction is legal in the core profile only. -/
def coreOnly : Instr → Bool
  | .tyield | .sysc .. | .ldAcq .. | .stRel .. | .fenceS .. | .pref .. | .seal .. | .unseal .. | .amoAdd ..
  | .amoAnd .. | .amoOr .. | .amoXor .. | .amoMinI .. | .amoMaxI .. | .amoMinN .. | .amoMaxN .. | .amoSwap ..
  | .amoCas .. | .amoAddfx .. | .amoAddf .. | .spawn .. | .push .. | .pushts .. | .twait .. | .commitIrr
  | .sarm .. | .swait .. | .sadd .. | .xbarArr .. | .barArr .. | .barWait .. | .lpatch .. | .larm .. | .wpost ..
  | .wquery .. | .cpLin .. | .cpBox .. | .cpGather .. | .cpScatter .. | .cpRemote .. | .cpCancel .. | .eret
  | .idle | .ovl .. | .tlbiVa .. | .tlbiAsid .. | .tlbiAll => true
  | _ => false

/-- The instruction is legal in the profile of an agent (R247). -/
def profileOk (ag : Agent) (i : Instr) : Bool := if isTile ag then !coreOnly i else !tileOnly i

/-! ### The checks, in their order (R247) -/

/-- A stage guard stands outside a rotating loop: the innermost active level must rotate (R248). -/
def Hart.stageBad (h : Hart) (i : Instr) : Bool :=
  match guardOf i with
  | .pred _ => false
  | .stage _ =>
    match h.innermost with
    | some l => !(h.level l).rot
    | none => true

/-- The fault of the first check of R247 that a decoded instruction fails at an agent, if any. -/
def checkFault (ag : Agent) (h : Hart) (i : Instr) : Option FaultInfo :=
  if !groupOk ag i then some { cause := 0x01 }
  else if !profileOk ag i then some { cause := 0x02 }
  else if h.stageBad i then some { cause := 0x04 }
  else if (qNamesOf ag i).any (fun k => decide (h.qa.toNat ≤ k)) then some { cause := 0x03 }
  else none

/-! ### The fetch (R264, R299, R419) -/

/-- What a fetch comes to: the bytes of a word, the entry of the overlay handler, or a fault. -/
inductive Fetched where
  | bytes (b0 b1 b2 b3 : Byte)
  | overlay
  | fault (f : FaultInfo)
deriving DecidableEq, Repr

/-- The first physical address of an agent's code region (R54, R264). -/
def State.codeBase (s : State) : Agent → Nat
  | .slot i => s.palette (coreOf i)
  | .tile t => tileBase t

/-- The end of an agent's code region: XB of its core, or TCLEN (R54, R264). -/
def State.codeEnd (s : State) : Agent → Nat
  | .slot i => partXB (s.core (coreOf i)).part
  | .tile t => (s.tile t).tclen

/-- EN = 1, ACT = 0, no level active, and HND is 4-byte aligned and below XB (R299). -/
def State.mayOverlay (s : State) : Agent → Bool
  | .tile _ => false
  | .slot i =>
    let x := s.slot i
    let hnd := bitsAt x.ovh 0 18
    bitsAt x.ovh 63 1 == 1 && bitsAt x.ovh 62 1 == 0 && activeLevels x.h.lv == 0 && hnd % 4 == 0
      && decide (hnd < s.codeEnd (.slot i))

/-- The fetch at the PC of an agent. A PC that is no multiple of 4, which only a write of `k.epc` can bring about, is a
misaligned access (log 39), and a marked granule is a data error (log 40). -/
def State.fetch (s : State) (ag : Agent) : Fetched :=
  let off := (s.hart ag).pc.toNat
  let pa := s.codeBase ag + off
  if off % 4 ≠ 0 then .fault { cause := 0x05, kind := 4, faddr := off }
  else if s.codeEnd ag ≤ off then
    if s.mayOverlay ag then .overlay else .fault { cause := 0x08, kind := 4 }
  else if s.marked pa 4 then .fault { cause := 0x13, kind := 4, faddr := off }
  else .bytes (memRead s.mem pa) (memRead s.mem (pa + 1)) (memRead s.mem (pa + 2)) (memRead s.mem (pa + 3))

/-- The overlay handler is entered: TGT, ACT, and the handler's offset (R299). -/
def State.enterOverlay (s : State) (i : SlotId) : State :=
  let x := s.slot i
  let ovh := setBits (setBits x.ovh 32 18 x.h.pc.toNat) 62 1 1
  s.setSlot i { x with ovh := ovh, h := { x.h with pc := BitVec.ofNat 23 (bitsAt x.ovh 0 18) } }

end Sys2Proof.Machine
end

