-- ==== Sys2Proof/Machine/Dispatch.lean ====
section
/-!
DEFINITION. One arm per row of spec/opcode_table.json: an instruction, or an event.
-/
namespace Sys2Proof.Machine

/-- What an instruction or an event does at a state: the agent that executes is `State.cur`, the event `State.event`. -/
def exec (i : Instr) (s : State) : Host.Outcome State Fault Refusal :=
  match i with
  | .add g d a b => Sys2Proof.Machine.execAdd g d a b s
  | .sub g d a b => Sys2Proof.Machine.execSub g d a b s
  | .mul g d a b => Sys2Proof.Machine.execMul g d a b s
  | .mulhI g d a b => Sys2Proof.Machine.execMulhI g d a b s
  | .mulhN g d a b => Sys2Proof.Machine.execMulhN g d a b s
  | .divI g d a b => Sys2Proof.Machine.execDivI g d a b s
  | .divN g d a b => Sys2Proof.Machine.execDivN g d a b s
  | .remI g d a b => Sys2Proof.Machine.execRemI g d a b s
  | .remN g d a b => Sys2Proof.Machine.execRemN g d a b s
  | .madd g d a b => Sys2Proof.Machine.execMadd g d a b s
  | .and g d a b => Sys2Proof.Machine.execAnd g d a b s
  | .or g d a b => Sys2Proof.Machine.execOr g d a b s
  | .xor g d a b => Sys2Proof.Machine.execXor g d a b s
  | .shl g d a b => Sys2Proof.Machine.execShl g d a b s
  | .shrI g d a b => Sys2Proof.Machine.execShrI g d a b s
  | .shrN g d a b => Sys2Proof.Machine.execShrN g d a b s
  | .rot g d a b => Sys2Proof.Machine.execRot g d a b s
  | .clz g d a => Sys2Proof.Machine.execClz g d a s
  | .ctz g d a => Sys2Proof.Machine.execCtz g d a s
  | .popc g d a => Sys2Proof.Machine.execPopc g d a s
  | .minI g d a b => Sys2Proof.Machine.execMinI g d a b s
  | .maxI g d a b => Sys2Proof.Machine.execMaxI g d a b s
  | .minN g d a b => Sys2Proof.Machine.execMinN g d a b s
  | .maxN g d a b => Sys2Proof.Machine.execMaxN g d a b s
  | .setCc g cc d a b => Sys2Proof.Machine.execSetCc g cc d a b s
  | .sel g d a b k => Sys2Proof.Machine.execSel g d a b k s
  | .addi d a imm => Sys2Proof.Machine.execAddi d a imm s
  | .andi d a imm => Sys2Proof.Machine.execAndi d a imm s
  | .ori d a imm => Sys2Proof.Machine.execOri d a imm s
  | .xori d a imm => Sys2Proof.Machine.execXori d a imm s
  | .li d imm => Sys2Proof.Machine.execLi d imm s
  | .lih d h imm => Sys2Proof.Machine.execLih d h imm s
  | .lia d imm => Sys2Proof.Machine.execLia d imm s
  | .bfx d a pos len1 => Sys2Proof.Machine.execBfx d a pos len1 s
  | .bfxI d a pos len1 => Sys2Proof.Machine.execBfxI d a pos len1 s
  | .bfi d a pos len1 => Sys2Proof.Machine.execBfi d a pos len1 s
  | .shli d a n => Sys2Proof.Machine.execShli d a n s
  | .shriI d a n => Sys2Proof.Machine.execShriI d a n s
  | .shriN d a n => Sys2Proof.Machine.execShriN d a n s
  | .b off => Sys2Proof.Machine.execB off s
  | .call off => Sys2Proof.Machine.execCall off s
  | .bcCc cc a off => Sys2Proof.Machine.execBcCc cc a off s
  | .bcmpCc cc a b off => Sys2Proof.Machine.execBcmpCc cc a b off s
  | .callr a => Sys2Proof.Machine.execCallr a s
  | .ret => Sys2Proof.Machine.execRet s
  | .jr a => Sys2Proof.Machine.execJr a s
  | .tend => Sys2Proof.Machine.execTend s
  | .tyield => Sys2Proof.Machine.execTyield s
  | .tyieldTimeout => Sys2Proof.Machine.execTyieldTimeout s
  | .trap n => Sys2Proof.Machine.execTrap n s
  | .brk n => Sys2Proof.Machine.execBrk n s
  | .sysc n => Sys2Proof.Machine.execSysc n s
  | .loop lvl rot cnt len => Sys2Proof.Machine.execLoop lvl rot cnt len s
  | .loopr lvl rot a len => Sys2Proof.Machine.execLoopr lvl rot a len s
  | .lbrk lvl => Sys2Proof.Machine.execLbrk lvl s
  | .lbrkl lvl k => Sys2Proof.Machine.execLbrkl lvl k s
  | .lnext lvl => Sys2Proof.Machine.execLnext lvl s
  | .qallot d a => Sys2Proof.Machine.execQallot d a s
  | .qfree d a => Sys2Proof.Machine.execQfree d a s
  | .lsave a => Sys2Proof.Machine.execLsave a s
  | .lrest a => Sys2Proof.Machine.execLrest a s
  | .ldI8 g d a off => Sys2Proof.Machine.execLdI8 g d a off s
  | .ldN8 g d a off => Sys2Proof.Machine.execLdN8 g d a off s
  | .ldI16 g d a off => Sys2Proof.Machine.execLdI16 g d a off s
  | .ldN16 g d a off => Sys2Proof.Machine.execLdN16 g d a off s
  | .ldI32 g d a off => Sys2Proof.Machine.execLdI32 g d a off s
  | .ldN32 g d a off => Sys2Proof.Machine.execLdN32 g d a off s
  | .ldD g d a off => Sys2Proof.Machine.execLdD g d a off s
  | .stB g d a off => Sys2Proof.Machine.execStB g d a off s
  | .stH g d a off => Sys2Proof.Machine.execStH g d a off s
  | .stW g d a off => Sys2Proof.Machine.execStW g d a off s
  | .stD g d a off => Sys2Proof.Machine.execStD g d a off s
  | .ldAcq s_ d a => Sys2Proof.Machine.execLdAcq s_ d a s
  | .stRel s_ a b => Sys2Proof.Machine.execStRel s_ a b s
  | .fenceS s_ => Sys2Proof.Machine.execFenceS s_ s
  | .pref a => Sys2Proof.Machine.execPref a s
  | .seal d a b => Sys2Proof.Machine.execSeal d a b s
  | .unseal d a b => Sys2Proof.Machine.execUnseal d a b s
  | .amoAdd o s_ w d a b => Sys2Proof.Machine.execAmoAdd o s_ w d a b s
  | .amoAnd o s_ w d a b => Sys2Proof.Machine.execAmoAnd o s_ w d a b s
  | .amoOr o s_ w d a b => Sys2Proof.Machine.execAmoOr o s_ w d a b s
  | .amoXor o s_ w d a b => Sys2Proof.Machine.execAmoXor o s_ w d a b s
  | .amoMinI o s_ w d a b => Sys2Proof.Machine.execAmoMinI o s_ w d a b s
  | .amoMaxI o s_ w d a b => Sys2Proof.Machine.execAmoMaxI o s_ w d a b s
  | .amoMinN o s_ w d a b => Sys2Proof.Machine.execAmoMinN o s_ w d a b s
  | .amoMaxN o s_ w d a b => Sys2Proof.Machine.execAmoMaxN o s_ w d a b s
  | .amoSwap o s_ w d a b => Sys2Proof.Machine.execAmoSwap o s_ w d a b s
  | .amoCas o s_ w d a b => Sys2Proof.Machine.execAmoCas o s_ w d a b s
  | .amoAddfx o s_ d a b => Sys2Proof.Machine.execAmoAddfx o s_ d a b s
  | .amoAddf o s_ d a b => Sys2Proof.Machine.execAmoAddf o s_ d a b s
  | .spawn d a b => Sys2Proof.Machine.execSpawn d a b s
  | .push d a => Sys2Proof.Machine.execPush d a s
  | .pushts d a b => Sys2Proof.Machine.execPushts d a b s
  | .twait a b => Sys2Proof.Machine.execTwait a b s
  | .commitIrr => Sys2Proof.Machine.execCommitIrr s
  | .sarm d a b => Sys2Proof.Machine.execSarm d a b s
  | .swait a b => Sys2Proof.Machine.execSwait a b s
  | .sadd s_ a b => Sys2Proof.Machine.execSadd s_ a b s
  | .xbarArr s_ a b => Sys2Proof.Machine.execXbarArr s_ a b s
  | .barArr a => Sys2Proof.Machine.execBarArr a s
  | .barWait a => Sys2Proof.Machine.execBarWait a s
  | .lpatch d a b => Sys2Proof.Machine.execLpatch d a b s
  | .larm d a => Sys2Proof.Machine.execLarm d a s
  | .wpost d a => Sys2Proof.Machine.execWpost d a s
  | .wquery d a => Sys2Proof.Machine.execWquery d a s
  | .cpLin a => Sys2Proof.Machine.execCpLin a s
  | .cpBox a => Sys2Proof.Machine.execCpBox a s
  | .cpGather a => Sys2Proof.Machine.execCpGather a s
  | .cpScatter a => Sys2Proof.Machine.execCpScatter a s
  | .cpRemote a => Sys2Proof.Machine.execCpRemote a s
  | .cpCancel a => Sys2Proof.Machine.execCpCancel a s
  | .krd d n => Sys2Proof.Machine.execKrd d n s
  | .kwr a n => Sys2Proof.Machine.execKwr a n s
  | .eret => Sys2Proof.Machine.execEret s
  | .idle => Sys2Proof.Machine.execIdle s
  | .idleTimeout => Sys2Proof.Machine.execIdleTimeout s
  | .ovl a b => Sys2Proof.Machine.execOvl a b s
  | .tlbiVa a b => Sys2Proof.Machine.execTlbiVa a b s
  | .tlbiAsid a => Sys2Proof.Machine.execTlbiAsid a s
  | .tlbiAll => Sys2Proof.Machine.execTlbiAll s
  | .vaddF32 g u d a b => Sys2Proof.Machine.execVaddF32 g u d a b s
  | .vsubF32 g u d a b => Sys2Proof.Machine.execVsubF32 g u d a b s
  | .vmulF32 g u d a b => Sys2Proof.Machine.execVmulF32 g u d a b s
  | .vminF32 g u d a b => Sys2Proof.Machine.execVminF32 g u d a b s
  | .vmaxF32 g u d a b => Sys2Proof.Machine.execVmaxF32 g u d a b s
  | .vdivF32 g u d a b => Sys2Proof.Machine.execVdivF32 g u d a b s
  | .vfmaF32 g u d a b => Sys2Proof.Machine.execVfmaF32 g u d a b s
  | .vfmsF32 g u d a b => Sys2Proof.Machine.execVfmsF32 g u d a b s
  | .vfnmaF32 g u d a b => Sys2Proof.Machine.execVfnmaF32 g u d a b s
  | .vabsF32 g u d a => Sys2Proof.Machine.execVabsF32 g u d a s
  | .vnegF32 g u d a => Sys2Proof.Machine.execVnegF32 g u d a s
  | .vsqrtF32 g u d a => Sys2Proof.Machine.execVsqrtF32 g u d a s
  | .vrsqrtF32 g u d a => Sys2Proof.Machine.execVrsqrtF32 g u d a s
  | .vexp2F32 g u d a => Sys2Proof.Machine.execVexp2F32 g u d a s
  | .vlog2F32 g u d a => Sys2Proof.Machine.execVlog2F32 g u d a s
  | .vaddF16 g u d a b => Sys2Proof.Machine.execVaddF16 g u d a b s
  | .vsubF16 g u d a b => Sys2Proof.Machine.execVsubF16 g u d a b s
  | .vmulF16 g u d a b => Sys2Proof.Machine.execVmulF16 g u d a b s
  | .vminF16 g u d a b => Sys2Proof.Machine.execVminF16 g u d a b s
  | .vmaxF16 g u d a b => Sys2Proof.Machine.execVmaxF16 g u d a b s
  | .vdivF16 g u d a b => Sys2Proof.Machine.execVdivF16 g u d a b s
  | .vfmaF16 g u d a b => Sys2Proof.Machine.execVfmaF16 g u d a b s
  | .vfmsF16 g u d a b => Sys2Proof.Machine.execVfmsF16 g u d a b s
  | .vfnmaF16 g u d a b => Sys2Proof.Machine.execVfnmaF16 g u d a b s
  | .vabsF16 g u d a => Sys2Proof.Machine.execVabsF16 g u d a s
  | .vnegF16 g u d a => Sys2Proof.Machine.execVnegF16 g u d a s
  | .vsqrtF16 g u d a => Sys2Proof.Machine.execVsqrtF16 g u d a s
  | .vrsqrtF16 g u d a => Sys2Proof.Machine.execVrsqrtF16 g u d a s
  | .vexp2F16 g u d a => Sys2Proof.Machine.execVexp2F16 g u d a s
  | .vlog2F16 g u d a => Sys2Proof.Machine.execVlog2F16 g u d a s
  | .vaddBf16 g u d a b => Sys2Proof.Machine.execVaddBf16 g u d a b s
  | .vsubBf16 g u d a b => Sys2Proof.Machine.execVsubBf16 g u d a b s
  | .vmulBf16 g u d a b => Sys2Proof.Machine.execVmulBf16 g u d a b s
  | .vminBf16 g u d a b => Sys2Proof.Machine.execVminBf16 g u d a b s
  | .vmaxBf16 g u d a b => Sys2Proof.Machine.execVmaxBf16 g u d a b s
  | .vdivBf16 g u d a b => Sys2Proof.Machine.execVdivBf16 g u d a b s
  | .vfmaBf16 g u d a b => Sys2Proof.Machine.execVfmaBf16 g u d a b s
  | .vfmsBf16 g u d a b => Sys2Proof.Machine.execVfmsBf16 g u d a b s
  | .vfnmaBf16 g u d a b => Sys2Proof.Machine.execVfnmaBf16 g u d a b s
  | .vabsBf16 g u d a => Sys2Proof.Machine.execVabsBf16 g u d a s
  | .vnegBf16 g u d a => Sys2Proof.Machine.execVnegBf16 g u d a s
  | .vsqrtBf16 g u d a => Sys2Proof.Machine.execVsqrtBf16 g u d a s
  | .vrsqrtBf16 g u d a => Sys2Proof.Machine.execVrsqrtBf16 g u d a s
  | .vexp2Bf16 g u d a => Sys2Proof.Machine.execVexp2Bf16 g u d a s
  | .vlog2Bf16 g u d a => Sys2Proof.Machine.execVlog2Bf16 g u d a s
  | .vaddI32 g u d a b => Sys2Proof.Machine.execVaddI32 g u d a b s
  | .vsubI32 g u d a b => Sys2Proof.Machine.execVsubI32 g u d a b s
  | .vmulI32 g u d a b => Sys2Proof.Machine.execVmulI32 g u d a b s
  | .vminI32 g u d a b => Sys2Proof.Machine.execVminI32 g u d a b s
  | .vmaxI32 g u d a b => Sys2Proof.Machine.execVmaxI32 g u d a b s
  | .vminN32 g u d a b => Sys2Proof.Machine.execVminN32 g u d a b s
  | .vmaxN32 g u d a b => Sys2Proof.Machine.execVmaxN32 g u d a b s
  | .vabsI32 g u d a => Sys2Proof.Machine.execVabsI32 g u d a s
  | .vaddI64 g u d a b => Sys2Proof.Machine.execVaddI64 g u d a b s
  | .vsubI64 g u d a b => Sys2Proof.Machine.execVsubI64 g u d a b s
  | .vmulI64 g u d a b => Sys2Proof.Machine.execVmulI64 g u d a b s
  | .vminI64 g u d a b => Sys2Proof.Machine.execVminI64 g u d a b s
  | .vmaxI64 g u d a b => Sys2Proof.Machine.execVmaxI64 g u d a b s
  | .vminN64 g u d a b => Sys2Proof.Machine.execVminN64 g u d a b s
  | .vmaxN64 g u d a b => Sys2Proof.Machine.execVmaxN64 g u d a b s
  | .vabsI64 g u d a => Sys2Proof.Machine.execVabsI64 g u d a s
  | .vnegI32 g u d a => Sys2Proof.Machine.execVnegI32 g u d a s
  | .vshlI32 g u d a b => Sys2Proof.Machine.execVshlI32 g u d a b s
  | .vshrI32 g u d a b => Sys2Proof.Machine.execVshrI32 g u d a b s
  | .vshrN32 g u d a b => Sys2Proof.Machine.execVshrN32 g u d a b s
  | .vnegI64 g u d a => Sys2Proof.Machine.execVnegI64 g u d a s
  | .vshlI64 g u d a b => Sys2Proof.Machine.execVshlI64 g u d a b s
  | .vshrI64 g u d a b => Sys2Proof.Machine.execVshrI64 g u d a b s
  | .vshrN64 g u d a b => Sys2Proof.Machine.execVshrN64 g u d a b s
  | .vand g u d a b => Sys2Proof.Machine.execVand g u d a b s
  | .vor g u d a b => Sys2Proof.Machine.execVor g u d a b s
  | .vxor g u d a b => Sys2Proof.Machine.execVxor g u d a b s
  | .vnot g u d a => Sys2Proof.Machine.execVnot g u d a s
  | .vmov g u d a => Sys2Proof.Machine.execVmov g u d a s
  | .vperm g u d a b => Sys2Proof.Machine.execVperm g u d a b s
  | .vshuf g u d a b => Sys2Proof.Machine.execVshuf g u d a b s
  | .vbcast g d a => Sys2Proof.Machine.execVbcast g d a s
  | .vsel u d a b k => Sys2Proof.Machine.execVsel u d a b k s
  | .vcmp g cc t u pd a b => Sys2Proof.Machine.execVcmp g cc t u pd a b s
  | .vredsum g t u d a => Sys2Proof.Machine.execVredsum g t u d a s
  | .vredmax g t u d a => Sys2Proof.Machine.execVredmax g t u d a s
  | .vredmin g t u d a => Sys2Proof.Machine.execVredmin g t u d a s
  | .vscan g t u d a => Sys2Proof.Machine.execVscan g t u d a s
  | .vhist g u d a => Sys2Proof.Machine.execVhist g u d a s
  | .vflip g t u d a => Sys2Proof.Machine.execVflip g t u d a s
  | .vld g d a off => Sys2Proof.Machine.execVld g d a off s
  | .vst g d a off => Sys2Proof.Machine.execVst g d a off s
  | .vldx g e d a b => Sys2Proof.Machine.execVldx g e d a b s
  | .vstx g e d a b => Sys2Proof.Machine.execVstx g e d a b s
  | .vldb g e d a => Sys2Proof.Machine.execVldb g e d a s
  | .vcvtNarrowFp g tgt rnd sat d a c => Sys2Proof.Machine.execVcvtNarrowFp g tgt rnd sat d a c s
  | .vcvtNarrowInt g tgt rnd sat d a c => Sys2Proof.Machine.execVcvtNarrowInt g tgt rnd sat d a c s
  | .vcvtWiden g fr rnd d a => Sys2Proof.Machine.execVcvtWiden g fr rnd d a s
  | .vcvtFxToFx128 g rnd d a => Sys2Proof.Machine.execVcvtFxToFx128 g rnd d a s
  | .vcvtFxFromFx128 g d a => Sys2Proof.Machine.execVcvtFxFromFx128 g d a s
  | .vqMx g blk rnd d a c => Sys2Proof.Machine.execVqMx g blk rnd d a c s
  | .vdqMx g blk d a c => Sys2Proof.Machine.execVdqMx g blk d a c s
  | .tload idx a off => Sys2Proof.Machine.execTload idx a off s
  | .tx idx sel val => Sys2Proof.Machine.execTx idx sel val s
  | .tgang idx sel a => Sys2Proof.Machine.execTgang idx sel a s
  | .tfetch a b => Sys2Proof.Machine.execTfetch a b s
  | .tstream a b => Sys2Proof.Machine.execTstream a b s
  | .tgather a b => Sys2Proof.Machine.execTgather a b s
  | .tdrain a b => Sys2Proof.Machine.execTdrain a b s
  | .tred a b => Sys2Proof.Machine.execTred a b s
  | .prowGet d a => Sys2Proof.Machine.execProwGet d a s
  | .prowSet a b => Sys2Proof.Machine.execProwSet a b s
  | .prowClr a b => Sys2Proof.Machine.execProwClr a b s
  | .xsync => Sys2Proof.Machine.execXsync s
  | .xsend a b => Sys2Proof.Machine.execXsend a b s
  | .xmux a => Sys2Proof.Machine.execXmux a s
  | .xrecv a b => Sys2Proof.Machine.execXrecv a b s
  | .xvote d a => Sys2Proof.Machine.execXvote d a s
  | .xred a b => Sys2Proof.Machine.execXred a b s
  | .xdom d a => Sys2Proof.Machine.execXdom d a s
  | .xarmAt a b => Sys2Proof.Machine.execXarmAt a b s
  | .wtake d a => Sys2Proof.Machine.execWtake d a s
  | .armedIssue => Sys2Proof.Machine.execArmedIssue s
  | .packageReset => Sys2Proof.Machine.execPackageReset s
  | .recoveryImageLoad => Sys2Proof.Machine.execRecoveryImageLoad s
  | .svnRaise => Sys2Proof.Machine.execSvnRaise s
  | .spdmRequest => Sys2Proof.Machine.execSpdmRequest s
  | .queueDescriptorWrite => Sys2Proof.Machine.execQueueDescriptorWrite s
  | .notify => Sys2Proof.Machine.execNotify s
  | .launch => Sys2Proof.Machine.execLaunch s
  | .launchClaim => Sys2Proof.Machine.execLaunchClaim s
  | .poolLaunch => Sys2Proof.Machine.execPoolLaunch s
  | .poolWrite => Sys2Proof.Machine.execPoolWrite s
  | .fence => Sys2Proof.Machine.execFence s
  | .faultAnswer => Sys2Proof.Machine.execFaultAnswer s
  | .suspend => Sys2Proof.Machine.execSuspend s
  | .resume => Sys2Proof.Machine.execResume s
  | .registerWrite => Sys2Proof.Machine.execRegisterWrite s
  | .clmapWrite => Sys2Proof.Machine.execClmapWrite s
  | .domainStart => Sys2Proof.Machine.execDomainStart s
  | .launchEnd => Sys2Proof.Machine.execLaunchEnd s
  | .launchFaultEnd => Sys2Proof.Machine.execLaunchFaultEnd s
  | .taskStart => Sys2Proof.Machine.execTaskStart s
  | .stealRequest => Sys2Proof.Machine.execStealRequest s
  | .stealReply => Sys2Proof.Machine.execStealReply s
  | .spawnArrival => Sys2Proof.Machine.execSpawnArrival s
  | .commit => Sys2Proof.Machine.execCommit s
  | .commitFrontMessage => Sys2Proof.Machine.execCommitFrontMessage s
  | .starvedFrontTimeout => Sys2Proof.Machine.execStarvedFrontTimeout s
  | .budgetOverrun => Sys2Proof.Machine.execBudgetOverrun s
  | .preemptionRequest => Sys2Proof.Machine.execPreemptionRequest s
  | .userInterruptEntry => Sys2Proof.Machine.execUserInterruptEntry s
  | .checkerPass => Sys2Proof.Machine.execCheckerPass s
  | .checkerMismatch => Sys2Proof.Machine.execCheckerMismatch s
  | .checkerRetry => Sys2Proof.Machine.execCheckerRetry s
  | .copyPiece => Sys2Proof.Machine.execCopyPiece s
  | .piecePush => Sys2Proof.Machine.execPiecePush s
  | .syncUpdate => Sys2Proof.Machine.execSyncUpdate s
  | .armEntryPush => Sys2Proof.Machine.execArmEntryPush s
  | .updateAcknowledgment => Sys2Proof.Machine.execUpdateAcknowledgment s
  | .copyCompletion => Sys2Proof.Machine.execCopyCompletion s
  | .sliceRequest => Sys2Proof.Machine.execSliceRequest s
  | .requestRetry => Sys2Proof.Machine.execRequestRetry s
  | .l2Fill => Sys2Proof.Machine.execL2Fill s
  | .transactionBarrierUpdate => Sys2Proof.Machine.execTransactionBarrierUpdate s
  | .swaitPoll => Sys2Proof.Machine.execSwaitPoll s
  | .twaitRetry => Sys2Proof.Machine.execTwaitRetry s
  | .remotePaletteAccess => Sys2Proof.Machine.execRemotePaletteAccess s
  | .eccUncorrectable => Sys2Proof.Machine.execEccUncorrectable s
  | .invalidationRequest => Sys2Proof.Machine.execInvalidationRequest s
  | .invalidationDrainEnd => Sys2Proof.Machine.execInvalidationDrainEnd s
  | .invalidationAcknowledge => Sys2Proof.Machine.execInvalidationAcknowledge s
  | .pageWalk => Sys2Proof.Machine.execPageWalk s
  | .walkRetry => Sys2Proof.Machine.execWalkRetry s
  | .birsp => Sys2Proof.Machine.execBirsp s
  | .bisnp => Sys2Proof.Machine.execBisnp s
  | .hostSnoop => Sys2Proof.Machine.execHostSnoop s
  | .cxlMemWrite => Sys2Proof.Machine.execCxlMemWrite s
  | .meshRouterFailure => Sys2Proof.Machine.execMeshRouterFailure s
  | .meshReroute => Sys2Proof.Machine.execMeshReroute s
  | .hbmTimedSlot => Sys2Proof.Machine.execHbmTimedSlot s
  | .hbmDynamicSlot => Sys2Proof.Machine.execHbmDynamicSlot s
  | .tstreamLineArrival => Sys2Proof.Machine.execTstreamLineArrival s
  | .landingBufferWrite => Sys2Proof.Machine.execLandingBufferWrite s
  | .windowPortServe => Sys2Proof.Machine.execWindowPortServe s
  | .ringSlotDeparture => Sys2Proof.Machine.execRingSlotDeparture s
  | .ringSlotArrival => Sys2Proof.Machine.execRingSlotArrival s
  | .timedWriteAccept => Sys2Proof.Machine.execTimedWriteAccept s
  | .xsendWord => Sys2Proof.Machine.execXsendWord s
  | .exchangeReceive => Sys2Proof.Machine.execExchangeReceive s
  | .barrierRelease => Sys2Proof.Machine.execBarrierRelease s
  | .promotion => Sys2Proof.Machine.execPromotion s
  | .windowOpen => Sys2Proof.Machine.execWindowOpen s
  | .windowClose => Sys2Proof.Machine.execWindowClose s
  | .windowPostArrival => Sys2Proof.Machine.execWindowPostArrival s
  | .windowTimeout => Sys2Proof.Machine.execWindowTimeout s
  | .gangQueueEntry => Sys2Proof.Machine.execGangQueueEntry s
  | .matrixOpComplete => Sys2Proof.Machine.execMatrixOpComplete s
  | .drainDelivery => Sys2Proof.Machine.execDrainDelivery s
  | .collectiveComplete => Sys2Proof.Machine.execCollectiveComplete s
  | .collectiveMemberLost => Sys2Proof.Machine.execCollectiveMemberLost s
  | .tileFaultHandling => Sys2Proof.Machine.execTileFaultHandling s
  | .rollback => Sys2Proof.Machine.execRollback s
  | .linkSlot => Sys2Proof.Machine.execLinkSlot s
  | .idleFlit => Sys2Proof.Machine.execIdleFlit s
  | .data => Sys2Proof.Machine.execData s
  | .arrive => Sys2Proof.Machine.execArrive s
  | .release => Sys2Proof.Machine.execRelease s
  | .crossPackageRelease => Sys2Proof.Machine.execCrossPackageRelease s
  | .hold => Sys2Proof.Machine.execHold s
  | .go => Sys2Proof.Machine.execGo s
  | .phaseClockResume => Sys2Proof.Machine.execPhaseClockResume s
  | .time => Sys2Proof.Machine.execTime s
  | .timeMeasurement => Sys2Proof.Machine.execTimeMeasurement s
  | .retry => Sys2Proof.Machine.execRetry s
  | .alarm => Sys2Proof.Machine.execAlarm s
  | .control => Sys2Proof.Machine.execControl s
  | .update => Sys2Proof.Machine.execUpdate s
  | .reservedFlit => Sys2Proof.Machine.execReservedFlit s
  | .portFailure => Sys2Proof.Machine.execPortFailure s
  | .uetPacketTransmit => Sys2Proof.Machine.execUetPacketTransmit s
  | .uetPacketReceive => Sys2Proof.Machine.execUetPacketReceive s
  | .uetAck => Sys2Proof.Machine.execUetAck s
  | .uetReplayTimeout => Sys2Proof.Machine.execUetReplayTimeout s
  | .uetGiveUp => Sys2Proof.Machine.execUetGiveUp s
  | .laneLoss => Sys2Proof.Machine.execLaneLoss s
  | .powerLimit => Sys2Proof.Machine.execPowerLimit s
  | .cxlMemRead => Sys2Proof.Machine.execCxlMemRead s
  | .responseArrival => Sys2Proof.Machine.execResponseArrival s
  | .resumption => Sys2Proof.Machine.execResumption s
  | .retrainingEnd => Sys2Proof.Machine.execRetrainingEnd s

end Sys2Proof.Machine
end

