-- ==== Sys2Proof/Machine/Groups.lean ====
section
/-!
DEFINITION. Issue groups of a core slot (spec/07_isa_encoding.md R244): which instruction issues with the one before it.
-/
namespace Sys2Proof.Machine

/-! ### Registers by number: `g` from 0, `p` from 32 on (R244; log 108) -/

/-- A `g` register as a list; `g0` holds nothing (R242). -/
def gReg (r : Reg) : List Nat := if r = 0 then [] else [r.toNat]
/-- A `p` register as a list; `p0` holds nothing (R242). -/
def pReg (k : PReg) : List Nat := if k = 0 then [] else [32 + k.toNat]
/-- The predicate that a guard reads (R248). -/
def guardReg (g : Guard) : List Nat :=
  match g with
  | .pred k => pReg k
  | .stage _ => []

/-- The `g` and `p` operands that an instruction of the core profile reads. -/
def operandsRead : Instr → List Nat
  | .add _ _ a b | .sub _ _ a b | .mul _ _ a b | .mulhI _ _ a b | .mulhN _ _ a b | .divI _ _ a b | .divN _ _ a b
  | .remI _ _ a b | .remN _ _ a b | .and _ _ a b | .or _ _ a b | .xor _ _ a b | .shl _ _ a b | .shrI _ _ a b
  | .shrN _ _ a b | .rot _ _ a b | .minI _ _ a b | .maxI _ _ a b | .minN _ _ a b | .maxN _ _ a b
  | .setCc _ _ _ a b | .bcmpCc _ a b _ | .stRel _ a b | .seal _ a b | .unseal _ a b | .amoAdd _ _ _ _ a b
  | .amoAnd _ _ _ _ a b | .amoOr _ _ _ _ a b | .amoXor _ _ _ _ a b | .amoMinI _ _ _ _ a b | .amoMaxI _ _ _ _ a b
  | .amoMinN _ _ _ _ a b | .amoMaxN _ _ _ _ a b | .amoSwap _ _ _ _ a b | .amoAddfx _ _ _ a b
  | .amoAddf _ _ _ a b | .pushts _ a b | .twait a b | .sarm _ a b | .swait a b | .sadd _ a b | .xbarArr _ a b
  | .lpatch _ a b | .ovl a b | .tlbiVa a b => gReg a ++ gReg b
  | .madd _ d a b | .amoCas _ _ _ d a b => gReg d ++ gReg a ++ gReg b
  | .clz _ _ a | .ctz _ _ a | .popc _ _ a | .addi _ a _ | .andi _ a _ | .ori _ a _ | .xori _ a _ | .bfx _ a _ _
  | .bfxI _ a _ _ | .shli _ a _ | .shriI _ a _ | .shriN _ a _ | .bcCc _ a _ | .callr a | .jr a | .loopr _ _ a _
  | .qallot _ a | .qfree _ a | .lsave a | .lrest a | .ldI8 _ _ a _ | .ldN8 _ _ a _ | .ldI16 _ _ a _
  | .ldN16 _ _ a _ | .ldI32 _ _ a _ | .ldN32 _ _ a _ | .ldD _ _ a _ | .ldAcq _ _ a | .pref a | .push _ a
  | .barArr a | .barWait a | .larm _ a | .wpost _ a | .wquery _ a | .cpLin a | .cpBox a | .cpGather a
  | .cpScatter a | .cpRemote a | .cpCancel a | .kwr a _ | .tlbiAsid a | .vbcast _ _ a | .vld _ _ a _
  | .vst _ _ a _ | .vldx _ _ _ a _ | .vstx _ _ _ a _ | .vldb _ _ _ a => gReg a
  | .sel _ _ a b k => gReg a ++ gReg b ++ pReg k
  | .lih d _ _ => gReg d
  | .bfi d a _ _ | .stB _ d a _ | .stH _ d a _ | .stW _ d a _ | .stD _ d a _ => gReg d ++ gReg a
  | .ret => gReg 31
  | .lbrkl _ k | .vsel _ _ _ _ k => pReg k
  | .spawn _ a b => gReg a ++ (List.range 4).flatMap (fun k => gReg (b + BitVec.ofNat 5 k))
  | .vdqMx _ _ _ _ c => gReg c
  | _ => []

/-- The `g` and `p` registers that an instruction of the core profile reads. -/
def regsRead (i : Instr) : List Nat := guardReg (guardOf i) ++ operandsRead i

/-- The `g` and `p` registers that an instruction of the core profile writes. -/
def regsWritten : Instr → List Nat
  | .add _ d _ _ | .sub _ d _ _ | .mul _ d _ _ | .mulhI _ d _ _ | .mulhN _ d _ _ | .divI _ d _ _ | .divN _ d _ _
  | .remI _ d _ _ | .remN _ d _ _ | .madd _ d _ _ | .and _ d _ _ | .or _ d _ _ | .xor _ d _ _ | .shl _ d _ _
  | .shrI _ d _ _ | .shrN _ d _ _ | .rot _ d _ _ | .clz _ d _ | .ctz _ d _ | .popc _ d _ | .minI _ d _ _
  | .maxI _ d _ _ | .minN _ d _ _ | .maxN _ d _ _ | .setCc _ _ d _ _ | .sel _ d _ _ _ | .addi d _ _
  | .andi d _ _ | .ori d _ _ | .xori d _ _ | .li d _ | .lih d _ _ | .lia d _ | .bfx d _ _ _ | .bfxI d _ _ _
  | .bfi d _ _ _ | .shli d _ _ | .shriI d _ _ | .shriN d _ _ | .qallot d _ | .qfree d _ | .ldI8 _ d _ _
  | .ldN8 _ d _ _ | .ldI16 _ d _ _ | .ldN16 _ d _ _ | .ldI32 _ d _ _ | .ldN32 _ d _ _ | .ldD _ d _ _
  | .ldAcq _ d _ | .seal d _ _ | .unseal d _ _ | .amoAdd _ _ _ d _ _ | .amoAnd _ _ _ d _ _ | .amoOr _ _ _ d _ _
  | .amoXor _ _ _ d _ _ | .amoMinI _ _ _ d _ _ | .amoMaxI _ _ _ d _ _ | .amoMinN _ _ _ d _ _
  | .amoMaxN _ _ _ d _ _ | .amoSwap _ _ _ d _ _ | .amoCas _ _ _ d _ _ | .amoAddfx _ _ d _ _ | .amoAddf _ _ d _ _
  | .spawn d _ _ | .push d _ | .pushts d _ _ | .sarm d _ _ | .lpatch d _ _ | .larm d _ | .wpost d _
  | .wquery d _ | .krd d _ | .vredsum _ _ _ d _ | .vredmax _ _ _ d _ | .vredmin _ _ _ d _ => gReg d
  | .call _ | .callr _ => gReg 31
  | .vcmp _ _ _ _ pd _ _ => pReg pd
  | .vqMx _ _ _ _ _ c => gReg c
  | _ => []

/-! ### Groups (R244) -/

/-- The major of a word (R247). -/
def majorOf (b0 b1 b2 b3 : Byte) : Nat := natOfBytes [b0, b1, b2, b3] / 2 ^ 26
/-- Class S: majors 0x01 to 0x17 and 0x3F. -/
def isClassS (m : Nat) : Bool := (decide (1 ≤ m) && decide (m ≤ 0x17)) || m == 0x3F
/-- Class V: majors 0x20 to 0x34. -/
def isClassV (m : Nat) : Bool := decide (0x20 ≤ m) && decide (m ≤ 0x34)
/-- The major of no branch, call, return, loop, loop-control, task-end or system instruction. -/
def mayLead (m : Nat) : Bool := !(decide (0x0A ≤ m) && decide (m ≤ 0x11)) && m != 0x3F

/-- The word at an offset of an agent, decoded and checked: its major and its instruction. -/
def State.wordAt (s : State) (ag : Agent) (pc : BitVec 23) : Option (Nat × Instr) :=
  match (s.setHart ag { s.hart ag with pc := pc }).fetch ag with
  | .bytes b0 b1 b2 b3 =>
    match decodeBytes b0 b1 b2 b3 with
    | .ok i => if (checkFault ag (s.hart ag) i).isNone then some (majorOf b0 b1 b2 b3, i) else none
    | .error _ => none
  | _ => none

/-- Two instructions that may form a group, the first not the last of a loop body: they are of different classes, and the
second depends on no register of the first. Of different classes they share no vector register. -/
def groupsWith (m1 : Nat) (i1 : Instr) (m2 : Nat) (i2 : Instr) : Bool :=
  ((isClassS m1 && isClassV m2) || (isClassV m1 && isClassS m2)) && mayLead m1 && m2 != 0x0F && m2 != 0x10
    && !(regsRead i2).any (regsWritten i1).contains && !(regsWritten i2).any (regsWritten i1).contains

/-- The offset of the second instruction of the group that a slot issues next, if it has one (R244). -/
def State.groupSecond (s : State) (i : SlotId) : Option (BitVec 23) :=
  let h := (s.slot i).h
  if h.lv.toList.any (fun l => l.act && l.fin == h.pc + 4) then none
  else match s.wordAt (.slot i) h.pc, s.wordAt (.slot i) (h.pc + 4) with
  | some (m1, i1), some (m2, i2) => if groupsWith m1 i1 m2 i2 then some (h.pc + 4) else none
  | _, _ => none

end Sys2Proof.Machine
end

