-- ==== Sys2Proof/Machine/Issue.lean ====
section
/-!
DEFINITION. The issue of one instruction by one agent: the boundary events of a slot first
(spec/12_faults_and_recovery.md R406), then the fetch, the checks of spec/07_isa_encoding.md R247, and the meaning.
-/
namespace Sys2Proof.Machine

/-- The row of spec/opcode_table.json that an event is. -/
def eventInstr : Event → Instr
  | .tyieldTimeout .. => .tyieldTimeout
  | .idleTimeout .. => .idleTimeout
  | .armedIssue .. => .armedIssue
  | .packageReset => .packageReset
  | .recoveryImageLoad .. => .recoveryImageLoad
  | .svnRaise => .svnRaise
  | .spdmRequest .. => .spdmRequest
  | .queueDescriptorWrite .. => .queueDescriptorWrite
  | .notify .. => .notify
  | .launch .. => .launch
  | .launchClaim .. => .launchClaim
  | .poolLaunch .. => .poolLaunch
  | .poolWrite .. => .poolWrite
  | .fence .. => .fence
  | .faultAnswer .. => .faultAnswer
  | .suspend .. => .suspend
  | .resume .. => .resume
  | .registerWrite .. => .registerWrite
  | .clmapWrite .. => .clmapWrite
  | .domainStart .. => .domainStart
  | .launchEnd .. => .launchEnd
  | .launchFaultEnd .. => .launchFaultEnd
  | .taskStart .. => .taskStart
  | .stealRequest .. => .stealRequest
  | .stealReply .. => .stealReply
  | .spawnArrival .. => .spawnArrival
  | .commit .. => .commit
  | .commitFrontMessage .. => .commitFrontMessage
  | .starvedFrontTimeout .. => .starvedFrontTimeout
  | .budgetOverrun .. => .budgetOverrun
  | .preemptionRequest .. => .preemptionRequest
  | .userInterruptEntry .. => .userInterruptEntry
  | .checkerPass .. => .checkerPass
  | .checkerMismatch .. => .checkerMismatch
  | .checkerRetry .. => .checkerRetry
  | .copyPiece .. => .copyPiece
  | .piecePush .. => .piecePush
  | .syncUpdate .. => .syncUpdate
  | .armEntryPush .. => .armEntryPush
  | .updateAcknowledgment .. => .updateAcknowledgment
  | .copyCompletion .. => .copyCompletion
  | .sliceRequest .. => .sliceRequest
  | .requestRetry .. => .requestRetry
  | .l2Fill .. => .l2Fill
  | .transactionBarrierUpdate .. => .transactionBarrierUpdate
  | .swaitPoll .. => .swaitPoll
  | .twaitRetry .. => .twaitRetry
  | .remotePaletteAccess .. => .remotePaletteAccess
  | .eccUncorrectable .. => .eccUncorrectable
  | .invalidationRequest .. => .invalidationRequest
  | .invalidationDrainEnd .. => .invalidationDrainEnd
  | .invalidationAcknowledge .. => .invalidationAcknowledge
  | .pageWalk .. => .pageWalk
  | .walkRetry .. => .walkRetry
  | .birsp .. => .birsp
  | .bisnp .. => .bisnp
  | .hostSnoop .. => .hostSnoop
  | .cxlMemWrite .. => .cxlMemWrite
  | .meshRouterFailure .. => .meshRouterFailure
  | .meshReroute .. => .meshReroute
  | .hbmTimedSlot .. => .hbmTimedSlot
  | .hbmDynamicSlot .. => .hbmDynamicSlot
  | .tstreamLineArrival .. => .tstreamLineArrival
  | .landingBufferWrite .. => .landingBufferWrite
  | .windowPortServe .. => .windowPortServe
  | .ringSlotDeparture .. => .ringSlotDeparture
  | .ringSlotArrival .. => .ringSlotArrival
  | .timedWriteAccept .. => .timedWriteAccept
  | .xsendWord .. => .xsendWord
  | .exchangeReceive .. => .exchangeReceive
  | .barrierRelease .. => .barrierRelease
  | .promotion .. => .promotion
  | .windowOpen .. => .windowOpen
  | .windowClose .. => .windowClose
  | .windowPostArrival .. => .windowPostArrival
  | .windowTimeout .. => .windowTimeout
  | .gangQueueEntry .. => .gangQueueEntry
  | .matrixOpComplete .. => .matrixOpComplete
  | .drainDelivery .. => .drainDelivery
  | .collectiveComplete .. => .collectiveComplete
  | .collectiveMemberLost .. => .collectiveMemberLost
  | .tileFaultHandling .. => .tileFaultHandling
  | .rollback .. => .rollback
  | .linkSlot => .linkSlot
  | .idleFlit .. => .idleFlit
  | .data .. => .data
  | .arrive .. => .arrive
  | .release .. => .release
  | .crossPackageRelease .. => .crossPackageRelease
  | .hold .. => .hold
  | .go .. => .go
  | .phaseClockResume .. => .phaseClockResume
  | .time .. => .time
  | .timeMeasurement => .timeMeasurement
  | .retry .. => .retry
  | .alarm .. => .alarm
  | .control .. => .control
  | .update .. => .update
  | .reservedFlit .. => .reservedFlit
  | .portFailure .. => .portFailure
  | .uetPacketTransmit .. => .uetPacketTransmit
  | .uetPacketReceive .. => .uetPacketReceive
  | .uetAck .. => .uetAck
  | .uetReplayTimeout .. => .uetReplayTimeout
  | .uetGiveUp .. => .uetGiveUp
  | .laneLoss .. => .laneLoss
  | .powerLimit .. => .powerLimit
  | .cxlMemRead .. => .cxlMemRead
  | .responseArrival .. => .responseArrival
  | .resumption .. => .resumption
  | .retrainingEnd .. => .retrainingEnd

/-- An event happens. -/
def happen (s : State) (e : Event) : Host.Outcome State Fault Refusal := exec (eventInstr e) { s with event := some e }

/-- The agent runs and waits for nothing. -/
def State.mayIssue (s : State) : Agent → Bool
  | .slot i => (s.slot i).st == .running && (s.slot i).wait == .none
  | .tile t => (s.tile t).running && !(s.tile t).ended && (s.tile t).wait == .none

/-- A slot issues: the slots of its core that wait in `tyield` for it need not wait for it any longer (R275). -/
def State.yieldTo (s : State) (i : SlotId) : State :=
  (List.range 4).foldl (fun (u : State) k =>
    let j := slotOf (coreOf i) k
    match (u.slot j).wait with
    | .yield l =>
      let l' := l.erase (numOf i)
      if l'.isEmpty then u.wake j else u.setSlot j { u.slot j with wait := .yield l' }
    | _ => u) s

/-- A user interrupt may be taken (R152, R407). -/
def Slot.mayInterrupt (x : Slot) : Bool :=
  !x.uiq.isEmpty && x.task.isSome && uihEN x.uih && !uihACT x.uih && !causeACT x.h.cause

/-- The first boundary event that is due at a slot, in the order of R406. -/
def State.boundary (s : State) (i : SlotId) : Option (Host.Outcome State Fault Refusal) :=
  let x := s.slot i
  if x.due.contains .budget then some (happen s (.budgetOverrun i))
  else if x.due.contains .queueOverflow then some (.next (s.queueOverflow i))
  else if x.due.contains .preempt then some (happen s (.preemptionRequest i))
  else if x.mayInterrupt then some (happen s (.userInterruptEntry i))
  else none

/-- The word at the PC of an agent is fetched, decoded, checked and executed (R247, R264, R299). -/
def issueWord (s : State) (ag : Agent) : Host.Outcome State Fault Refusal :=
  match s.fetch ag with
  | .fault f => .next (s.raiseFault ag f)
  | .overlay =>
    (match ag with
      | .slot i => .next (s.enterOverlay i)
      | .tile _ => .next s)
  | .bytes b0 b1 b2 b3 =>
    match decodeBytes b0 b1 b2 b3 with
    | .error _ => .next (s.raiseFault ag { cause := 0x01 })
    | .ok i =>
      match checkFault ag (s.hart ag) i with
      | some f => .next (s.raiseFault ag f)
      | none => exec i s

/-- The second instruction of a group has been issued; one that waits is issued again with no boundary before it (R244). -/
def State.groupOff (s : State) (i : SlotId) : State :=
  if (s.slot i).wait == .none then s.setSlot i { s.slot i with second := none } else s

/-- The second instruction of a group, where the first has completed, issues in the same ck (R244); where the first has gone
elsewhere, there is none. -/
def State.groupOn (s : State) (i : SlotId) : State :=
  if !s.mayIssue (.slot i) then s
  else if (s.slot i).second == some (s.slot i).h.pc then { s with round := .slot i :: s.round }
  else s.groupOff i

/-- The turn of a slot: the second instruction of its group, or a boundary event, or the first instruction of its next group
(R244, R406). -/
def slotTurn (s : State) (i : SlotId) : Host.Outcome State Fault Refusal :=
  let x := s.slot i
  if x.second = some x.h.pc then
    match issueWord s (.slot i) with
    | .next t => .next (t.groupOff i)
    | r => r
  else match s.boundary i with
  | some r => r
  | none =>
    match issueWord (s.setSlot i { x with second := s.groupSecond i }) (.slot i) with
    | .next t => .next (t.groupOn i)
    | r => r

/-- The turn of an agent that runs and waits for nothing. -/
def takeTurn (s : State) (ag : Agent) : Host.Outcome State Fault Refusal :=
  match ag with
  | .tile _ => issueWord s ag
  | .slot i => slotTurn (s.yieldTo i) i

/-- An agent whose turn it is issues, if it still may. -/
def issue (s : State) (ag : Agent) : Host.Outcome State Fault Refusal :=
  if s.mayIssue ag then takeTurn { s with cur := ag } ag else .next s

end Sys2Proof.Machine
end

