-- ==== Sys2Proof/Machine/Clocks.lean ====
section
/-!
DEFINITION. The clocks of a ck: domain time (spec/13_links_and_host.md R440, R441), the phase clock and the hold line of a
barrier domain (spec/06_execution_and_scheduling.md R230, R234; spec/11_tensor_and_timed.md R361, R362, R399), the
sequencer offsets of cross-package domains (R446, R447), budgets (R220), and the conditions of a release.
-/
namespace Sys2Proof.Machine

/-! ### Over the tables -/

/-- A step for each domain in turn. -/
def State.eachDomain (s : State) (f : State → Nat → Domain → State) : State :=
  (s.domains.map (fun p => p.1)).foldl (fun u d =>
    match u.domains.find d with
    | some x => f u d x
    | none => u) s

/-- A step for each tile in turn. -/
def State.eachTile (s : State) (f : State → TileId → State) : State :=
  (s.tiles.map (fun p => p.1)).foldl (fun u t => f u (Fin.ofNat 128 t)) s

/-- A step for each core in turn. -/
def State.eachCore (s : State) (f : State → CoreId → State) : State :=
  (s.cores.map (fun p => p.1)).foldl (fun u c => f u (coreNo c)) s

/-- A step for each slot in turn. -/
def State.eachSlot (s : State) (f : State → SlotId → State) : State :=
  (s.slots.map (fun p => p.1)).foldl (fun u i => f u (slotNo i)) s

/-! ### Domain time and budgets -/

/-- Domain time counts one unit each ck, and one more or none in 4,096 while it is slewed (R440, R441). -/
def State.tickTime (s : State) : State :=
  if s.slew.natAbs ≤ 1 then { s with time := s.time + 1, slewAt := 0 }
  else if s.slewAt + 1 < 4096 then { s with time := s.time + 1, slewAt := s.slewAt + 1 }
  else if 0 < s.slew then { s with time := s.time + 2, slew := s.slew - 1, slewAt := 0 }
  else { s with slew := s.slew + 1, slewAt := 0 }

/-- The budget of a slot that runs or waits, or waits in `commit.irr`: a unit after every 64 ck, and the overrun at zero (R220,
R322). -/
def Slot.budgetCk (x : Slot) : Slot :=
  if x.budEn && x.task.isSome && (x.st == .running || x.st == .waiting || (x.st == .committing && x.wait == .irr)) && x.budLeft != 0 then
    if x.budCk + 1 < 64 then { x with budCk := x.budCk + 1 }
    else { x with budCk := 0, budLeft := x.budLeft - 1, due := if x.budLeft = 1 then x.due ++ [.budget] else x.due }
  else x

/-! ### The hold line (R361, R362, R391, R469) -/

/-- Firmware holds the domain in a ck: 1 ck in every 4 (R469). -/
def State.throttled (s : State) (x : Domain) (ck : Nat) : Bool :=
  ck % 4 == 0 && (decide (2 ≤ s.throttle) || (s.throttle == 1 && !x.nthr))

/-- The tile may try its next instruction: an armed one waits for its time, and a taken transfer has cost its ck (R273,
R399). -/
def State.tileReady (s : State) (t : TileId) : Bool :=
  s.mayIssue (.tile t) && !(s.tile t).gap && ((s.tile t).armed.map (fun a => decide (a.2 ≤ s.armClock t a.1))).getD true

/-- The wait that the next instruction of a tile would meet in this ck, a fault among them, or that the tile is in. -/
def State.waitOfTile (s : State) (t : TileId) : Wait :=
  if s.tileReady t then
    match issue { s with round := [] } (.tile t) with
    | .next u => (u.tile t).wait
    | _ => .none
  else (s.tile t).wait

/-- A wait raises the hold line (R361), and so does a fault, in the ck in which it is met (R410). -/
def State.waitRaises (s : State) (x : Domain) (so : Nat) : Wait → Bool
  | .walk _ => true
  | .inval .. => true
  | .stopped => true
  | .stall .always => true
  | .stall .exchange => decide (so < s.exchangeEnd x)
  | _ => false

/-- A tile raises the hold line of its domain in this ck (R69, R361). -/
def State.tileRaises (s : State) (x : Domain) (t : TileId) : Bool :=
  s.waitRaises x (s.tile t).so (s.waitOfTile t) || s.drainHeld (s.tile t) (!x.pent || x.releasing)

/-- The hold line of a domain is raised in this ck (R361, R410, R469). -/
def State.holdRaised (s : State) (x : Domain) : Bool :=
  x.frozen || s.throttled x s.ck || x.tiles.any (s.tileRaises x)

/-! ### The phase clock (R230, R234, R446, R447) -/

/-- The phase clock one ck on: a lead first (R446). -/
def Domain.advance (x : Domain) : Domain := if 0 < x.lead then { x with lead := x.lead - 1 } else { x with off := x.off + 1 }

/-- A window that a stopped clock waits for counts the ck (R234). -/
def Domain.countStop (x : Domain) : Domain :=
  { x with windows := x.windows.map (fun (w : Window) =>
      match w.stopped with
      | some n => if w.isOpen && w.posted.isNone then { w with stopped := some (n + 1) } else w
      | none => w) }

/-- A hold window that stops the phase clock (R234). -/
def Window.stops (w : Window) : Bool := w.isOpen && w.stopped.isSome && w.posted.isNone

/-- A hold window without a post at its CLOSE offset, or at a barrier whose conditions hold, stops the clock (R234). -/
def Domain.stopWindows (x : Domain) (p : Window → Bool) : Domain :=
  { x with windows := x.windows.map (fun (w : Window) =>
      if w.isOpen && w.hold && w.posted.isNone && w.stopped.isNone && p w then { w with stopped := some 0 } else w) }

/-- What the windows of a domain come to as its clock leaves a ck: those that were at their CLOSE are closed, one that
stopped the clock closes with its post, or times out (R234). -/
def State.windowEvents (s : State) (d : Nat) (x : Domain) : State :=
  x.windows.foldl (fun (u : State) (w : Window) =>
    if !w.isOpen then u
    else match w.stopped with
    | some n =>
      if w.posted.isSome then u.post (.windowClose d w.wid)
      else if x.wto * 1024 ≤ n then u.post (.windowTimeout d w.wid) else u
    | none =>
      if w.close == x.off && !x.held && x.lead == 0 && (w.posted.isSome || !w.hold) then u.closeWindow d w.wid else u) s

/-- The phase clock of a domain at the beginning of a ck: it has not advanced where the ck before was held or frozen, where
a hold window stops it, or where HOLDs of other packages stand (R230, R234, R362, R447). -/
def State.domainClock (s : State) (d : Nat) (x : Domain) : State :=
  if !x.started then
    (match x.startAt with
      | some t => if t ≤ s.time then s.post (.domainStart d) else s
      | none => s)
  else if x.saved then s
  else if x.frozen && !x.xpkg then s
  else
    let x0 := if x.frozen then x else x.countStop
    let s1 := (s.setDomain d x0).windowEvents d x0
    let x1 := (s1.domains.find d).getD x0
    let x2 := if x.held || x.lead != 0 then x1 else x1.stopWindows (fun w => w.close == x.off)
    if x.held || x2.windows.any Window.stops then s1.setDomain d x2
    else if x2.stops then
      (if s1.mayResume x2 then (s1.setDomain d x2).post (.phaseClockResume d) else s1.setDomain d x2)
    else s1.setDomain d x2.advance

/-- The sequencer offset of a member tile, and what waits for the phase clock (R446, R447). -/
def State.tileClock (s : State) (d : Nat) (x : Domain) (old : Domain) (t : TileId) : State :=
  let y := s.tile t
  if !x.xpkg then s.setTile t { y with so := x.off }
  else
    let stands := old.held || x.frozen || s.throttled x (s.ck - 1) || s.waitRaises x y.so y.wait
    let so := if stands || decide (x.off + x.hlead - x.lead ≤ y.so) then y.so else y.so + 1
    let past (o : Nat) : Bool := x.lead == 0 && decide (o < x.off)
    let taps := (y.taps.filter (fun p => past p.1)).getLast?
    let go := y.holds.filter (fun o => decide (o + x.hlead ≤ so))
    let there := x.lead == 0 && (y.arrive.map (fun o => decide (o ≤ x.off))).getD false
    let s1 := s.setTile t { y with
      so := so
      taps := y.taps.filter (fun p => !past p.1)
      r := match taps with
        | some p => { y.r with tap := p.2 }
        | none => y.r
      arrive := if there then none else y.arrive
      holds := y.holds.filter (fun o => !go.contains o) }
    let s2 := go.foldl (fun u o => u.sendGo d o) s1
    if there then
      match s2.domains.find d with
      | some z => s2.setDomain d { z with arrived := insertNat t.val z.arrived }
      | none => s2
    else s2

/-- The clocks of a domain and of its members. -/
def State.domainCk (s : State) (d : Nat) (x : Domain) : State :=
  let s1 := s.domainClock d x
  if !x.started || x.saved then s1
  else match s1.domains.find d with
  | some y =>
    (y.tiles.filter (fun t => (s1.tile t).ended || y.arrived.contains t.val)).foldl (fun (u : State) t =>
      match u.domains.find d with
      | some z => u.sendCount d z t
      | none => u) (y.tiles.foldl (fun u t => u.tileClock d y x t) s1)
  | none => s1

/-! ### Arrival and release (R230, R234, R397, R444) -/

/-- ARRIVE has come from every child of the gather tree (R444). -/
def State.childrenIn (s : State) (x : Domain) : Bool := (s.childrenOf x).all (fun n => x.xarr.contains (n, x.step))

/-- What the conditions of a barrier bring about in a ck: a release under way, which a freeze does not stop (R422: a rollback starts
only before it), the stop of the clock for a hold window, the arrival that goes to
other packages, promotion and release; or the fault of members whose collectives do not match. -/
def State.releaseStep (s : State) (d : Nat) (x : Domain) : State :=
  if !x.started || x.saved then s
  else if x.releasing then
    if !x.xpkg then s.closing d x true
    else match x.trel with
    | some t => if t ≤ s.time ∧ !(s.timers.any (fun p => p.2 == .crossPackageRelease d)) then s.post (.crossPackageRelease d) else s
    | none => s
  else if x.frozen then s
  else if s.collectiveShort d x then s.faultMembers x { cause := 0x14, asy := true }
  else if !s.barrierMet x then s
  else if x.windowWaits then s.setDomain d (x.stopWindows (fun _ => true))
  else if x.xpkg then (if !x.xsent && s.childrenIn x then s.sendArrive d x else s)
  else
    let s1 := (s.setDomain d { x with releasing := true }).startPromotion d
    s1.closing d { x with releasing := true } true

/-! ### The exchange and the windows of a ck (R232, R393, R394) -/

/-- The windows that open at the phase offset of this ck, held or not (R232, R234). -/
def State.openEvents (s : State) (d : Nat) (x : Domain) : State :=
  if x.lead != 0 || x.frozen then s
  else x.windows.foldl (fun (u : State) (w : Window) =>
    if !w.isOpen && w.opn == x.off && w.opensIn x.step && !w.deliveredIn x.step then u.post (.windowOpen d w.wid) else u) s

/-- The windows that deliver at the phase offset of this ck, once the posts of the ck have been taken (R234). -/
def State.closeEvents (s : State) (d : Nat) (x : Domain) : State :=
  if !x.started || x.saved || x.frozen || x.held || x.stops then s
  else x.windows.foldl (fun (u : State) (w : Window) =>
    if w.closing x then u.post (.windowClose d w.wid) else u) s

/-- The events of a ck of a domain: windows that open, and, in a ck that is not held, words that leave and words
received. -/
def State.phaseEvents (s0 : State) (d : Nat) (x : Domain) : State :=
  if !x.started || x.saved then s0
  else
    let s := s0.openEvents d x
    if !x.xpkg && x.held then s
    else
    let s1 := x.tiles.foldl (fun (u : State) t => if (s.tile t).sending.isSome then u.post (.xsendWord t) else u) s
    if x.lead != 0 || x.stops then s1
    else
      x.tiles.foldl (fun (u : State) t =>
        if ((s.tile t).receiving x.off).isSome then u.post (.exchangeReceive t) else u) s1

end Sys2Proof.Machine
end

