-- ==== Sys2Proof/Machine/Tick.lean ====
section
/-!
DEFINITION. What the machine does by itself in a ck, besides the issue of its agents: the events that fall due, the
steps of the engines, and the choice of the agents that issue (spec/06_execution_and_scheduling.md R208 to R210). A ck has
four parts: the clocks and engines; the exchange, the windows and the landings; the hold lines and the tiles; the window
accesses and the cores.
-/
namespace Sys2Proof.Machine

/-! ### Events that fall due -/

/-- The physical address is in tile memory. -/
def State.inTile (s : State) (pa : Nat) : Bool :=
  match s.phys pa with
  | .tileMem .. => true
  | _ => false

/-- The next run of a piece. -/
def Piece.next (x : Piece) : Option DstRun := x.todo.bind List.head?

/-- The part of a ck in which a timed event happens: 0 at its end, 1 at its beginning, 2 with the landings, 3 with the window
accesses after the tiles' own (R69, R70, R234, R375). -/
def State.partOf (s : State) (e : Event) : Nat :=
  match e with
  | .gangQueueEntry .. => 0
  | .windowPostArrival .. => 2
  | .landingBufferWrite .. => 2
  | .tstreamLineArrival .. => 2
  | .windowPortServe _ => 3
  | .uetPacketTransmit .. => 3
  | .uetPacketReceive _ => 3
  | .copyPiece p => if ((s.pieces.find p).map (fun x => s.inTile x.line)).getD false then 3 else 1
  | .piecePush p =>
    (match (s.pieces.find p).bind Piece.next with
      | some r => if r.pal.isNone && s.inTile r.pa then 3 else 1
      | none => 1)
  | _ => 1

/-- The ck in which a pending line arrived at its tile. -/
def State.landedAt (s : State) (t : TileId) (id : Nat) : Nat :=
  (((s.tile t).lands.find? (fun l => l.id == id)).bind (fun l => l.since)).getD s.ck

/-- The place of a timed event among those of its part of a ck, in order. At a palette, drain writes come first, then the
writes of copies and updates of sync words, then what arrives over the mesh (R62, R149). Spawns come in order of their source core (R216) and posts of their
logical core (R234). At a tile's banks ring landings come before HBM landings, each in order of arrival (R69; log 62). -/
def State.rankOf (s : State) (e : Event) : List Nat :=
  match e with
  | .drainDelivery _ n k => [0, n, k]
  | .piecePush .. => [1]
  | .copyCompletion _ => [1]
  | .remotePaletteAccess _ => [2]
  | .syncUpdate .. => [1]
  | .spawnArrival _ i _ => [3, (coreOf i).val]
  | .windowPostArrival i .. => [3, (coreOf i).val]
  | .landingBufferWrite t k => [4, s.landedAt t k]
  | .tstreamLineArrival t k => [5, s.landedAt t k, Config.landTurn k]
  | _ => [3]

/-- A rank comes before another. -/
def rankBefore : List Nat → List Nat → Bool
  | [], [] => false
  | [], _ => true
  | _, [] => false
  | a :: l, b :: m => decide (a < b) || (a == b && rankBefore l m)

/-- An event inserted into a list in order of rank, after those of its own rank. -/
def State.insertRank (s : State) (e : Event) : List Event → List Event
  | [] => [e]
  | x :: l => if rankBefore (s.rankOf e) (s.rankOf x) then e :: x :: l else x :: s.insertRank e l

/-- The timed events of a part of the ck that are due join the agenda. -/
def State.fallDue (s : State) (part : Nat) : State :=
  let now (p : Nat × Event) : Bool := decide (p.1 ≤ s.ck) && s.partOf p.2 == part
  let due := (s.timers.filter now).map (fun p => p.2)
  { s with
    timers := s.timers.filter (fun p => !now p)
    agenda := s.agenda ++ due.foldl (fun l e => s.insertRank e l) [] }

/-! ### Engines, slices, HBM and rings -/

/-- The ring slots that leave in this ck and have something to carry (R84, R85, R87, R384, R385). -/
def State.ringStep (s : State) : State :=
  s.launches.foldl (fun (u : State) p =>
    if p.2.st != .running && p.2.st != .leaving then u
    else p.2.rings.foldl (fun (v : State) r =>
      let frame := 96 * r.2.1
      let now := (s.ck - p.2.start) % frame
      (r.2.2.filter (fun e => seV e && seCYC e == now)).foldl (fun (w : State) e =>
        let moves :=
          if seOP e = 1 then !(s.slotReads (Fin.ofNat 128 (stationTile r.1 (seDST e))) (seSRC e)).isEmpty
          else !(s.slotWrites (Fin.ofNat 128 (stationTile r.1 (seSRC e))) (seDST e)).isEmpty
        if moves then w.post (.ringSlotDeparture r.1 e) else w) v) u) s

/-- The pseudo-channels whose timed slot that starts now is assigned to a line (R99, R387). -/
def State.timedChannels (s : State) : List Nat :=
  (s.tiles.flatMap (fun p => (p.2.lands.filter (fun l => l.kind == .stream && l.slotCk == some s.ck && l.held.isNone)).map
    (fun l => pchOf l.pa))).foldl (fun l c => insertNat c l) []

/-- The HBM slots that start now: assigned timed slots, and dynamic slots of channels with requests (R96 to R100). -/
def State.hbmStep (s : State) : State :=
  if s.ck % 16 != 0 then s
  else if s.slotTimed (s.ck / 16) then s.timedChannels.foldl (fun u c => u.post (.hbmTimedSlot c)) s
  else (s.hbmQ.filter (fun q => !q.2.reads.isEmpty || !q.2.writes.isEmpty)).foldl (fun u q => u.post (.hbmDynamicSlot q.1)) s

/-- Invalidations: drains that have ended, and those that wait on a domain that waits on them (R36, R40). -/
def State.invalStep (s : State) : State :=
  (s.invals.filter (fun p => p.2.phase == .drain && p.2.blocked s.ck)).foldl (fun (u : State) p =>
    if s.drained p.2 then u.post (.invalidationDrainEnd p.1) else u.eachDomain (fun v d x => v.resolveDrain p.1 p.2 d x)) s

/-! ### Launches and queues -/

/-- Records that wait for room, and the end of a launch (R223, R225). -/
def State.launchStep (s : State) : State :=
  s.launches.foldl (fun (u : State) p =>
    if p.2.st != .running then u
    else if !p.2.toPush.isEmpty then u.pushInitial p.1 p.2.toPush
    else if u.mayEnd p.1 p.2 then u.post (.launchEnd p.1) else u) s

/-- Each command processor submits one packet, once the firmware runs (R460, R465); what it has still to write or to send after
a wait is tried again (R42, R43). -/
def State.queueStep (s : State) : State :=
  if s.boot.st != .running then s
  else (((List.range 4).foldl (fun u cp => u.submitPacket cp) s).finishStep).arrivalStep

/-! ### Tasks (R178, R189, R210, R213) -/

/-- The core may take tasks: its launch runs, its cluster is not in change, and no checker has stopped it. -/
def State.coreTakes (s : State) (c : CoreId) : Bool :=
  !(s.core c).stopped && ((s.launchOf c).map (fun l => l.st == .running)).getD false && !clmapChg (s.clmapAt (c.val / 8))

/-- The core's deque and its spill hold a record. -/
def State.hasWork (s : State) (c : CoreId) : Bool := !(s.core c).deque.isEmpty || s.spilled c != 0

/-- A deque has room for one record more (R212). -/
def State.dequeRoom (s : State) (c : CoreId) : Bool := decide ((s.core c).deque.length < 32) || s.spillRoom c

/-- The deque controller may reach its spill. -/
def State.dequeFree (s : State) (c : CoreId) : Bool := decide ((s.core c).tryAt ≤ s.ck)

/-- The deque of a core in a ck: records beyond its hardware part are spilled, released records are pushed as entries free
(R151, R212), idle slots take a preloaded record or the head of the deque, and a core without records steals (R210, R213). -/
def State.taskStep (s0 : State) (c : CoreId) : State :=
  let s := if s0.dequeFree c then s0.trimDeque c else s0
  let s := if (s.core c).arms.any Arm.due && s.dequeFree c && s.dequeRoom c then s.post (.armEntryPush c) else s
  if !s.coreTakes c then s
  else
    let idle := ((List.range 4).map (slotOf c)).filter (fun i => (s.slot i).st == .idle)
    let starts := idle.filter (fun i => (s.slot i).preload.isSome || (s.hasWork c && s.dequeFree c))
    let s1 := starts.foldl (fun u i => u.post (.taskStart i)) s
    let preloads := (List.range 4).any (fun k => (s.slot (slotOf c k)).preload.isSome)
    if !idle.isEmpty && !s.hasWork c && !preloads && !(s.core c).stealing then s1.sendSteal c else s1

/-- The views of a core follow the fronts of its launch: down at once, up by a message of the steal network, which takes less
than 512 ck (R92, R178; log 122). -/
def State.viewStep (s : State) (c : CoreId) : State :=
  if (s.core c).lid.isNone then s
  else (List.range 15).foldl (fun (u : State) k =>
    let f := s.front (s.core c).lid (k + 1)
    let v := (s.core c).views.getD k (2 ^ 32)
    if f < v then u.setCore c { u.core c with views := (u.core c).views.setIfInBounds k f }
    else if v < f then
      let e : Event := .commitFrontMessage c (k + 1) f
      if u.timers.any (fun p => p.2 == e) then u else u.after (1 + Config.frontDelay c.val % 500) e
    else u) s

/-- The front of a domain that waits for a slot is timed (R189). -/
def State.frontStep (s : State) (lid : Nat) (d : Nat) : State :=
  let e : Event := .starvedFrontTimeout lid d
  if (s.starved lid d).isSome then (if s.timers.any (fun p => p.2 == e) then s else s.after 4096 e)
  else s.dropEvents (fun x => x == e)

/-- What a slot that does not run may do now: commit, go on, or be pre-empted (R42, R133, R169, R179, R212, R412). -/
def State.slotStep (s : State) (i : SlotId) : State :=
  let x := s.slot i
  let s1 := if s.mayCommit i then s.post (.commit i) else s
  if x.due.contains .preempt && x.st != .running && x.yields then s1.post (.preemptionRequest i)
  else match x.wait with
  | .deque d r status => if s.dequeRoom (coreOf i) && x.st == .waiting then s1.waitingPush i d r status else s1
  | .copyUnit => if (s.copiesOf (coreOf i)).length < 16 then s1.wake i else s1
  | .updates => if x.out = 0 then s1.wake i else s1
  | .retry t => if t ≤ s.ck ∧ !(s.core (coreOf i)).checking.contains (numOf i) then s1.wake i else s1
  | _ => s1

/-! ### Links (R434, R440, R441) -/

/-- The link slot of this ck, once, from the first on, also where a step of domain time has landed inside it (R434, R442), and the
time measurement that begins in this ck; `t` is the domain time of the ck before, which a slew may have moved by none or by
two. -/
def State.linkStep (s : State) (t : Nat) : State :=
  if !s.inTorus then s
  else
    let slot := s.time / 10
    let s1 := if s.slotSent == some slot then s else ({ s with slotSent := some slot } : State).post .linkSlot
    let s2 := if t / 16384 < s.time / 16384 then s1.post .timeMeasurement else s1
    s2.retryControl

/-! ### The parts of a ck -/

/-- The beginning of a ck: the clocks, what falls due, and one step of every engine. -/
def State.beginCk (s : State) : State :=
  let ck := s.ck + 1
  let s1 : State := { s with ck := ck, event := none, mid := 1, ncorr := s.ncorr + Config.corrected ck, banks := [], unitWalks := s.unitWalks.filter (fun w => decide (ck < w.ready + 64)), bankWaits := s.bankWaits.filter (fun w => w.last + 1 == ck) }
  let s2 := s1.tickTime.eachDomain State.domainCk
  let s3 : State := { s2 with
    slots := s2.slots.map (fun p => (p.1, p.2.budgetCk))
    tiles := s2.tiles.map (fun p => (p.1, { p.2 with
      banks := []
      flagged := 0
      wait := match p.2.wait with
        | .stall _ => .none
        | w => w })) }
  let s4 := (s3.eachDomain State.releaseStep).fallDue 1
  let s5 := s4.launchStep.queueStep
  let s6 := ((s5.eachTile State.drainStep).pinStep.keptStep.ringStep.hbmStep.invalStep).eachCore State.copyStep
  let s7 := ((s6.eachSlot State.slotStep).eachCore (fun u c => (u.taskStep c).viewStep c)).eachCore State.stealStep
  let s8 := s7.launches.foldl (fun (u : State) p =>
    if p.2.st == .running then (List.range 15).foldl (fun v k => v.frontStep p.1 (k + 1)) u else u) s7
  (s8.linkStep s.time).eachDomain State.agreeStart

/-- A domain knows whether its line is held in this ck. -/
def State.markHeld (s : State) (d : Nat) (x : Domain) : State :=
  if !x.started || x.saved || x.xpkg then s else s.setDomain d { x with held := s.holdRaised x }

/-- The middle of a ck: words, receptions and openings of the domains that are not held, posts, and landings. -/
def State.middleCk (s : State) : State :=
  (((({ s with mid := 2 } : State).eachDomain State.markHeld).eachDomain State.phaseEvents).fallDue 2).eachDomain State.closeEvents

/-- The hold line of a domain, decided for the issue of this ck, with the marks that firmware's holds leave (R362, R391,
R447, R469). -/
def State.settleHold (s : State) (d : Nat) (x : Domain) : State :=
  if !x.started || x.saved then s
  else
    let throttle := s.throttled x s.ck
    let raising := x.tiles.filter (fun t => x.frozen || throttle || s.tileRaises x t)
    let held := !raising.isEmpty || x.frozen || throttle || (x.held && !x.xpkg)
    let s1 := s.setDomain d { x with held := held && !x.xpkg, heldCk := if held then x.heldCk + 1 else x.heldCk }
    let s2 := if throttle then x.tiles.foldl (fun (u : State) t => u.setTile t { u.tile t with thr := true }) s1 else s1
    if !x.xpkg then s2
    else raising.foldl (fun (u : State) t =>
      let y := u.tile t
      if y.holds.contains y.so then u else (u.setTile t { y with holds := y.holds ++ [y.so] }).sendHold d y.so) s2

/-- A tile takes its turn in this ck: its domain runs and is not held. In a held ck a tile whose own wait raises the line
begins that wait. -/
def State.tileTurn (s : State) (t : TileId) : Bool :=
  match s.domainOf t.val with
  | none => s.tileReady t
  | some (_, x) =>
    x.started && !x.saved && !x.frozen && !s.throttled x s.ck && s.tileReady t && (!x.held || s.tileRaises x t)

/-- The instruction behind a wait is ready to issue, or to fault, or arrives at its barrier (R400). -/
def Wait.issues : Wait → Bool
  | .stall _ => false
  | .walk _ => false
  | .inval .. => false
  | _ => true

/-- An armed instruction that issues in this ck is armed no longer (R400). -/
def State.armedDue (s : State) (t : TileId) : Bool := (s.tile t).armed.isSome && (s.waitOfTile t).issues

/-- The slot that a core issues from in this ck, round-robin (R209), with the issue duty that firmware allows (R469); nothing
issues in the ck that a taken transfer costs (R273). -/
def State.pickSlot (s : State) (c : CoreId) : Option SlotId :=
  let x := s.core c
  let slots := (List.range 4).map (fun k => slotOf c (x.rr + 1 + k))
  if x.stopped || decide (s.ck % 4 < s.duty) || slots.any (fun i => (s.slot i).gap) then none
  else slots.find? (fun i => s.mayIssue (.slot i))

/-- The tiles' part of a ck: operand reads take their banks, the hold lines are decided, and the tiles issue (R69, log 6). The ck
that a taken transfer costs passes in a held ck too (R273, R362; log 129). -/
def State.tileCk (s : State) : State :=
  let s0 := ({ s with mid := 3 } : State).eachTile (fun u t => u.operandReads t false)
  let s1 := s0.eachDomain State.settleHold
  let ts := ((s1.tiles.map (fun p => (Fin.ofNat 128 p.1 : TileId))).filter s1.tileTurn)
  let s2 := ts.foldl (fun (u : State) t => if s1.armedDue t then u.post (.armedIssue t) else u) s1
  { s2 with
    tiles := s2.tiles.map (fun p => (p.1, { p.2 with gap := false }))
    round := ts.map Agent.tile }

/-- The slots that wait for a palette bank, those that have lost before in the order of their requests (R62). -/
def State.bankSlots (s : State) : List SlotId :=
  let waits (i : SlotId) : Bool := (s.slot i).wait == .bank && !(s.core (coreOf i)).stopped
  let old := s.bankWaits.filterMap (fun w =>
    match w.who with
    | .agent (.slot i) => if waits i then some i else none
    | _ => none)
  (old ++ ((s.slots.map (fun p => slotNo p.1)).filter waits)).foldl (fun l i => if l.contains i then l else l ++ [i]) []

/-- The window accesses that tiles hold are tried again, in order (R70). -/
def State.portStep (s : State) (t : TileId) : State :=
  let x := s.tile t
  let held := x.port.filterMap (fun id => (s.reqs.find id).map (fun q => (id, q)))
  held.foldl (fun (u : State) q => u.post (match q.2.who with
    | .event e => e
    | _ => .windowPortServe q.1)) (if held.length = x.port.length then s else s.setTile t { x with port := held.map (fun q => q.1) })

/-- The cores' part of a ck: `tred` reads and window accesses meet the tiles' banks, accesses that wait for a palette bank try
again, and each core issues from one slot (R62, R69, R70, R209). -/
def State.coreCk (s : State) : State :=
  let s1 := ((({ s with mid := 0 } : State).eachTile (fun u t => u.operandReads t true)).eachTile State.portStep).fallDue 3
  let again := s1.bankSlots
  let cs := (s1.slots.map (fun p => p.1 / 4)).foldl (fun l c => insertNat c l) []
  let picks := cs.filterMap (fun c => s1.pickSlot (coreNo c))
  let s2 := picks.foldl (fun (u : State) i => u.setCore (coreOf i) { u.core (coreOf i) with rr := numOf i }) s1
  let s3 := again.foldl (fun (u : State) i => u.wake i) s2
  { s3 with
    slots := s3.slots.map (fun p => (p.1, { p.2 with gap := false }))
    round := (again ++ picks).map Agent.slot }

/-- The machine goes on by itself: what is left at the end of a ck, or the next part of a ck. -/
def State.tick (s : State) : State :=
  if s.mid = 1 then s.middleCk
  else if s.mid = 2 then s.tileCk
  else if s.mid = 3 then s.coreCk
  else
    let u := s.fallDue 0
    if u.agenda.isEmpty then s.beginCk else u

end Sys2Proof.Machine
end

