-- ==== Sys2Proof/Machine/Step.lean ====
section
/-!
DEFINITION. One step of the machine: an event that is due, or the turn of an agent, or the machine's own progress (log 9);
and the placing of one instruction word for the next step (log 3).
-/
namespace Sys2Proof.Machine

/-- One step. The events that are due come first; then the next agent of the round takes its turn; with neither, the
machine goes on by itself. -/
def step (s : State) : Host.Outcome State Fault Refusal :=
  match s.agenda with
  | e :: rest => happen { s with agenda := rest } e
  | [] =>
    match s.round with
    | ag :: rest => issue { s with round := rest, event := none } ag
    | [] => .next s.tick

/-- The state with the word stored at the start of the code region of slot 0 of core 0, which takes the next turn at offset
0: what a launch and a task start set up (R223, R207; log 3). -/
def State.placeOnSlot (s : State) (bytes : List Byte) : State :=
  let x := s.slot 0
  let c := s.core 0
  let part := if partXB c.part = 0 then c.part ||| 0x8000000000000001#64 else c.part
  let s1 := (s.setCore 0 { c with part := part }).setSlot 0
    { x with st := .running, wait := .none, due := [], uiq := [], second := none, h := { x.h with pc := 0 } }
  { s1 with
    mem := memPut s1.mem (s1.palette 0) bytes
    marks := s1.marks.filter (fun g => g != s1.palette 0 / 64)
    agenda := []
    event := none
    round := [.slot 0] }

/-- The state with the word stored at the start of the code region of tile 0, which takes the next turn at offset 0 (R223,
R264; log 3). -/
def State.placeOnTile (s : State) (bytes : List Byte) : State :=
  let x := s.tile 0
  let s1 := s.setTile 0
    { x with running := true, ended := false, wait := .none, armed := none, tclen := max 256 x.tclen, turn := 0,
             r := { x.r with h := { x.r.h with pc := 0 } } }
  { s1 with
    mem := memPut s1.mem (tileBase 0) bytes
    marks := s1.marks.filter (fun g => g != tileBase 0 / 64)
    agenda := []
    event := none
    round := [.tile 0] }

/-- The state with an instruction placed where the next step fetches: on slot 0 of core 0, or, if only the tile profile has
the instruction, on tile 0 (log 3). -/
def State.withFetchWord (s : State) (nbits w : Nat) : State :=
  let bytes := bytesOfNat 4 (w % 2 ^ nbits)
  match decodeTableWord nbits w with
  | some i => if tileOnly i then s.placeOnTile bytes else s.placeOnSlot bytes
  | none => s.placeOnSlot bytes

end Sys2Proof.Machine
end

