-- ==== Sys2Proof/Safety.lean ====
section
/-!
DEFINITION. What claims call a safe run: the states that every step keeps to, and the outcomes of a step.
-/
namespace Sys2Proof.Machine

/-- The memory of a state is in its canonical form (log 2). -/
def State.Canonical (s : State) : Prop := Memory.wf s.mem = true

end Sys2Proof.Machine
end

