-- ==== Sys2Proof/Certificates/Slice0/Obligations.lean ====
section
/-!
DEFINITION. The statements for the provers. Section `Claims` holds what they say in words of the spec; each obligation's
docstring cites the rules it rests on.
-/
namespace Sys2Proof.Claims
open Sys2Proof.Machine

/-! ### What a step leaves alone -/

/-- Only the registers of one agent may differ: every other agent and every byte of memory is as it was. -/
def OnlyHart (s t : State) (ag : Agent) : Prop :=
  t = s.setHart ag (t.hart ag) ∧ (∀ b, b ≠ ag → t.hart b = s.hart b) ∧ ∀ a, memRead t.mem a = memRead s.mem a

/-- Of the registers, only `gd`, the PC and what loop end processing changes may differ (R281). -/
def HartFrame (h h' : Hart) (d : Reg) : Prop :=
  (∀ r, r ≠ d → h'.rg r = h.rg r) ∧ h'.v = h.v ∧ h'.p = h.p ∧ h'.qa = h.qa ∧ h'.abase = h.abase ∧ h'.cdep = h.cdep
    ∧ h'.ild = h.ild ∧ h'.nst = h.nst ∧ h'.cause = h.cause ∧ h'.epc = h.epc ∧ h'.latch = h.latch

/-! ### Scalar instructions -/

/-- The guard of a scalar instruction lets it execute (R247, R248). -/
def GuardOn (s : State) : Guard → Prop
  | .pred k => (((s.hart s.cur).rp k).getLsbD 0) = true
  | .stage n => (s.hart s.cur).stg.getLsbD n.toNat = true

/-- The executing agent writes `gd` and continues at the next instruction (R265). -/
def writes (s : State) (d : Reg) (x : Word) : State := (s.wg s.cur d x).done s.cur

/-- `a cc b` over the integers that the words stand for (R251). -/
def ccMeans (cc : Cc) (a b : Word) : Bool :=
  match cc with
  | .eq => decide (a.toNat = b.toNat)
  | .ne => decide (a.toNat ≠ b.toNat)
  | .lt => decide (a.toInt < b.toInt)
  | .ge => decide (b.toInt ≤ a.toInt)
  | .gt => decide (b.toInt < a.toInt)
  | .le => decide (a.toInt ≤ b.toInt)
  | .lo => decide (a.toNat < b.toNat)
  | .hs => decide (b.toNat ≤ a.toNat)
  | .hi => decide (b.toNat < a.toNat)
  | .ls => decide (a.toNat ≤ b.toNat)

/-- The results of R266 over `a`, `b` and the old `gd`, `c`, as exact integers narrowed to 64 bits. -/
def registerResults (g : Guard) (d a b : Reg) (cc : Cc) (k : PReg) (pk : Bool) (x y c : Word) : List (Instr × Word) :=
  let n := y.toNat % 64
  [ (.add g d a b, BitVec.ofNat 64 (x.toNat + y.toNat)), (.sub g d a b, BitVec.ofInt 64 (x.toInt - y.toInt)),
    (.mul g d a b, BitVec.ofNat 64 (x.toNat * y.toNat)), (.mulhI g d a b, BitVec.ofInt 64 (x.toInt * y.toInt / 2 ^ 64)),
    (.mulhN g d a b, BitVec.ofNat 64 (x.toNat * y.toNat / 2 ^ 64)), (.madd g d a b, BitVec.ofNat 64 (c.toNat + x.toNat * y.toNat)),
    (.and g d a b, BitVec.ofNat 64 (x.toNat &&& y.toNat)), (.or g d a b, BitVec.ofNat 64 (x.toNat ||| y.toNat)),
    (.xor g d a b, BitVec.ofNat 64 (x.toNat ^^^ y.toNat)), (.shl g d a b, BitVec.ofNat 64 (x.toNat * 2 ^ n)),
    (.shrI g d a b, BitVec.ofInt 64 (x.toInt / 2 ^ n)), (.shrN g d a b, BitVec.ofNat 64 (x.toNat / 2 ^ n)),
    (.rot g d a b, BitVec.ofNat 64 (x.toNat / 2 ^ n + x.toNat % 2 ^ n * 2 ^ (64 - n))),
    (.clz g d a, BitVec.ofNat 64 (if x.toNat = 0 then 64 else 63 - x.toNat.log2)),
    (.ctz g d a, BitVec.ofNat 64 (((List.range 64).takeWhile (fun j => !x.getLsbD j)).length)),
    (.popc g d a, BitVec.ofNat 64 (((List.range 64).filter (fun j => x.getLsbD j)).length)),
    (.minI g d a b, BitVec.ofInt 64 (min x.toInt y.toInt)), (.maxI g d a b, BitVec.ofInt 64 (max x.toInt y.toInt)),
    (.minN g d a b, BitVec.ofNat 64 (min x.toNat y.toNat)), (.maxN g d a b, BitVec.ofNat 64 (max x.toNat y.toNat)),
    (.setCc g cc d a b, if ccMeans cc x y then 1 else 0), (.sel g d a b k, if pk then x else y) ]

/-- The results of R266 and R267 for the four divisions. -/
def divisionResults (g : Guard) (d a b : Reg) (x y : Word) : List (Instr × Word) :=
  [ (.divI g d a b, if y = 0 then BitVec.ofNat 64 (2 ^ 64 - 1)
      else if x.toInt = -2 ^ 63 ∧ y.toInt = -1 then BitVec.ofInt 64 (-2 ^ 63) else BitVec.ofInt 64 (x.toInt.tdiv y.toInt)),
    (.remI g d a b, if y = 0 then x else if x.toInt = -2 ^ 63 ∧ y.toInt = -1 then 0
      else BitVec.ofInt 64 (x.toInt - y.toInt * x.toInt.tdiv y.toInt)),
    (.divN g d a b, if y = 0 then BitVec.ofNat 64 (2 ^ 64 - 1) else BitVec.ofNat 64 (x.toNat / y.toNat)),
    (.remN g d a b, if y = 0 then x else BitVec.ofNat 64 (x.toNat - y.toNat * (x.toNat / y.toNat))) ]

/-- Every guarded instruction of R266. -/
def registerInstrs (g : Guard) (d a b : Reg) (cc : Cc) (k : PReg) : List Instr :=
  (registerResults g d a b cc k false 0 0 0).map (fun p => p.1) ++ (divisionResults g d a b 0 0).map (fun p => p.1)

/-- SPAN of the executing agent's profile (R269). -/
def span (s : State) : Int := match s.cur with
  | .slot _ => 2 ^ 18
  | .tile _ => 2 ^ 23

/-- The target `off` words after the instruction (R271). -/
def target (s : State) (off : Int) : BitVec 23 := BitVec.ofInt 23 ((((s.hart s.cur).pc.toNat : Int) + 4 * off) % span s)

/-- The results of R269 and R270 over `a` and the old `gd`, `c`. -/
def immediateResults (s : State) (d a : Reg) (i16 : BitVec 16) (i21 : BitVec 21) (h : BitVec 2) (pos len1 n : BitVec 6)
    (x c : Word) : List (Instr × Word) :=
  let p := pos.toNat
  let w := len1.toNat + 1
  let f := x.toNat / 2 ^ p % 2 ^ w
  [ (.addi d a i16, BitVec.ofInt 64 (x.toInt + i16.toInt)), (.andi d a i16, BitVec.ofNat 64 (x.toNat &&& i16.toNat)),
    (.ori d a i16, BitVec.ofNat 64 (x.toNat ||| i16.toNat)), (.xori d a i16, BitVec.ofNat 64 (x.toNat ^^^ i16.toNat)),
    (.li d i21, BitVec.ofInt 64 i21.toInt),
    (.lih d h i16, BitVec.ofNat 64 (c.toNat - c.toNat / 2 ^ (16 * h.toNat) % 2 ^ 16 * 2 ^ (16 * h.toNat) + i16.toNat * 2 ^ (16 * h.toNat))),
    (.lia d i21, BitVec.ofNat 64 (0x007F000000000000 + (target s i21.toInt).toNat)),
    (.bfx d a pos len1, BitVec.ofNat 64 f),
    (.bfxI d a pos len1, BitVec.ofInt 64 (if 2 * f < 2 ^ w then (f : Int) else (f : Int) - 2 ^ w)),
    (.shli d a n, BitVec.ofNat 64 (x.toNat * 2 ^ n.toNat)), (.shriI d a n, BitVec.ofInt 64 (x.toInt / 2 ^ n.toNat)),
    (.shriN d a n, BitVec.ofNat 64 (x.toNat / 2 ^ n.toNat)) ]

/-- The bits of a `bfi` (R270): those of the field from `a`, the others from `gd`. -/
def bfiBit (x c : Word) (p w j : Nat) : Bool := if p ≤ j ∧ j < p + w then x.getLsbD (j - p) else c.getLsbD j

/-! ### Transfers, loops and control registers -/

/-- The state with the executing agent's registers replaced. -/
def withHart (s : State) (h : Hart) : State := s.setHart s.cur h

/-- The executing agent goes on with these registers, and nothing issues in the ck that follows (R273). -/
def jumps (s : State) (h : Hart) : State :=
  let u := withHart s h
  match s.cur with
  | .slot i => u.setSlot i { u.slot i with gap := true }
  | .tile t => u.setTile t { u.tile t with gap := true }

/-- The registers of the executing agent. -/
def me (s : State) : Hart := s.hart s.cur

/-- A loop control instruction goes on with these registers: where that is another place than the next instruction, after a ck in
which nothing issues (R286). -/
def moves (s : State) (h : Hart) : State := if h.pc = (me s).pc + 4 then withHart s h else jumps s h

/-- The target that a register names (R271). -/
def registerTarget (s : State) (x : Word) : BitVec 23 := BitVec.ofNat 23 (x.toNat % (span s).toNat)

/-- Link (R273). -/
def link (h : Hart) : Word := BitVec.ofNat 64 (0x007F000000000000 + (h.pc.toNat + 4))

/-- A level whose body a transfer leaves (R288). -/
def Left (h : Hart) (tgt : BitVec 23) (j : Nat) : Prop :=
  (h.level j).act = true ∧ (h.level j).lcd = h.cdep ∧ (tgt.toNat < (h.level j).beg.toNat ∨ (h.level j).fin.toNat ≤ tgt.toNat)

/-- The two loop instructions, with the count that each reads (R279). -/
def loopForms (s : State) (lvl : BitVec 2) (rot : Bool) (cnt : BitVec 11) (a : Reg) (len : BitVec 12) : List (Instr × Word) :=
  [(.loop lvl rot cnt len, cnt.setWidth 64), (.loopr lvl rot a len, s.rg s.cur a)]

/-- END of a loop instruction (R279). -/
def loopEnd (h : Hart) (len : BitVec 12) : BitVec 23 := h.pc + BitVec.ofNat 23 (4 + 4 * len.toNat)

/-- Entry passes its checks (R279). -/
def MayEnter (h : Hart) (l : Nat) (rot : Bool) (len : BitVec 12) : Prop :=
  (h.lv.toList.filter (fun x => x.act)).length = l ∧ (h.level l).act = false
    ∧ (∀ j < 4, (h.level j).act = true → (h.level j).lcd = h.cdep → (loopEnd h len).toNat ≤ (h.level j).fin.toNat)
    ∧ (rot = true → (∀ j < 4, (h.level j).act = true → (h.level j).rot = false) ∧ h.qa ≠ 0)

/-- The level that entry makes (R279). -/
def enteredLevel (h : Hart) (l : Nat) (rot : Bool) (n : Word) (len : BitVec 12) : Level :=
  { cnt := n, lcd := h.cdep, act := true, rot := rot, sm1 := if rot then BitVec.ofNat 3 h.stg.toNat.log2 else (h.level l).sm1,
    beg := h.pc + 4, fin := loopEnd h len }

/-- LaneOnes (R279). -/
def laneMask (s : State) : Word := match s.cur with
  | .slot _ => 0xFFFF
  | .tile _ => 0xFFFFFFFFFFFFFFFF

/-- The level is active at the depth of the agent (R286). -/
def Here (h : Hart) (l : Nat) : Prop := (h.level l).act = true ∧ (h.level l).lcd = h.cdep

/-- No level rotates. -/
def NoRotation (h : Hart) : Prop := ∀ x ∈ h.lv.toList, ¬ (x.act = true ∧ x.rot = true)

/-- QMAX (R289). -/
def qMaximum (s : State) : Nat := match s.cur with
  | .slot _ => 128
  | .tile _ => 256

/-- The result word of `qallot` and `qfree` (R289). -/
def allotResult (status base : Nat) : Word := BitVec.ofNat 64 (status + base * 2 ^ 16)

/-- The registers after an allotment instruction: `gd` written, the reuse latch clear (R246), the next instruction. -/
def allotted (h : Hart) (d : Reg) (x : Word) : Hart := (({ h with latch := none } : Hart).wg d x).advance

/-- The `n` registers from base `b` of the core's pool belong to no slot of the core (R289). -/
def FreeRun (s : State) (c : CoreId) (n b : Nat) : Prop :=
  b + n ≤ bitsAt (s.core c).part 6 4 * 64 ∧ ∀ k < 4,
    let h := (s.slot (slotOf c k)).h
    h.qa = 0 ∨ b + n ≤ h.abase.toNat ∨ h.abase.toNat + h.qa.toNat ≤ b

/-- The software traps with their causes (R276). -/
def trapForms (n : BitVec 10) : List (Instr × Nat) := [(.trap n, 0x17), (.brk n, 0x18), (.sysc n, 0x19)]

/-- The trap frame's place: SCRB + 64 × the slot's number in its palette (R405). -/
def framePlace (s : State) (i : SlotId) : Nat := s.palette (coreOf i) + partSCRB (s.core (coreOf i)).part + 64 * (i.val % 4)

/-- No other speculative task has read the block at an address, so that a write of it by slot `i` aborts none (R181). -/
def Unread (s : State) (i : SlotId) (pa : Nat) : Prop := ∀ j, j ≠ i → (s.slot j).spec = .speculative → (s.slot j).sigHit (pa / 64) = false

/-- What trap entry leaves (R403 to R407, R292), from the registers `h` before it: the saved registers and frame, the handler's
address, the loop state saved and cleared, and `g31` naming the frame. -/
def Entered (t : State) (i : SlotId) (h : Hart) (f : FaultInfo) (resume : BitVec 23) (part : Word) (frame : Nat) : Prop :=
  let k := (t.slot i).h
  k.epc = resume ∧ k.pc = BitVec.ofNat 23 (bitsAt h.cause 42 18)
    ∧ bitsAt k.cause 63 1 = 1 ∧ bitsAt k.cause 62 1 = 1 ∧ bitsAt k.cause 42 18 = bitsAt h.cause 42 18
    ∧ bitsAt k.cause 0 8 = f.cause % 256 ∧ bitsAt k.cause 23 4 = f.synd % 16 ∧ bitsAt k.cause 27 2 = f.lvl % 4
    ∧ bitsAt k.cause 29 3 = f.kind % 8 ∧ bitsAt k.cause 32 10 = f.num % 1024
    ∧ bitsAt k.cause 60 1 = (if f.asy then 1 else 0) ∧ bitsAt k.cause 61 1 = (if f.imp then 1 else 0)
    ∧ k.rg 31#5 = BitVec.ofNat 64 (0x007F000000000000 + (partSCRB part + 64 * (i.val % 4)))
    ∧ memNat t.mem frame 8 = k.cause.toNat ∧ memNat t.mem (frame + 8) 8 = f.faddr % 2 ^ 64
    ∧ memNat t.mem (frame + 16) 8 = resume.toNat ∧ memNat t.mem (frame + 24) 8 = (h.rg 31#5).toNat
    ∧ (∀ l < 4, (k.level l).act = false) ∧ k.stg = 0 ∧ k.lam = 0 ∧ k.cdep = 0 ∧ k.latch = none
    ∧ (t.slot i).trapSave = ⟨h.lv, h.qrb, h.stg, h.lam, h.cdep, h.ild⟩
    ∧ k.qa = h.qa ∧ k.qrb = h.qrb ∧ k.abase = h.abase ∧ (∀ r, r ≠ 31#5 → k.rg r = h.rg r) ∧ k.v = h.v ∧ k.p = h.p
    ∧ (t.slot i).st = .running ∧ (t.slot i).wait = .none

/-- The trap handler may be entered: TEN = 1, ACT = 0, TVEC aligned and below XB (R407). -/
def Enterable (s : State) (i : SlotId) : Prop :=
  bitsAt (s.slot i).h.cause 63 1 = 1 ∧ bitsAt (s.slot i).h.cause 62 1 = 0 ∧ bitsAt (s.slot i).h.cause 42 18 % 4 = 0
    ∧ bitsAt (s.slot i).h.cause 42 18 < partXB (s.core (coreOf i)).part ∧ (s.slot i).preload = none

/-- What the loop registers and `k.nst` read, by number (R116, R255, R277). -/
def loopReads (h : Hart) : List (Nat × Nat) :=
  (List.range 4).flatMap (fun l =>
    let v := h.level l
    [(0x20 + l, v.cnt.toNat),
     (0x24 + l, v.lcd.toNat * 2 ^ 48 + (if v.act then 2 ^ 47 else 0) + (if v.rot then 2 ^ 46 else 0) + v.sm1.toNat * 2 ^ 43 + v.beg.toNat),
     (0x28 + l, v.fin.toNat)])
  ++ [(0x2C, h.qrb.toNat), (0x2D, h.qa.toNat), (0x2E, h.stg.toNat), (0x2F, h.lam.toNat), (0x11, h.nst.toNat)]

/-- The package coordinates in the word of a place (R202). -/
def coordinates (s : State) : Nat := s.pos.1 % 16 * 2 ^ 32 + s.pos.2.1 % 16 * 2 ^ 36 + s.pos.2.2 % 16 * 2 ^ 40

/-- What each control register of a core thread slot reads, by number; one of the tiles alone reads zero (R51, R53, R116, R153, R202,
R204, R207, R220, R255, R277, R403, R404, R440). -/
def slotReads (s : State) (i : SlotId) : List (Nat × Nat) :=
  let x := s.slot i
  let c := s.core (coreOf i)
  [(0x00, x.tid.toNat * 2 ^ 48 + (if x.lc then 2 ^ 47 else 0) + i.val % 4), (0x01, x.ts.toNat), (0x02, x.dom.toNat),
   (0x03, coordinates s + i.val / 4), (0x04, 0), (0x05, c.stage.toNat), (0x06, c.part.toNat), (0x07, c.part.toNat % 64 * 0x1000),
   (0x08, x.ovh.toNat), (0x09, (if x.budEn then 2 ^ 63 else 0) + x.budLeft.toNat), (0x0A, x.xfer.toNat),
   (0x0B, x.uih.toNat - x.uih.toNat / 2 ^ 52 % 16 * 2 ^ 52 + x.uiq.length % 16 * 2 ^ 52), (0x0C, 0), (0x0D, x.h.cause.toNat),
   (0x0E, x.h.epc.toNat), (0x0F, s.time % 2 ^ 64), (0x10, c.dqspill.toNat)] ++ loopReads x.h

/-- What each control register of a tile reads, by number; one of the cores alone reads zero (R116, R156, R202, R204, R255, R263, R277,
R403, R404, R440). -/
def tileReads (s : State) (t : TileId) : List (Nat × Nat) :=
  let x := s.tile t
  [(0x04, coordinates s + t.val), (0x05, x.stage.toNat), (0x07, x.tclen % 2 ^ 64), (0x0C, x.r.gprog.toNat), (0x0D, x.h.cause.toNat),
   (0x0E, x.h.epc.toNat), (0x0F, s.time % 2 ^ 64)]
  ++ [0x00, 0x01, 0x02, 0x03, 0x06, 0x08, 0x09, 0x0A, 0x0B, 0x10].map (fun n => (n, 0)) ++ loopReads x.h

/-- What the control registers of the executing agent read. -/
def registerReads (s : State) : List (Nat × Nat) :=
  match s.cur with
  | .slot i => slotReads s i
  | .tile t => tileReads s t

/-- The number that a finite value stands for (R103), in units of 2^q; exact where q is no greater than its exponent. -/
def inUnits (q : Int) : Fp → Int
  | .fin n m e => (if n then -1 else 1) * ((m * 2 ^ (e - q).toNat : Nat) : Int)
  | _ => 0

/-- The code `z` of a format stands for the number `v`, in units of 2^q. -/
def StandsFor (f : Fmt) (q : Int) (z : Nat) (v : Int) : Prop := z < 2 ^ f.width ∧ ∃ n m e, f.decode z = .fin n m e ∧ v = inUnits q (.fin n m e)

/-- The code `c` is the choice of a rounding mode for `x` among the codes of a format, by the table of R118; all in units of 2^q. -/
def Chosen (f : Fmt) (r : Rnd) (q x : Int) (c : Nat) (v : Int) : Prop :=
  StandsFor f q c v ∧ ∀ z w, StandsFor f q z w → match r with
    | .rne | .ef => (v - x).natAbs ≤ (w - x).natAbs ∧ ((v - x).natAbs = (w - x).natAbs → w ≠ v → c % 2 = 0)
    | .rtz => v.natAbs ≤ x.natAbs ∧ (w.natAbs ≤ x.natAbs → w.natAbs ≤ v.natAbs)
    | .rdn => v ≤ x ∧ (w ≤ x → w ≤ v)
    | .rup => x ≤ v ∧ (x ≤ w → v ≤ w)

/-- Units of 2^q that are fine enough for every code of every format, for half a step of each, and for a value of exponent `e`. -/
def FineUnits (q e : Int) : Prop := q ≤ e ∧ q ≤ -160

/-- The largest finite magnitude of a format, and the step beyond it in an exponent without bound (R103, R113), in units of 2^q. -/
def largest (f : Fmt) (q : Int) : Int := inUnits q (f.decode f.maxCode)
def stepBeyond (f : Fmt) (q : Int) : Int := inUnits q (.fin false 1 (f.decode f.maxCode).exp)

/-- `x`, rounded as if the exponent were unbounded, exceeds the largest finite magnitude (R113): a tie goes to the even code. -/
def Exceeds (f : Fmt) (r : Rnd) (q x : Int) : Prop :=
  let top := largest f q
  let next := top + stepBeyond f q
  match r with
  | .rne | .ef => if f.maxCode % 2 = 0 then top + next < 2 * x.natAbs else top + next ≤ 2 * x.natAbs
  | .rtz => next ≤ x.natAbs
  | .rdn => next ≤ x ∨ x < -top
  | .rup => top < x ∨ x ≤ -next

/-- What an overflow writes, by the table of R114. -/
def overflowCode (f : Fmt) (r : Rnd) (sat neg : Bool) : Nat :=
  let sign := if neg then 2 ^ (f.width - 1) else 0
  if sat ∨ r = .rtz ∨ r = .rdn ∧ neg = false ∨ r = .rup ∧ neg = true ∨ f = .e2m1 then sign + f.maxCode
  else if f = .e4m3 then f.nanCode
  else sign + (2 ^ f.eb - 1) * 2 ^ f.mb

/-- The writable bits of a register replaced by those of a word (R255). -/
def Written (old new x : Word) (mask : Nat → Bool) : Prop := ∀ j < 64, new.getLsbD j = if mask j then x.getLsbD j else old.getLsbD j

/-! ### Memory instructions -/

/-- The frame of a trap or interrupt entry that its slot has taken in this ck: should its task abort in the same ck, the entry was not
taken, and the frame holds its earlier bytes again (R406). -/
def Undone (s : State) (a : Nat) : Prop :=
  ∃ j u, (s.slot j).undo = some u ∧ u.ck = s.ck ∧ framePlace s j ≤ a ∧ a < framePlace s j + 32

/-- Memory holds `bytes` from a physical address, and every other byte is as it was. -/
def Stored (s t : State) (pa : Nat) (bytes : List Byte) : Prop :=
  ∀ a, ¬ Undone s a → memRead t.mem a = if pa ≤ a ∧ a < pa + bytes.length then bytes.getD (a - pa) 0 else memRead s.mem a

/-- No task of the machine is speculative, and no slot watches a barrier, so that a write changes no other slot (R181, R326). -/
def NoSpeculation (s : State) : Prop := ∀ j, (s.slot j).spec ≠ .speculative ∧ ∀ q, (s.slot j).wait ≠ .txn q true

/-- Every other agent, every core and the executing slot outside its registers are as they were. -/
def SlotFrame (s t : State) (i : SlotId) : Prop :=
  (∀ j, j ≠ i → t.slot j = s.slot j) ∧ { t.slot i with h := (s.slot i).h } = s.slot i ∧ t.cores = s.cores
    ∧ (∀ u, (t.tile u).r = (s.tile u).r)

/-- The palette banks of `n` bytes serve a slot in this ck (R62). -/
def BanksFree (s : State) (i : SlotId) (pa n : Nat) : Prop := ∀ b ∈ palBanks pa n, s.bankServes (.agent (.slot i)) b = true

/-- Only the record of the banks that this ck has used, and the lines that the core's replica region holds, differ (R62, R159). -/
def Ledger (s t : State) (c : CoreId) : Prop :=
  { t with banks := s.banks, bankWaits := s.bankWaits, cores := s.cores } = s ∧ (∀ k, k ≠ c → t.core k = s.core k)
    ∧ { t.core c with reps := (s.core c).reps } = s.core c

/-- An access of `n` bytes by a slot that is not speculative is aligned, translated to a place of its own core or of memory, and
served at once (R302, R303, R308). -/
def Served (s : State) (i : SlotId) (va n : Nat) (kind : Kind) (d : Dest) : Prop :=
  s.cur = .slot i ∧ (s.slot i).spec ≠ .speculative ∧ va % n = 0 ∧ s.aim (coreOf i) va n kind = .ok d ∧ d.place ≠ .device
    ∧ d.away = false ∧ s.answer (.agent (.slot i)) d n kind.writes = .serve ∧ BanksFree s i d.pa n
    ∧ s.openReq (.agent (.slot i)) d.pa = none

/-- A read is served, of granules without a mark, outside the replica region, and, of a sealed range, none of it from a replica. -/
def Readable (s : State) (i : SlotId) (va n : Nat) (d : Dest) : Prop :=
  Served s i va n .read d ∧ s.inReplica d = false ∧ s.marked d.pa n = false ∧ (d.sld = true → (s.core (coreOf i)).reps = [])

/-- `x` is the replica of the line at `va` in the core's region: of a sealed range that holds the access and is not being unsealed, whose
bank serves the slot (R159, R160). -/
def ReplicaHit (s : State) (i : SlotId) (va n : Nat) (x : Replica) : Prop :=
  s.cur = .slot i ∧ (s.slot i).spec ≠ .speculative ∧ va % n = 0 ∧ ∃ d p z, s.aim (coreOf i) va n .read = .ok d ∧ d.place = .slice
    ∧ d.page = some p ∧ d.sld = true ∧ z ∈ s.seals ∧ z.asid = p.asid ∧ z.base ≤ va ∧ va + n ≤ z.base + z.len ∧ z.unsealing = false
    ∧ (s.core (coreOf i)).reps.find? (fun y => y.asid == p.asid.toNat && y.line == va / 64) = some x
    ∧ s.bankServes (.agent (.slot i)) (s.replicaBank (coreOf i) (p.asid.toNat, va / 64)) = true

/-- The last byte that a task's buffered stores hold for a physical address (R177). -/
def bufferedByte (buf : List BufOp) (a : Nat) : Option Byte :=
  buf.foldl (fun r o => match o with
    | .store pa bs _ => if pa ≤ a then ((bs.getD (a - pa) none).orElse fun _ => r) else r
    | .atom .. => r) none

/-- Slot `i` runs a speculative task, and its access is aligned and translated to a place that is no device (R175, R302). -/
def Speculates (s : State) (i : SlotId) (va n : Nat) (kind : Kind) (d : Dest) : Prop :=
  s.cur = .slot i ∧ (s.slot i).task.isSome ∧ (s.slot i).spec = .speculative ∧ va % n = 0 ∧ s.aim (coreOf i) va n kind = .ok d
    ∧ d.place ≠ .device

/-- The entries of a slot's share of its core's commit buffer: CMT × 16 (R58). -/
def bufferShare (s : State) (i : SlotId) : Nat := bitsAt (s.core (coreOf i)).part 10 5 * 16

/-- The entries that buffered effects take: one for each 32-byte block stored to, and one for each deferred atomic (R58, R175). -/
def Entries (buf : List BufOp) (n : Nat) : Prop :=
  ∃ blocks : List Nat, blocks.Nodup ∧ (∀ b, b ∈ blocks ↔ ∃ o ∈ buf, ∃ pa bs page, o = .store pa bs page ∧
      ∃ k < bs.length, (bs.getD k none).isSome ∧ (pa + k) / 32 = b)
    ∧ n = blocks.length + (buf.filter (fun o => match o with | .atom .. => true | .store .. => false)).length

/-- No record of the machine is linked to its creator (R205). -/
def NoLinks (s : State) : Prop := ∀ j r, (s.slot j).task = some r → r.lnk = false

/-- An access of a tile to its own memory, aligned and inside it, that waits for no engine (R18, R264, R363). -/
def TileServed (s : State) (t : TileId) (va n : Nat) (writes : Bool) (off : Nat) : Prop :=
  s.cur = .tile t ∧ va % n = 0 ∧ 0x007F000000000000 ≤ va ∧ va = 0x007F000000000000 + off ∧ off < 0x800000 ∧ off + n ≤ s.tileSize t.val
    ∧ (writes = true → (s.tile t).tclen ≤ off) ∧ (s.tile t).busy off n writes = none

/-- A number of `n` bytes, extended by its sign or by zeros (R306). -/
def extended (signed : Bool) (n v : Nat) : Word :=
  BitVec.ofInt 64 (if signed ∧ 2 ^ (8 * n) ≤ 2 * v then (v : Int) - 2 ^ (8 * n) else v)

/-- The scalar loads, with their widths and extensions (R306). -/
def loadForms (g : Guard) (d a : Reg) (off : BitVec 9) : List (Instr × Nat × Bool) :=
  [(.ldI8 g d a off, 1, true), (.ldN8 g d a off, 1, false), (.ldI16 g d a off, 2, true), (.ldN16 g d a off, 2, false),
   (.ldI32 g d a off, 4, true), (.ldN32 g d a off, 4, false), (.ldD g d a off, 8, false)]

/-- The scalar stores, with their widths (R306). -/
def storeForms (g : Guard) (d a : Reg) (off : BitVec 9) : List (Instr × Nat) :=
  [(.stB g d a off, 1), (.stH g d a off, 2), (.stW g d a off, 4), (.stD g d a off, 8)]

/-- The address of a scalar access: `ga` + size × OFF9 (R306). -/
def accessAddr (s : State) (a : Reg) (n : Nat) (off : BitVec 9) : Nat := ((((s.rg s.cur a).toNat : Int) + n * off.toInt) % 2 ^ 64).toNat

/-- The number that a value of `m` bits stands for in two's complement. -/
def signedOf (m v : Nat) : Int := if 2 ^ m ≤ 2 * v then (v : Int) - 2 ^ m else v

/-- The atomics with the bytes of their operand, the number that each writes, over the old number of so many bytes, `gb` narrowed to the
operand and `gd` narrowed to it, `none` where nothing is written, and the flags that it sets (R313 to R316). -/
def atomForms (o : Order) (sc : Scope) (w : Bool) (d a b : Reg) (old : Nat → Nat) (x y : Nat) :
    List (Instr × Nat × Option Nat × BitVec 7) :=
  let n := if w then 8 else 4
  let m := 2 ^ (8 * n)
  let v := old n
  let z := x % m
  let sgn (k : Nat) : Int := signedOf (8 * n) k
  let sum := Fp.sum [Fmt.fp32.decode (old 4), Fmt.fp32.decode (x % 2 ^ 32)]
  [ (.amoAdd o sc w d a b, n, some ((v + x) % m), 0), (.amoAnd o sc w d a b, n, some (v &&& z), 0), (.amoOr o sc w d a b, n, some (v ||| z), 0),
    (.amoXor o sc w d a b, n, some (v ^^^ z), 0), (.amoMinI o sc w d a b, n, some (if sgn z < sgn v then z else v), 0),
    (.amoMaxI o sc w d a b, n, some (if sgn v < sgn z then z else v), 0),
    (.amoMinN o sc w d a b, n, some (min v z), 0), (.amoMaxN o sc w d a b, n, some (max v z), 0),
    (.amoSwap o sc w d a b, n, some z, 0), (.amoCas o sc w d a b, n, if v = y % m then some z else none, 0),
    (.amoAddfx o sc d a b, 16, some (((old 16 : Int) + signedOf 64 (x % 2 ^ 64)) % 2 ^ 128).toNat, 0),
    (.amoAddf o sc d a b, 4, some (Fmt.fp32.result sum.1 sum.2).1, (Fmt.fp32.result sum.1 sum.2).2) ]

/-- The range of a seal that R157 admits. -/
def SealRange (base len : Nat) : Prop := base % 0x10000 = 0 ∧ len % 0x10000 = 0 ∧ len ≠ 0 ∧ base + len ≤ 0x007F000000000000

/-! ### Tasks, waits and sync words -/

/-- Slot `i` waits in a state for something; nothing else of it and no byte of memory has changed (R208). -/
def Waits (s t : State) (i : SlotId) (w : Wait) : Prop :=
  (t.slot i).st = .waiting ∧ (t.slot i).wait = w ∧ (t.slot i).h = (s.slot i).h ∧ t.mem = s.mem ∧ ∀ j, j ≠ i → t.slot j = s.slot j

/-- A slot that waited runs on, its instruction completed with `x` in `d` (R208, R265). -/
def Continues (s t : State) (i : SlotId) (d : Reg) (x : Word) : Prop :=
  (t.slot i).st = .running ∧ (t.slot i).wait = .none ∧ (t.slot i).h = ((s.slot i).h.wg d x).advance ∧ t.mem = s.mem
    ∧ ∀ j, j ≠ i → t.slot j = s.slot j

/-- The other slots of the core that are ready (R275). -/
def ReadyOther (s : State) (i : SlotId) (k : Nat) : Prop := k < 4 ∧ k ≠ i.val % 4 ∧ (s.slot (slotOf (coreOf i) k)).st = .running

/-- `n` bytes of the core's own scratch, 64-byte aligned, at a palette offset (R290). -/
def OwnScratch (s : State) (i : SlotId) (va n off : Nat) : Prop :=
  va = 0x007F000000000000 + off ∧ off % 64 = 0 ∧ partV (s.core (coreOf i)).part = true
    ∧ partSCRB (s.core (coreOf i)).part ≤ off ∧ off + n ≤ 0x40000

/-- `n` bytes of the core's own palette that no commit claims, whose banks are free, and for which no earlier request is open (R62, R78). -/
def OwnFree (s : State) (i : SlotId) (pa n : Nat) : Prop :=
  s.claimed pa n = false ∧ BanksFree s i pa n ∧ s.openReq (.agent (.slot i)) pa = none

/-- A message is on its way from one router to another: it arrives no earlier than after its uncontended time, 3 ck for each of the H
steps in x and y and 4 more, 8 more across dies, and `extra` of its own, while the tables of the routers are those of reset (R64, R90, R91). -/
def MessageSent (s t : State) (a b extra : Nat) (e : Event) : Prop :=
  ∃ n, (n, e) ∈ t.timers ∧ (s.routes = [] → s.ck + extra + (if a / 64 = b / 64 then 4 else 12)
    + 3 * (((routerX a : Int) - routerX b).natAbs + ((routerY a : Int) - routerY b).natAbs) ≤ n)

/-- The sixteen words of loop state (R277, R290). -/
def loopWords (h : Hart) : List Word :=
  (List.range 4).map (fun l => (h.level l).cnt)
    ++ (List.range 4).map (fun l => BitVec.ofNat 64 ((h.level l).lcd.toNat * 2 ^ 48 + (if (h.level l).act then 2 ^ 47 else 0)
        + (if (h.level l).rot then 2 ^ 46 else 0) + (h.level l).sm1.toNat * 2 ^ 43 + (h.level l).beg.toNat))
    ++ (List.range 4).map (fun l => BitVec.ofNat 64 (h.level l).fin.toNat)
    ++ [BitVec.ofNat 64 (h.qrb.toNat + h.stg.toNat * 2 ^ 8 + h.qa.toNat * 2 ^ 16), h.lam, 0, 0]

/-- The record of eight words at an address is read at once by a slot that is not speculative, and passes the checks of R206. -/
def RecordRead (s : State) (i : SlotId) (va : Nat) (e : Dest) (w : List Word) : Prop :=
  Readable s i va 64 e ∧ w = (List.range 8).map (fun k => BitVec.ofNat 64 (memNat s.mem (e.pa + 8 * k) 8))

/-- The record of a create instruction as it is placed: not linked, since the creator is not speculative (R205, R206). -/
def placedRecord (s : State) (i : SlotId) (r : TaskRec) : TaskRec :=
  { r with lnk := false, cser := (s.slot i).ser, ccore := BitVec.ofNat 10 (coreOf i).val }

/-- The words of a record whose TS and DOM come from a register (R321). -/
def stamped (w : List Word) (x : Word) : List Word :=
  BitVec.ofNat 64 (bitsAt x 0 32 * 2 ^ 32 + bitsAt x 32 4 * 2 ^ 28 + bitsAt (w.getD 0 0) 0 28) :: w.drop 1

/-- A sync word at an offset of a core's own scratch (R148, R323). -/
def OwnWord (s : State) (i : SlotId) (va off : Nat) : Prop :=
  va = 0x007F000000000000 + off ∧ va % 16 = 0 ∧ off < 0x40000 ∧ partV (s.core (coreOf i)).part = true
    ∧ partSCRB (s.core (coreOf i)).part ≤ off

/-- The word at an address releases a waiter for generation g: ERR is set, or GEN is not before g (R148, R150). -/
def Releases (m : List Host.Cell) (pa g : Nat) : Prop :=
  memNat m (pa + 15) 1 / 128 = 1 ∨ (memNat m (pa + 6) 2 + 2 ^ 16 - g % 2 ^ 16) % 2 ^ 16 < 2 ^ 15

/-! ### Sync words, barriers, copies, windows and system instructions -/

/-- A transaction barrier's place: 16-byte aligned, paged, translated, and no device register (R324, R326). -/
def TxnPlace (s : State) (i : SlotId) (va : Nat) (kind : Kind) (d : Dest) : Prop :=
  s.cur = .slot i ∧ (s.slot i).spec ≠ .speculative ∧ va % 16 = 0 ∧ inWindow va = false ∧ s.aim (coreOf i) va 16 kind = .ok d ∧ d.place ≠ .device

/-- An update's register (R323): its reserved bits are zero. -/
def Update (x : Word) : Prop := bitsAt x 49 15 = 0

/-- The slot's instruction completes with no other effect than the update that it sends over the mesh, which its later releases await
(R64, R168, R199). -/
def UpdateSent (s t : State) (i : SlotId) (b : Nat) (e : Event) : Prop :=
  MessageSent s t (s.coreRouter (coreOf i)) b 0 e ∧ t.slot i = { s.slot i with h := (s.slot i).h.advance, out := (s.slot i).out + 1 }
    ∧ t.mem = s.mem ∧ ∀ j, j ≠ i → t.slot j = s.slot j

/-- A domain that core barrier arrivals may name (R328). -/
def CoreDomain (s : State) (i : SlotId) (d : Nat) (x : Domain) : Prop :=
  s.domains.find d = some x ∧ some x.lid = (s.core (coreOf i)).lid ∧ x.ent[0].getLsbD 63 = true ∧ x.carr ≠ 0

/-- The copy instructions (R333). -/
def copyForms (a : Reg) : List (Instr × CopyKind) :=
  [(.cpLin a, .lin), (.cpBox a, .box), (.cpGather a, .gather), (.cpScatter a, .scatter), (.cpRemote a, .remote)]

/-- The copies of the slot's core that are in flight: issued, and not ended (R133). -/
def InFlightCopies (s : State) (i : SlotId) : Nat := (s.copies.filter (fun p => coreOf p.2.slot == coreOf i && !p.2.done)).length

/-- The block of `n` words at a palette offset of the core's own scratch is read at once (R134, R331). -/
def BlockRead (s : State) (i : SlotId) (va off : Nat) : Prop :=
  s.cur = .slot i ∧ (s.slot i).spec ≠ .speculative ∧ OwnScratch s i va 64 off ∧ OwnFree s i (s.palette (coreOf i) + off) 64
    ∧ s.marked (s.palette (coreOf i) + off) 64 = false

/-- Word `k` of a block in memory. -/
def blockWord (s : State) (pa k : Nat) : Word := BitVec.ofNat 64 (memNat s.mem (pa + 8 * k) 8)

/-- The launch record pool after a word is written (R227). -/
def Patched (s t : State) (j w : Nat) (x : Word) : Prop := ∀ k, (t.poolAt k).toList = if k = j then (s.poolAt k).toList.set w x else (s.poolAt k).toList

/-- The `tlbi` forms with the pages that each invalidates (R301). -/
def tlbiForms (s : State) (a b : Reg) : List (Instr × InvScope) :=
  [(.tlbiVa a b, .range (s.rg s.cur a).toNat (s.rg s.cur b).toNat), (.tlbiAsid a, .asid), (.tlbiAll, .all)]

/-! ### Tasks, commits, boundary events and updates of sync words -/

/-- A record begins on slot `i` (R205, R207): `g1` to `g4` hold its arguments, every other register is zero, the loop state is clear, and
the run is free in domain 0 and speculative in any other. -/
def Begun (s t : State) (i : SlotId) (r : TaskRec) : Prop :=
  let x := t.slot i
  x.st = .running ∧ x.wait = .none ∧ x.task = some r ∧ x.h.pc = r.pc.setWidth 23
    ∧ x.h.rg 1 = r.args[0] ∧ x.h.rg 2 = r.args[1] ∧ x.h.rg 3 = r.args[2] ∧ x.h.rg 4 = r.args[3]
    ∧ (∀ k : Reg, k = 0 ∨ 4 < k.toNat → x.h.rg k = 0) ∧ (∀ k < 32, x.h.v.toList.getD k 0 = 0) ∧ (∀ k : PReg, k ≠ 0 → x.h.rp k = 0)
    ∧ (∀ l < 4, x.h.level l = Level.zero) ∧ x.h.qa = 0 ∧ x.h.qrb = 0 ∧ x.h.stg = 0 ∧ x.h.lam = 0 ∧ x.h.cdep = 0 ∧ x.h.ild = 0
    ∧ x.h.latch = none ∧ bitsAt x.h.cause 62 1 = 0 ∧ x.tid = r.tid ∧ x.lc = r.lc ∧ x.ts = r.ts ∧ x.dom = r.dom ∧ x.budLeft = r.budget
    ∧ x.budEn = (r.budget != 0) ∧ x.gap = false ∧ x.second = none ∧ x.spec = (if r.dom = 0 then .free else .speculative) ∧ x.ser = (s.core (coreOf i)).starts + 1
    ∧ x.buf = [] ∧ x.held = [] ∧ x.pair = none ∧ t.mem = s.mem

/-- A record that no abort has returned (R189). -/
def Unaborted (s : State) (r : TaskRec) : Prop := ∀ a ∈ s.aborted, a.1 ≠ r

/-- A message over the steal network: 2 ck for each step in x and y, and 4 across dies, while the tables of the routers are those of reset
(R91, R92). -/
def StealMessage (s t : State) (a b : Nat) (e : Event) : Prop :=
  ∃ n, (n = 0 ∧ e ∈ t.agenda ∨ 0 < n ∧ (s.ck + n, e) ∈ t.timers)
    ∧ (s.routes = [] → n = 2 * (((routerX a : Int) - routerX b).natAbs + ((routerY a : Int) - routerY b).natAbs) + (if a / 64 = b / 64 then 0 else 4))

/-- No slot has taken an event at its boundary in this ck (R406). -/
def NoUndo (s : State) : Prop := ∀ j u, (s.slot j).undo = some u → u.ck ≠ s.ck

/-- A slot that a spawn may take: idle, with no preloaded record (R216). -/
def Free (s : State) (c : CoreId) (k : Nat) : Prop := (s.slot (slotOf c k)).st = .idle ∧ (s.slot (slotOf c k)).preload = none

/-- The lowest free slot of a core (R216). -/
def LowestFree (s : State) (c : CoreId) (k : Nat) : Prop := k < 4 ∧ Free s c k ∧ ∀ j < k, ¬ Free s c j

/-- The record of a `spawn` (R216, R319). -/
def spawnRecord (s : State) (i : SlotId) (pc : BitVec 18) (b : Reg) : TaskRec :=
  { ts := (s.slot i).ts, dom := (s.slot i).dom, lc := false, pc := pc, tid := (s.slot i).tid, budget := 0,
    args := #v[s.rg s.cur b, s.rg s.cur (b + 1), s.rg s.cur (b + 2), s.rg s.cur (b + 3)], lnk := false, cser := (s.slot i).ser,
    ccore := BitVec.ofNat 10 (coreOf i).val }

/-- `SyncUpdate` of R149, from a word to the word after it. -/
def Updated (w v : SyncWord) (bytes arr : Nat) (err : Bool) : Prop :=
  if w.rsvd ≠ 0 then v = { w with err := true } else
    let b := min (w.bcnt + bytes) 0xFFFFFFFF
    let a := min (w.acnt + arr) 0xFFFF
    v.rsvd = 0 ∧ v.btgt = w.btgt ∧ v.atgt = w.atgt ∧ v.err = (w.err || err)
      ∧ (v.ov = true ↔ w.ov = true ∨ 0xFFFFFFFF < w.bcnt + bytes ∨ 0xFFFF < w.acnt + arr)
      ∧ (if w.btgt ≤ b ∧ w.atgt ≤ a then v.gen = (w.gen + 1) % 2 ^ 16 ∧ v.bcnt = b - w.btgt ∧ v.acnt = a - w.atgt
        else v.gen = w.gen ∧ v.bcnt = b ∧ v.acnt = a)

/-- The slot waits in an instruction whose wait a pre-emption ends at once (R412). -/
def WaitsFreely (x : Slot) : Prop := match x.wait with
  | .sync _ | .txn .. | .barrier .. | .idle | .post .. => True
  | _ => False

/-- Memory holds the updated sync word, and every other byte as before. -/
def WordUpdated (s t : State) (pa bytes arr : Nat) (err : Bool) : Prop :=
  ∃ v, Updated (SyncWord.ofNat (memNat s.mem pa 16)) v bytes arr err ∧ Stored s t pa (bytesOfNat 16 v.toNat)

/-! ### Requests, fills, walks, host accesses and invalidations -/

/-- A slot waits for a request (R78). -/
def Waiting (s : State) (id : Nat) (q : Req) (i : SlotId) : Prop :=
  s.reqs.find id = some q ∧ q.who = .agent (.slot i) ∧ (s.slot i).wait = .request id

/-- The three events at which the place of a request performs it: at its slice or scratch, at a palette whose banks are free, and at the
port of an open window whose banks are free; no commit has claimed the place, and its cluster is not in change (R48, R62, R70, R74, R180). -/
def Arrives (s : State) (id : Nat) (q : Req) (i : SlotId) (j : Instr) : Prop :=
  ((j = .sliceRequest ∧ s.event = some (.sliceRequest id) ∨ j = .requestRetry ∧ s.event = some (.requestRetry id))
      ∧ (s.placeOf i q.pa = .slice ∨ s.placeOf i q.pa = .scratch)
      ∧ s.answer (.agent (.slot i)) ⟨s.placeOf i q.pa, q.pa, none, false⟩ q.op.size q.op.isWrite = .serve)
    ∨ (j = .remotePaletteAccess ∧ s.event = some (.remotePaletteAccess id) ∧ s.claimed q.pa q.op.size = false
      ∧ (∀ c, s.placeOf i q.pa = .palette c false → clmapChg (s.clmapAt (c.val / 8)) = false) ∧ ∀ b ∈ palBanks q.pa q.op.size, s.bankServes q.who b = true)
    ∨ (j = .windowPortServe ∧ s.event = some (.windowPortServe id) ∧ ∃ t off, s.phys q.pa = .tileMem t off
      ∧ s.windowTest t off q.op.size = .ok ∧ s.claimed q.pa q.op.size = false ∧ s.portBusy ⟨.tileMem (Fin.ofNat 128 t), q.pa, none, false⟩ q.op.size = false)

/-- The response of a request's place is on its way to its slot: from a palette or a tile over the mesh (R64, R493), else at once. -/
def Responded (s t : State) (i : SlotId) (q : Req) (e : Event) : Prop :=
  match s.phys q.pa with
  | .palette p _ => MessageSent s t (p / 8) (s.coreRouter (coreOf i)) 0 e
  | .tileMem u _ => MessageSent s t (tileRouter u) (s.coreRouter (coreOf i)) 4 e
  | _ => e ∈ t.agenda

/-- The agent waits no longer, its registers as they were. -/
def Reissues (s t : State) (ag : Agent) : Prop :=
  t.hart ag = s.hart ag ∧ (∀ i, ag = .slot i → (s.slot i).st = .waiting → (t.slot i).st = .running ∧ (t.slot i).wait = .none)
    ∧ (∀ u, ag = .tile u → (t.tile u).wait = .none)

/-! ### Vector instructions -/

/-- L of R335. -/
def lanes (s : State) : Nat := match s.cur with
  | .slot _ => 16
  | .tile _ => 64

/-- `LaneOn` of R336. -/
def LaneOn (h : Hart) (g : Guard) (i : Nat) : Bool :=
  (match g with
    | .pred k => (h.rp k).getLsbD i
    | .stage _ => true) && (h.lv.toList.all (fun l => !l.act) || h.lam.getLsbD i)

/-- The lane that enables an element of a width (R335). -/
def laneFor (w e : Nat) : Nat := if w = 16 then e / 2 else if w = 64 then 2 * e else e

/-- No stage guard suppresses the instruction (R248). -/
def Runs (h : Hart) : Guard → Prop
  | .pred _ => True
  | .stage n => h.stg.getLsbD n.toNat = true

/-- Element `e` of width `w` of a vector operand (R241, R243, R335). -/
def vel (s : State) (w : Nat) (o : VOp) (e : Nat) : Nat := elemAt (s.rv s.cur o) w e

/-- Element `e` of the register that a state `s` names `o`, as a later state holds it: the rotation base may have moved (R243, R281). -/
def velOf (s t : State) (w : Nat) (o : VOp) (e : Nat) : Nat := vel (t.setHart s.cur { t.hart s.cur with qrb := (me s).qrb }) w o e

/-- The instruction continues; flags `f` are set, and no `g` or `p` register changes (R116, R265). -/
def Continued (s t : State) (f : BitVec 7 → Prop) : Prop :=
  let h := t.hart s.cur
  h.pc = (me s).advance.pc ∧ h.g = (me s).g ∧ h.p = (me s).p ∧ ∃ n, f n ∧ h.nst = (me s).nst ||| n

/-- The enabled elements of a destination hold their results and the others their old contents, and the flags of the enabled elements
are set (R336, R337). -/
def VectorWritten (s t : State) (g : Guard) (w : Nat) (d : VOp) (r : Nat → Nat × BitVec 7) : Prop :=
  (∀ e < 32 * lanes s / w, velOf s t w d e = if LaneOn (me s) g (laneFor w e) then (r e).1 % 2 ^ w else vel s w d e)
    ∧ Continued s t (fun n => ∀ j < 7, n.getLsbD j = true ↔
        ∃ e < 32 * lanes s / w, LaneOn (me s) g (laneFor w e) = true ∧ (r e).2.getLsbD j = true)

/-- The key of a floating-point code (R349). -/
def sortKey (w x : Nat) : Nat := if 2 ^ (w - 1) ≤ x then 2 ^ w - 1 - x else x + 2 ^ (w - 1)

/-- The greater or the least of two codes, in the order of R341: a NaN operand gives the canonical NaN, and −0 lies below +0. -/
def chosenOf (f : Fmt) (greatest : Bool) (x y : Nat) : Nat :=
  if (f.decode x).isNan ∨ (f.decode y).isNan then f.nanCode
  else if (sortKey f.width x ≤ sortKey f.width y) = (greatest = true) then y else x

/-- The element results of the floating-point arithmetic over the elements a, b and the old d, in the order of R340. -/
def floatResults (f : Fmt) : List (Nat → Nat → Nat → Nat × BitVec 7) :=
  let v (x : Nat) : Fp := f.decode x
  let sum (x y : Fp) : Nat × BitVec 7 := f.result (Fp.sum [x, y]).1 (Fp.sum [x, y]).2
  let fused (p x : Fp) (n : BitVec 7) : Nat × BitVec 7 := f.result (Fp.sum [p, x]).1 (n ||| (Fp.sum [p, x]).2)
  [ fun x y _ => sum (v x) (v y), fun x y _ => sum (v x) (v y).negate,
    fun x y _ => f.result (Fp.mul (v x) (v y)).1 (Fp.mul (v x) (v y)).2, fun x y _ => (chosenOf f false x y, 0), fun x y _ => (chosenOf f true x y, 0),
    fun x y _ => fdiv f (v x) (v y), fun x y z => fused (Fp.mul (v x) (v y)).1 (v z) (Fp.mul (v x) (v y)).2,
    fun x y z => fused (Fp.mul (v x) (v y)).1 (v z).negate (Fp.mul (v x) (v y)).2,
    fun x y z => fused (Fp.mul (v x) (v y)).1.negate (v z) (Fp.mul (v x) (v y)).2,
    fun x _ _ => (if (v x).isNan then f.nanCode else x % 2 ^ (f.width - 1), 0),
    fun x _ _ => (if (v x).isNan then f.nanCode else (x + 2 ^ (f.width - 1)) % 2 ^ f.width, 0),
    fun x _ _ => fsqrt f (v x), fun x _ _ => frsqrt f (v x), fun x _ _ => fexp2 f (v x), fun x _ _ => flog2 f (v x) ]

/-- The floating-point instructions with their formats and element results (R340). -/
def floatForms (g : Guard) (u : Bool) (d a b : VOp) : List (Instr × Fmt × (Nat → Nat → Nat → Nat × BitVec 7)) :=
  let rows (f : Fmt) (l : List Instr) := (l.zip (floatResults f)).map (fun p => (p.1, f, p.2))
  rows .fp32 [.vaddF32 g u d a b, .vsubF32 g u d a b, .vmulF32 g u d a b, .vminF32 g u d a b, .vmaxF32 g u d a b, .vdivF32 g u d a b,
      .vfmaF32 g u d a b, .vfmsF32 g u d a b, .vfnmaF32 g u d a b, .vabsF32 g u d a, .vnegF32 g u d a, .vsqrtF32 g u d a, .vrsqrtF32 g u d a,
      .vexp2F32 g u d a, .vlog2F32 g u d a]
    ++ rows .fp16 [.vaddF16 g u d a b, .vsubF16 g u d a b, .vmulF16 g u d a b, .vminF16 g u d a b, .vmaxF16 g u d a b, .vdivF16 g u d a b,
      .vfmaF16 g u d a b, .vfmsF16 g u d a b, .vfnmaF16 g u d a b, .vabsF16 g u d a, .vnegF16 g u d a, .vsqrtF16 g u d a, .vrsqrtF16 g u d a,
      .vexp2F16 g u d a, .vlog2F16 g u d a]
    ++ rows .bf16 [.vaddBf16 g u d a b, .vsubBf16 g u d a b, .vmulBf16 g u d a b, .vminBf16 g u d a b, .vmaxBf16 g u d a b,
      .vdivBf16 g u d a b, .vfmaBf16 g u d a b, .vfmsBf16 g u d a b, .vfnmaBf16 g u d a b, .vabsBf16 g u d a, .vnegBf16 g u d a,
      .vsqrtBf16 g u d a, .vrsqrtBf16 g u d a, .vexp2Bf16 g u d a, .vlog2Bf16 g u d a]

/-- The element results of the integer arithmetic, in the order of R342's forms; signed and unsigned as their names say. -/
def intResults (w : Nat) : List (Nat → Nat → Nat) :=
  let i (x : Nat) : Int := signedOf w x
  let c (x : Int) : Nat := (x % (2 ^ w : Int)).toNat
  [ fun x y => (x + y) % 2 ^ w, fun x y => c (i x - i y), fun x y => c (i x * i y), fun x y => c (min (i x) (i y)), fun x y => c (max (i x) (i y)),
    fun x y => min x y, fun x y => max x y, fun x y => x * 2 ^ (y % w) % 2 ^ w, fun x y => c (i x / 2 ^ (y % w)), fun x y => x / 2 ^ (y % w),
    fun x _ => c (i x).natAbs, fun x _ => c (- i x) ]

/-- The integer, logic and move instructions with their widths and element results (R342, R343). -/
def intForms (g : Guard) (u : Bool) (d a b : VOp) : List (Instr × Nat × (Nat → Nat → Nat)) :=
  let rows (w : Nat) (l : List Instr) := (l.zip (intResults w)).map (fun p => (p.1, w, p.2))
  rows 32 [.vaddI32 g u d a b, .vsubI32 g u d a b, .vmulI32 g u d a b, .vminI32 g u d a b, .vmaxI32 g u d a b, .vminN32 g u d a b,
      .vmaxN32 g u d a b, .vshlI32 g u d a b, .vshrI32 g u d a b, .vshrN32 g u d a b, .vabsI32 g u d a, .vnegI32 g u d a]
    ++ rows 64 [.vaddI64 g u d a b, .vsubI64 g u d a b, .vmulI64 g u d a b, .vminI64 g u d a b, .vmaxI64 g u d a b, .vminN64 g u d a b,
      .vmaxN64 g u d a b, .vshlI64 g u d a b, .vshrI64 g u d a b, .vshrN64 g u d a b, .vabsI64 g u d a, .vnegI64 g u d a]
    ++ [(.vand g u d a b, 32, fun x y => x &&& y), (.vor g u d a b, 32, fun x y => x ||| y), (.vxor g u d a b, 32, fun x y => x ^^^ y),
      (.vnot g u d a, 32, fun x _ => 2 ^ 32 - 1 - x), (.vmov g u d a, 32, fun x _ => x)]

/-- The instructions that rearrange 32-bit lanes, with the lane that each writes (R343, R344). -/
def moveForms (s : State) (g : Guard) (u : Bool) (d a b : VOp) (r : Reg) : List (Instr × (Nat → Nat)) :=
  let l := lanes s
  [ (.vperm g u d a b, fun i => vel s 32 a (vel s 32 b i % l)),
    (.vshuf g u d a b, fun i => let k := vel s 32 b i % (2 * l); if k < l then vel s 32 a k else vel s 32 d (k - l)),
    (.vbcast g d r, fun _ => (s.rg s.cur r).toNat % 2 ^ 32) ]

/-- Bit `i` of a compare's predicate from the results of the elements (R345). -/
def predicateBit (w : Nat) (r : Nat → Bool) (i : Nat) : Bool :=
  if w = 16 then r (2 * i) && r (2 * i + 1) else if w = 64 then r (i / 2) else r i

/-- The result of a compare of the codes `x` and `y` (R345). -/
def compareMeans (cc : Cc) (t : VType) (x y : Nat) : Bool :=
  let i : Int × Int := match t with
    | .i32 => (signedOf 32 x, signedOf 32 y)
    | .i64 => (signedOf 64 x, signedOf 64 y)
    | _ => (x, y)
  match vtypeFmt t with
  | some f => fpCompare cc (f.decode x) (f.decode y)
  | none => match cc with
    | .eq => decide (i.1 = i.2)
    | .ne => decide (i.1 ≠ i.2)
    | .lt => decide (i.1 < i.2)
    | .ge => decide (i.2 ≤ i.1)
    | .gt => decide (i.2 < i.1)
    | .le => decide (i.1 ≤ i.2)
    | _ => false

/-- The enabled elements of a register, in element order. -/
def enabled (s : State) (g : Guard) (w : Nat) (a : VOp) : List Nat :=
  ((List.range (32 * lanes s / w)).filter (fun e => LaneOn (me s) g (laneFor w e))).map (vel s w a)

/-- The integer types, with their widths and signs (R251). -/
def intType : VType → Option (Nat × Bool)
  | .i32 => some (32, true)
  | .n32 => some (32, false)
  | .i64 => some (64, true)
  | .n64 => some (64, false)
  | _ => none

/-- The number that an element of an integer type stands for. -/
def typeValue (w : Nat) (signed : Bool) (x : Nat) : Int := if signed then signedOf w x else x

/-- A node of a reduction over two elements (R346): in FP32 for the floating-point types. -/
def nodeOf (op : Fin 3) (ty : VType) (x y : Nat) : Nat × BitVec 7 :=
  match vtypeFmt ty with
  | some _ => if op = 0 then let z := Fp.sum [Fmt.fp32.decode x, Fmt.fp32.decode y]; Fmt.fp32.result z.1 z.2
              else (chosenOf .fp32 (op = 1) x y, 0)
  | none =>
    let w := vtypeBits ty
    let i (v : Nat) : Int := typeValue w (ty = .i32 ∨ ty = .i64) v
    (if op = 0 then (x + y) % 2 ^ w else if op = 1 then (if i x ≤ i y then y else x) else if i y ≤ i x then y else x, 0)

/-- An element as a reduction takes it: a 16-bit code widened exactly to FP32 (R346). -/
def leafOf (ty : VType) (x : Nat) : Nat :=
  match vtypeFmt ty with
  | some f => if f = .fp32 then x else (Fmt.fp32.result (f.decode x) 0).1
  | none => x

/-- Node `j` of level `k` of the fixed tree of R346, absent where all its elements are, and the flags of the nodes below. -/
def treeNode (op : Nat → Nat → Nat × BitVec 7) (leaf : Nat → Option Nat) : Nat → Nat → Option Nat × BitVec 7
  | 0, j => (leaf j, 0)
  | k + 1, j =>
    let x := treeNode op leaf k (2 * j)
    let y := treeNode op leaf k (2 * j + 1)
    match x.1, y.1 with
    | some a, some b => (some (op a b).1, x.2 ||| y.2 ||| (op a b).2)
    | some a, none => (some a, x.2 ||| y.2)
    | none, b => (b, x.2 ||| y.2)

/-- What a reduction of no element leaves (R346). -/
def emptyOf (op : Fin 3) (ty : VType) : Word :=
  match vtypeFmt ty with
  | some _ => if op = 0 then 0 else if op = 1 then 0xFF800000 else 0x7F800000
  | none =>
    let w := vtypeBits ty
    let least : Int := if ty = .i32 ∨ ty = .i64 then -(2 ^ (w - 1)) else 0
    let most : Int := if ty = .i32 ∨ ty = .i64 then 2 ^ (w - 1) - 1 else 2 ^ w - 1
    BitVec.ofInt 64 (if op = 0 then 0 else if op = 1 then least else most)

/-- The 64-bit result of a reduction's root (R346), of the floating-point types with a NaN canonical (R104). -/
def rootWord (ty : VType) (x : Nat) : Word :=
  match vtypeFmt ty with
  | some _ => if (Fmt.fp32.decode x).isNan then 0x7FC00000 else BitVec.ofNat 64 x
  | none => BitVec.ofInt 64 (if ty = .i32 then signedOf 32 x else x)

/-- The running sum of floating-point elements in their order, with the flags of its last addition: the first element stands for itself, a
NaN canonical (R104, R347). -/
def runningSum (f : Fmt) : List Nat → Nat × BitVec 7
  | [] => (0, 0)
  | x :: xs => xs.foldl (fun a y => let z := Fp.sum [f.decode a.1, f.decode y]; f.result z.1 z.2)
      (if (f.decode x).isNan then f.nanCode else x, 0)

/-- A reduction leaves `x` in `gd`, and nothing else but flags, the latch and the next place. -/
def Reduced (s t : State) (d : Reg) (x : Word) : Prop :=
  (t.hart s.cur).pc = (me s).advance.pc ∧ (∀ r, (t.hart s.cur).rg r = ((me s).wg d x).rg r) ∧ (t.hart s.cur).v = (me s).v
    ∧ (t.hart s.cur).p = (me s).p ∧ t.mem = s.mem ∧ ∀ b, b ≠ s.cur → t.hart b = s.hart b

/-! ### Vector memory access and conversions -/

/-- `n` bytes at `va` can be read at once by the executing agent, from physical address `pa` (R302, R303, R308). -/
def ReadPlace (s : State) (va n pa : Nat) : Prop :=
  (∃ i e, Readable s i va n e ∧ e.pa = pa) ∨ ∃ t o, TileServed s t va n false o ∧ s.marked (tileBase t + o) n = false ∧ pa = tileBase t + o

/-- `n` bytes at `va` can be written at once by the executing agent, at physical address `pa`. -/
def WritePlace (s : State) (va n pa : Nat) : Prop :=
  (∃ i e, Served s i va n .write e ∧ e.pa = pa) ∨ ∃ t o, TileServed s t va n true o ∧ pa = tileBase t + o

/-- An indexed access has its turn: no line of its elements shares a bank of the tile's memory with another (R65, R352); on a core no load
that replication would copy meets an element that it has just placed. -/
def Apart (s : State) (on : Nat → Prop) (va pa : Nat → Nat) : Prop :=
  (∀ t, s.cur = .tile t → (s.tile t).turn = 0 ∧ ∀ j k, on j → on k → bankOf (pa j - tileBase t) = bankOf (pa k - tileBase t) → pa j / 256 = pa k / 256)
    ∧ ∀ i, s.cur = .slot i → ∀ k n e, on k → s.aim (coreOf i) (va k) n .read = .ok e → e.sld = true → bitsAt (s.core (coreOf i)).part 62 1 = 0

/-- A load changes no memory, but of a core slot that loads a `q` register the bytes of its `q` registers (R241). -/
def LoadKeeps (s t : State) (d : VOp) : Prop :=
  ∀ x, ((∀ i, s.cur ≠ .slot i) ∨ d.q = 0#1 ∨ ∃ i, s.cur = .slot i ∧ (x < s.qAddr i 0 ∨ s.qAddr i (me s).qa.toNat ≤ x)) →
    memRead t.mem x = memRead s.mem x

/-- The address of a VM operand (R350). -/
def vectorAddr (s : State) (a : Reg) (off : BitVec 10) : Nat := ((((s.rg s.cur a).toNat : Int) + 4 * lanes s * off.toInt) % 2 ^ 64).toNat

/-- E of R351, and the width of the register elements that it uses. -/
def elementSizes : Esz → Nat × Nat
  | .i8 => (1, 32) | .i16 => (2, 32) | .i32 => (4, 32) | .i64 => (8, 64)

/-- The address of element `k` of an indexed access (R351). -/
def elementAddr (s : State) (a : Reg) (b : VOp) (n k : Nat) : Nat :=
  ((s.rg s.cur a).toNat + vel s 32 b (if n = 8 then 2 * k else k) * n) % 2 ^ 64

/-- An element of `n` bytes as its register element holds it: sign-extended below 4 bytes (R351). -/
def elementValue (n x : Nat) : Nat := if n < 4 then (signedOf (8 * n) x % 2 ^ 32).toNat else x

/-- Element `k` is the highest-numbered enabled element whose bytes hold address `x` (R352). -/
def LastAt (on : Nat → Prop) (count n : Nat) (pa : Nat → Nat) (x k : Nat) : Prop :=
  k < count ∧ on k ∧ pa k ≤ x ∧ x < pa k + n ∧ ∀ j, k < j → j < count → on j → ¬ (pa j ≤ x ∧ x < pa j + n)

/-- Packed elements are written at the places of their source lanes, the rest keeps its contents, and the flags of the enabled lanes are
set (R354). -/
def PackedWritten (s t : State) (g : Guard) (w : Nat) (d : VOp) (r : Nat → Nat × BitVec 7) : Prop :=
  (∀ e < 32 * lanes s / w, velOf s t w d e = if e < lanes s ∧ LaneOn (me s) g e then (r e).1 % 2 ^ w else vel s w d e)
    ∧ Continued s t (fun n => ∀ j < 7, n.getLsbD j = true ↔ ∃ e < lanes s, LaneOn (me s) g e = true ∧ (r e).2.getLsbD j = true)

/-- The targets of the narrowing conversions: their widths, and the code, flags and value of a conversion (R106, R114, R354). -/
def narrowForms (g : Guard) (r : Rnd) (sat : Bool) (d a : VOp) (c : BitVec 4) :
    List (Instr × Nat × (Fp → Nat × BitVec 7 × Fp)) :=
  let fp (f : Fmt) (x : Fp) : Nat × BitVec 7 × Fp := let y := f.convert r sat x; (y.code, y.nst, f.decode y.code)
  let int (w : Nat) (x : Fp) : Nat × BitVec 7 × Fp := let y := fpToInt w r x; ((y.1 % 2 ^ w).toNat, y.2, .fin (decide (y.1 < 0)) y.1.natAbs 0)
  [ (.vcvtNarrowFp g .f16 r sat d a c, 16, fp .fp16), (.vcvtNarrowFp g .bf16 r sat d a c, 16, fp .bf16),
    (.vcvtNarrowFp g .e4m3 r sat d a c, 8, fp .e4m3), (.vcvtNarrowFp g .e5m2 r sat d a c, 8, fp .e5m2),
    (.vcvtNarrowInt g .e2m1 r sat d a c, 4, fp .e2m1), (.vcvtNarrowInt g .i8 r sat d a c, 8, int 8),
    (.vcvtNarrowInt g .i16 r sat d a c, 16, int 16), (.vcvtNarrowInt g .i32 r sat d a c, 32, int 32) ]

/-- The sources of the widening conversions: their widths, and the FP32 code and flags (R355). -/
def widenForms (g : Guard) (r : Rnd) (d a : VOp) : List (Instr × Nat × (Nat → Nat × BitVec 7)) :=
  let fp (f : Fmt) (x : Nat) : Nat × BitVec 7 := ((Fmt.fp32.result (f.decode x) 0).1, 0)
  [ (.vcvtWiden g .f16 r d a, 16, fp .fp16), (.vcvtWiden g .bf16 r d a, 16, fp .bf16), (.vcvtWiden g .e4m3 r d a, 8, fp .e4m3),
    (.vcvtWiden g .e5m2 r d a, 8, fp .e5m2), (.vcvtWiden g .e2m1 r d a, 4, fp .e2m1),
    (.vcvtWiden g .i8 r d a, 8, fun x => ((intToFp32 .rne (signedOf 8 x) 0).1, 0)),
    (.vcvtWiden g .i16 r d a, 16, fun x => ((intToFp32 .rne (signedOf 16 x) 0).1, 0)),
    (.vcvtWiden g .i32 r d a, 32, fun x => let y := intToFp32 r (signedOf 32 x) 0; (y.1, y.2 &&& 2)) ]

/-- Register `k` of a group (R252). -/
def groupAt (o : VOp) (k : Nat) : VOp := ⟨o.q, o.n + BitVec.ofNat 5 k⟩

/-- FP32 value `j` of a group, in register and lane order. -/
def groupVal (s : State) (o : VOp) (j : Nat) : Nat := vel s 32 (groupAt o (j / lanes s)) (j % lanes s)

/-- An instruction passes the checks of R247 at the executing agent. -/
def Legal (s : State) (i : Instr) : Prop := wellFormed i = true ∧ checkFault s.cur (me s) i = none

/-- What a lane of a block gives the quantiser: with error feedback its sum with its residue, and +0 where it is off (R119, R357). -/
def quantInput (s : State) (g : Guard) (ef : Bool) (a : VOp) (k j : Nat) : Nat × BitVec 7 :=
  if LaneOn (me s) g (j % lanes s) then
    (if ef then let r := addResidue (groupVal s a j) (groupVal s (groupAt a k) j); (r.1, r.2 &&& 14) else (groupVal s a j, 0))
  else (0, 0)

/-! ### Tensor operations, timed transfers and the exchange -/

/-- A tile with one change. -/
def withTile (s : State) (t : TileId) (f : Tile → Tile) : State := s.setTile t (f (s.tile t))

/-- The instruction of a tile completes, with no other change than `u`. -/
def tileDone (s u : State) : Host.Outcome State Fault Refusal := .next (u.done s.cur)

/-- A range of the tile's own memory lies in it, off the code region where it is written, and no engine makes it wait (R18, R264, R363). -/
def OwnRange (s : State) (t : TileId) (off n : Nat) (writes : Bool) : Prop :=
  off + n ≤ s.tileSize t.val ∧ (writes = true → (s.tile t).tclen ≤ off) ∧ (s.tile t).busy off n writes = none ∧ s.tmMarked t off n = false

/-- The 32-byte descriptor that an operand names is read at once (R365). -/
def DescriptorRead (s : State) (t : TileId) (va : Nat) (w : Vector Word 4) : Prop :=
  tileOperand va % 32 = 0 ∧ OwnRange s t (tileOperand va) 32 false
    ∧ ∀ k (h : k < 4), w[k] = BitVec.ofNat 64 (s.tmNat t (tileOperand va + 8 * k) 8)

/-- The template with halfword `sel` replaced, where `sel` is not 0 (R259). -/
def Amended (old T : BitVec 256) (sel val : Nat) : Prop := ∀ k < 16, hw T k = if sel ≠ 0 ∧ k = sel then val else hw old k

/-- The operand of a `tfetch` or `tstream`: lines, offset, and its limits (R382, R365). -/
def MoveOperand (s : State) (t : TileId) (va : Nat) (w : Word) (write : Bool) (nl off : Nat) : Prop :=
  bitsAt w 45 18 = 0 ∧ bitsAt w 23 9 = 0 ∧ nl = bitsAt w 32 13 ∧ nl ≤ 4096 ∧ off = bitsAt w 0 23 ∧ off % 256 = 0 ∧ va % 256 = 0
    ∧ (bitsAt w 63 1 = 1 ↔ write = true) ∧ (nl ≠ 0 → off + 256 * nl ≤ s.tileSize t.val ∧ (write = false → (s.tile t).tclen ≤ off))

/-- The landings that a transfer of lines to consecutive destination lines adds. -/
def landsOf (kind : LandKind) (off : Nat) (ls : List TLine) : List (LandKind × Nat × Nat) :=
  ls.zipIdx.map (fun p => (kind, p.1.pa, off + 256 * p.2))

/-- What a landing is for. -/
def landKey (l : Landing) : LandKind × Nat × Nat := (l.kind, l.pa, l.off)

/-- A line may be streamed: it lies in HBM, and its leaf is no device leaf (R99, R386). -/
def Streamable (s : State) (l : TLine) : Prop := pteMT l.leaf ≠ 1 ∧ s.phys l.pa = .hbm

/-- The tile is in a domain. -/
def InDomain (s : State) (t : TileId) (d : Nat) (x : Domain) : Prop := s.domainOf t.val = some (d, x)

/-! ### Events of tiles -/

/-- A line that a timed slot of the pseudo-channel reads in this ck (R99). -/
def SlotLine (s : State) (pch : Nat) (l : Landing) : Prop :=
  l.kind = .stream ∧ l.held = none ∧ l.slotCk = some s.ck ∧ pchOf l.pa = pch

/-- A line that waits in the landing store (R69). -/
def InStore (l : Landing) : Prop := l.since.isSome = true ∧ l.buf = false

/-- The lines in the landing buffer of a bank, which holds 8 (R69). -/
def inBuffer (s : State) (t : TileId) (bank : Nat) : Nat := ((s.tile t).lands.filter (fun m => m.buf && bankOf m.off == bank)).length

/-- What a `tred` leaves in lane `x` of its line `l`: its accumulator and then the words of its sources in their order, added as integers
modulo 2^32, or in FP32 with each sum rounded to nearest and its overflow as SAT says (R380). -/
def reduced (s : State) (t : TileId) (w : Vector Word 4) (src l x : Nat) : Nat :=
  (List.range (bitsAt w[0] 54 6 + 1)).foldl (fun a j =>
      let v := s.tmNat t (src + j * bitsAt w[1] 32 32 + 256 * l + 4 * x) 4
      if bitsAt w[0] 63 1 = 1 then (a + v) % 2 ^ 32
      else (Fmt.fp32.convert .rne (bitsAt w[0] 62 1 == 1) (Fp.sum [Fmt.fp32.decode a, Fmt.fp32.decode v]).1).code)
    (elemAt ((s.tile t).accLine (bitsAt w[0] 37 11 + l)) 32 x)

/-- No granule that an operation reads, nor of its accumulators, is marked (R371). -/
def Unmarked (s : State) (t : TileId) (f : Foot) : Prop :=
  (∀ r ∈ f.rd, s.tmMarked t r.1 r.2 = false) ∧ ∀ l, (s.tile t).accLineMarks l = 0

/-- Element (m, n) of an INT8 product with the start value (R125, R369, R370). -/
def int8Sum (s : State) (t : TileId) (T : BitVec 256) (a0 m n : Nat) : Nat :=
  (((a0 : Int) + ((List.range (tK T)).map (fun k =>
    signedOf 8 (s.tmNat t (tOPA T + m * tSTRA T + k) 1) * signedOf 8 (s.tmNat t (tOPB T + n * tSTRB T + k) 1))).sum) % 2 ^ 32).toNat

/-- Row-mask bit `m` of a mask (R369). -/
def maskAtRow (s : State) (t : TileId) (base m : Nat) : Prop := base ≠ 0 ∧ (memRead s.mem (tileBase t + base + m / 8)).getLsbD (m % 8) = true

/-! ### Events of domains -/

/-- A tile stops on a fault, and its domain is frozen (R402, R410). -/
def Stopped (u : State) (t : TileId) (cause : Nat) : Prop :=
  (u.tile t).wait = .stopped ∧ bitsAt (u.tile t).r.h.cause 0 8 = cause ∧ ∀ p ∈ u.domains, p.2.member t.val = true → p.2.frozen = true

/-- A member at the opening of a superstep (R389 to R393, R399, R422). -/
def Released (y : Tile) (r : TileRegs) : Prop :=
  y.r = { r with voted := false, vote := 0 } ∧ y.checkpoint = some y.r ∧ y.armed = none ∧ y.sends = [] ∧ y.recvs = [] ∧ y.xreds = []
    ∧ y.shadow = [] ∧ y.so = 0

/-- The contributions to an INT32 sum that no row poisons, with room for their result (R397, R420). -/
def PlainSum (x : Domain) (s : State) (l : List Xred) : Prop :=
  agree l = true ∧ l ≠ [] ∧ l.length ≤ 65536 ∧ (∀ v ∈ l, xrOP v.desc = 2 ∧ xrRLEN v.desc % 64 = 0 ∧ v.src.length = xrROWS v.desc * xrRLEN v.desc
    ∧ v.smsk.all (fun b => !b) = true ∧ v.bad.all (fun b => !b) = true)
  ∧ ∀ c ∈ x.colTiles, ∀ v, (s.tile (Fin.ofNat 128 c)).xreds[x.colDone]? = some v → xrDST v.desc + xrROWS v.desc * xrRLEN v.desc ≤ 0x800000

/-- The answer of a window's controller to a post (R331): 0 accepted, 1 not open or already delivered, 2 a post was accepted before. -/
def postAnswer (x : Domain) (w : Window) : Nat :=
  if w.isOpen = false then 1 else if w.posted.isSome then 2 else if w.deliveredIn x.step = true then 1 else 0

/-- The window has delivered its record for this superstep, or delivers it now (R234). -/
def recordOf (x : Domain) (w : Window) : Option (Vector Word 8 × Nat) :=
  if w.deliveredIn x.step = true then w.delivered
  else some ((match w.posted with
    | some r => r
    | none => w.defpost.set 0 (postWord w.defpost[0] 0xFFFF true)), x.step)

/-- The delivery before that of this superstep, which a repeat of it finds again (R401, R422). -/
def priorOf (x : Domain) (w : Window) : Option (Vector Word 8 × Nat) := if w.deliveredIn x.step = true then w.prior else w.delivered

/-- A window at the repeat of its superstep: closed, with a post that it had accepted for it kept, and its delivery of it undone (R401, R422,
R423). -/
def repeatedWindow (step : Nat) (w : Window) : Window :=
  { w with isOpen := false, stopped := none, wrote := [], kept := w.posted.isSome && w.opensIn step
           delivered := if w.deliveredIn step = true then w.prior else w.delivered }

/-- The domain at the repeat of its superstep: the same superstep and pattern from offset 0, with no arrival, not frozen, one repeat
more; a cross-package domain reports ready and waits for its common start (R413, R422, R424, R443). -/
def repeatedDomain (s : State) (x : Domain) : Domain :=
  { x with off := 0, lead := x.hlead, arrived := [], windows := x.windows.map (repeatedWindow x.step), held := true, heldCk := 0
           frozen := false, service := false, releasing := false, rollbacks := x.rollbacks + 1, colDone := 0, started := !x.xpkg, startAt := none
           xarr := x.xarr.filter (fun p => decide (x.step < p.2)), xvote := 0, xsent := false, trel := none, xheld := [], xgo := [], xdata := []
           xwhen := if x.xpkg then max x.xwhen s.time else x.xwhen }

/-- The launch begins to end on a fault (R430). -/
def Ends (s : State) (o : Host.Outcome State Fault Refusal) (lid : Nat) (t : TileId) (f : FaultInfo) : Prop :=
  ∃ u l', o = .next u ∧ u.launches.find lid = some l' ∧ l'.st = .leaving ∧ (l'.fault.map (fun z => z.2.1)) = some f
    ∧ Event.launchFaultEnd lid (.tile t) f ∈ u.agenda

/-- No member of the domain has been lost (R200, R427). -/
def NoLoss (s : State) (x : Domain) : Prop := ∀ t ∈ x.tiles, (s.tile t).wait = .stopped → bitsAt (s.tile t).h.cause 0 8 ≠ 0x15

/-- What the command processor does for a tile fault (R402): 0 service, 1 rollback, 2 the launch ends. -/
def answerOf (f : FaultInfo) : Nat :=
  if f.cause = 0x17 ∨ f.cause = 0x18 ∨ f.cause = 0x0A ∧ f.synd ≠ 9 ∨ f.cause = 0x0B ∧ 1 ≤ f.synd ∧ f.synd ≤ 5 then 0
  else if f.cause = 0x11 ∨ f.cause = 0x13 ∨ f.cause = 0x15 ∨ f.cause = 0x16 then 1 else 2

/-- A fault of a tile whose launch has not ended on a fault is answered (R402, R411). -/
def Answerable (s : State) (t : TileId) (lid : Nat) (l : Launch) : Prop :=
  (s.tile t).lid = some lid ∧ s.launches.find lid = some l ∧ l.fault = none ∧ (s.tile t).wait = .stopped

/-- The memory lines of the shadows of a domain's members are distinct, in their tiles, and of 256 bytes (R67). -/
def ShadowsSound (s : State) (x : Domain) : Prop :=
  ∀ t ∈ x.tiles, (((s.tile t).shadow.filter (fun z => !z.acc)).map (fun z => z.line)).Nodup ∧ ∀ z ∈ (s.tile t).shadow, z.line < 32768

/-! ### Copies and scale-out -/

/-- A place serves the access of an event's message at once; `r` is the state as the message meets it: its answer, its banks, its window, and
its cluster (R17, R48, R62, R70, R77). -/
def UnitServes (s r : State) (e : Event) (place : Place) (pa : Nat) (page : Option PageTag) (n : Nat) (writes : Bool) : Prop :=
  r.answer (.event e) ⟨place, pa, page, false⟩ n writes = .serve ∧ (∀ b ∈ palBanks pa n, s.bankServes (.event e) b = true)
    ∧ s.portBusy ⟨place, pa, page, false⟩ n = false ∧ s.changing pa = false
    ∧ ∀ t, place = .tileMem t → s.windowTest t.val (pa - tileBase t) n = .ok

/-- Where a run of a piece is written (R49, R141). -/
def runPlace (s : State) (r : DstRun) : Nat := match r.pal with
  | some (k, off) => s.palette k + off
  | none => r.pa

/-- The user interrupt that an update of a copy carries: the slot of its core, the identifier and the handler's offset (R152). -/
def interruptOf (c : Copy) : Option (Nat × Nat × Nat) := if c.ui then some (c.uiSlot, c.xid, c.uihOff) else none

/-- The update of a piece's bytes, or its acknowledgment where the copy has no sync word, is on its way from the piece's agent (R143). -/
def PieceUpdate (s u : State) (c : Copy) (x : Piece) : Prop :=
  (c.sync = none → MessageSent s u (sliceRouter x.agent) (s.coreRouter (coreOf c.slot)) 0 (.updateAcknowledgment x.copy x.first))
  ∧ ∀ j off, c.sync = some (j, off) → MessageSent s u (sliceRouter x.agent) (s.coreRouter (coreNo j)) 0
      (.syncUpdate (s.palette (coreNo j) + off) x.len 0 false (interruptOf c) (some (.copy x.copy x.first)))

/-- STAT of a copy (R146): code, cause, syndrome, side and PROG. -/
def statOf (c : Copy) : Nat :=
  match c.stop with
  | some x => x.code * 2 ^ 56 + x.cause * 2 ^ 48 + x.synd * 2 ^ 44 + x.side * 2 ^ 42 + x.prog % 2 ^ 40
  | none => (if c.marked then 0x06 * 2 ^ 56 + 0x13 * 2 ^ 48 else 2 ^ 56) + c.total % 2 ^ 40

/-- The code of STAT: 1 for a copy that completed without an error (R146). -/
def codeOf (c : Copy) : Nat := (c.stop.map (fun x => x.code)).getD (if c.marked then 6 else 1)

/-- The windows take in the writes of a piece, or one of them has been made (R17, R144). -/
def WindowsTake (s : State) (x : Piece) (rest : List DstRun) : Prop :=
  x.begun = true ∨ ∀ q ∈ rest, q.pal = none → ∀ t, s.agentPlace q.pa = .tileMem t → s.windowTest t.val (q.pa - tileBase t) q.bytes.length = .ok

/-- Nothing of a copy is left to send or to acknowledge (R143, R144, R147). -/
def Finished (c : Copy) : Prop := c.held = false ∧ c.closing = false ∧ c.opn = [] ∧ c.upd = [] ∧ (c.stop ≠ none ∨ c.total ≤ c.sent)

/-- A packet is next for its PDC, its sync word and barrier are not refused, and its bytes have a destination that takes them now (R147, R451,
R453): `w` is the state once the destination has been checked. -/
def Lands (s w : State) (p : RPacket) (rbar pa : Nat) : Prop :=
  p.psn ∉ (s.rxOf p.src p.pdc).taken ∧ (p.rod = true → p.psn = p.base + (s.rxOf p.src p.pdc).taken.length)
    ∧ (∀ z, (s.rxOf p.src p.pdc).copyOf p = some z → z.refused = false) ∧ p.err = false ∧ w.Canonical ∧ (w.rxOf p.src p.pdc).early = []
    ∧ ∃ v, s.rbarAim p = .ok rbar v ∧ ((s.rxOf p.src p.pdc).copyOf p = none → v.syncRefused p = none)
      ∧ v.checkLanding (.uetPacketReceive p) p.ctx (splitRun 64 p.dst p.data) = .ok [(pa, p.data)] w

/-! ### Queues and launches -/

/-- A driver's write of word `k` of a queue descriptor (R457): while EN = 1 a write that changes CTX, SZ or QBASE is ignored; ERR clears by 1;
EN from 0 to 1 clears RIDX and FQIDX; the other fields keep their values. -/
def DriverWrites (x y : Queue) (k : Nat) (v : Word) : Prop :=
  (k = 0 → (x.en = true ∧ bitsAt v 44 12 ≠ bitsAt (x.w 0) 44 12 → y = x)
      ∧ (¬ (x.en = true ∧ bitsAt v 44 12 ≠ bitsAt (x.w 0) 44 12) →
        y.en = (bitsAt v 63 1 == 1) ∧ y.prv = (bitsAt v 62 1 == 1) ∧ bitsAt (y.w 0) 61 1 = (if bitsAt v 61 1 = 1 then 0 else bitsAt (x.w 0) 61 1)
        ∧ y.ctx = bitsAt v 48 8 ∧ bitsAt (y.w 0) 44 4 = bitsAt v 44 4
        ∧ y.ridx = (if x.en = false ∧ bitsAt v 63 1 = 1 then 0 else x.ridx) ∧ y.fqIdx = (if x.en = false ∧ bitsAt v 63 1 = 1 then 0 else x.fqIdx)
        ∧ ∀ j, j ≠ 0 → j ≠ 3 → y.w j = x.w j))
  ∧ (k = 1 → ∀ j, y.w j = if j = 1 ∧ x.en = false then v else x.w j)
  ∧ (k = 2 ∨ k = 4 ∨ k = 5 → ∀ j, y.w j = if j = k then v else x.w j)
  ∧ (k = 3 ∨ 6 ≤ k → y = x)

/-- The queue of a packet that completes: its completion is set (R461). -/
def finishing (s : State) (q : Nat) (p : Packet) (status cause lid detail : Nat) : State :=
  s.setPacket q { p with fin := some (status, cause, lid, detail) }

/-- A packet leaves its queue, which is consumed again, and which a failed write of its completion disables (R458, R462). -/
def Leaves (t u : State) (q k : Nat) (ok : Bool) : Prop :=
  (u.queueAt q).packets = (t.queueAt q).packets.filter (fun r => r.idx != k) ∧ Event.notify q ∈ u.agenda ∧ u.mem = t.mem
    ∧ (ok = true → (u.queueAt q).desc = (t.queueAt q).desc) ∧ (ok = false → (u.queueAt q).en = false ∧ bitsAt ((u.queueAt q).w 0) 61 1 = 1)

/-- The result record of a packet has been written, or it has none (R461, R462). -/
def Recorded (v t : State) (ctx : Nat) (p : Packet) (status cause lid detail : Nat) : Prop :=
  p.res = 0 ∧ t = v ∨ p.res ≠ 0 ∧ p.res % 16 = 0 ∧ ∃ a, v.normalAt ctx p.res = .ok true a ∧ a.vwrite ctx false p.res
    (bytesOfNat 8 (status * 2 ^ 56 + cause * 2 ^ 48 + p.tag * 2 ^ 32 + lid) ++ bytesOfNat 8 detail) = .ok () t

/-- A packet completes (R42, R43, R458, R461, R462): its result record is written, then its signal, where it has them; a record or signal that
does not translate to normal memory disables the queue and sets ERR; one whose write waits is tried again. -/
def PacketDone (s u : State) (q k : Nat) (p : Packet) (status cause lid detail : Nat) : Prop :=
  ∀ v ctx, v = finishing s q p status cause lid detail → ctx = (s.queueAt q).ctx →
  (∀ t, Recorded v t ctx p status cause lid detail →
    (p.sig = 0 → Leaves t u q k true)
    ∧ (p.sig ≠ 0 → p.sig % 8 = 0 →
      (∀ a b c z, t.normalAt ctx p.sig = .ok true a → a.vread ctx false p.sig 8 = .ok b c →
        c.vwrite ctx false p.sig (bytesOfNat 8 ((natOfBytes b + (2 ^ 64 - 1)) % 2 ^ 64)) = .ok () z → Leaves z u q k true)
      ∧ ∀ z, (t.normalAt ctx p.sig = .ok false z ∨ ∃ f, t.normalAt ctx p.sig = .fault f z) → Leaves z u q k false))
  ∧ (p.res ≠ 0 → p.res % 16 = 0 → ∀ f t, v.normalAt ctx p.res = .fault f t → Leaves t u q k false)
  ∧ ∀ w t, v.report ctx p (status, cause, lid, detail) = .wait w t → u.mem = t.mem ∧ u.packetAt q k
      = (t.packetAt q k).map (fun _ => { p with fin := some (status, cause, lid, detail), tryAt := t.ck + t.delay w })

/-- A packet has completed, or only the writes of its completion are left. -/
def PacketEnds (u : State) (q k : Nat) : Prop := ∀ r ∈ (u.queueAt q).packets, r.idx = k → r.fin ≠ none

/-- Nothing of the machine belongs to a launch any more (R225, R415, R430). -/
def Freed (u : State) (lid : Nat) : Prop :=
  (∀ p ∈ u.cores, p.2.lid ≠ some lid) ∧ (∀ p ∈ u.tiles, p.2.lid ≠ some lid) ∧ (∀ p ∈ u.domains, p.2.lid ≠ lid) ∧ u.patOwner ≠ some lid

/-- No tentative line of a launch's domains is left (R225, R430). -/
def Dropped (s u : State) (lid : Nat) : Prop := ∀ p ∈ u.tent, ∀ x, s.domains.find p.2.dom = some x → x.lid ≠ lid

/-- The pool record of a launch that has ended (R225, R227): ARM is clear, and SEQ has advanced. -/
def PoolEnded (s u : State) (l : Launch) : Prop :=
  ∀ j, l.pool = some j → u.poolArmed j = false ∧ bitsAt (rcdW (u.poolAt j) 0) 16 16 = (bitsAt (rcdW (s.poolAt j) 0) 16 16 + 1) % 2 ^ 16

/-- A launch is accepted (step 1 of R223, R460): it has the next serial and waits for its claims. -/
def Accepted (s u : State) (rcd : Vector Word 16) (pool : Option Nat) (queue : Option (Nat × Nat)) : Prop :=
  u.nextLid = s.nextLid + 1 ∧ Event.launchClaim s.nextLid ∈ u.agenda ∧ ∃ l, u.launches.find s.nextLid = some l ∧ l.rcd = rcd ∧ l.st = .claiming
    ∧ l.pool = pool ∧ l.queue = queue

/-- A record passes step 1 of R223 and the context check of R460, and the package accepts launches (R428). -/
def Acceptable (s : State) (rcd : Vector Word 16) (ctx : Nat) : Prop :=
  rcdBad rcd = false ∧ rcdCTX rcd = ctx ∧ ctxEN (s.asctxAt ctx) = true ∧ s.closed = false

/-- A launch has started (steps 6 to 8 of R223): its cores have the partition word with V = 1; its tiles run from offset 0, and the
phase clocks of its domains start, except those that wait for a common start. -/
def Started (s u : State) (lid : Nat) (l : Launch) : Prop :=
  (∃ l', u.launches.find lid = some l' ∧ l'.st = .running ∧ l'.rcd = l.rcd)
  ∧ (∀ c ∈ l.cores, (u.core c).lid = some lid ∧ (u.core c).part = rcdW l.rcd 4 ||| 0x8000000000000000#64 ∧ (u.core c).arms = [])
  ∧ (∀ t ∈ l.tiles, (u.tile t).lid = some lid ∧ (u.tile t).running = true ∧ (u.tile t).ended = false ∧ (u.tile t).wait = .none ∧ (u.tile t).r.h.pc = 0)
  ∧ u.scw = rcdSCW l.rcd ∧ ∀ d x, s.domains.find d = some x → x.lid = lid → ∃ y, u.domains.find d = some y ∧ y.started = (!x.xpkg) ∧ y.off = x.off

/-! ### Timed links -/

/-- A flit is taken at a port (R437, R438): the port lives, the CRC holds, and the flit's SEQ is the one expected. -/
def Taken (s : State) (p : Nat) (f : Flit) (ok : Bool) : Prop :=
  p < 12 ∧ (s.linkPort p).failed = false ∧ ok = true ∧ f.seq = (s.linkPort p).expect

/-- The port after it has taken a flit (R438): it expects the next SEQ, and the flits that the flit acknowledges are kept no more. -/
def portTaken (x : LinkPort) (f : Flit) : LinkPort := { x with expect := (x.expect + 1) % 4096, discarding := false }.acked f

/-- The flits left once one of them, by SEQ, is acknowledged: those after it (R438). -/
def Acknowledged (l m : List Flit) (a : Nat) : Prop :=
  ((∀ f ∈ l, f.seq ≠ a) → m = l) ∧ ∀ l1 f l2, l = l1 ++ f :: l2 → f.seq = a → (∀ g ∈ l1, g.seq ≠ a) → m = l2

/-- The flits that every class of a port holds for sending, and those to be sent again (R437). -/
def queued (x : LinkPort) (b : FlitBody) (dst : Nat) : Prop := ∃ q ∈ x.outq.toList, ∃ f ∈ q, f.body = b ∧ f.dst = dst

/-- A flit for another package goes out at a port of its route, where the route has a live port (R435, R437). -/
def Sent (s u : State) (dst : Nat) (b : FlitBody) : Prop :=
  ∀ p, s.portFor dst = some p → p < 12 → queued (u.linkPort p) b dst

/-- The payload with which a flit of this package leaves at a domain time (R441): TIME carries that time as t1, or in an answer as t3. -/
def TimeOf (now : Nat) (b c : FlitBody) : Prop :=
  (∃ t1 t3, b = .time t1 none t3 ∧ c = .time now none none) ∨ (∃ t1 t2 t3, b = .time t1 (some t2) t3 ∧ c = .time t1 (some t2) (some now))
  ∨ (c = b ∧ ∀ t1 t2 t3, b ≠ .time t1 t2 t3)

/-- The events of a flit that is received at a port and counts in turn (R436, R438). -/
def flitEvents (p : Nat) (f : Flit) (ok : Bool) : List (Event × Instr) :=
  [(.data p f ok, .data), (.arrive p f ok, .arrive), (.release p f ok, .release), (.hold p f ok, .hold), (.go p f ok, .go), (.time p f ok, .time),
   (.retry p f ok, .retry), (.alarm p f ok, .alarm), (.control p f ok, .control), (.update p f ok, .update), (.reservedFlit p f ok, .reservedFlit)]

/-- The superstep that a barrier payload of another package is for (R444, R447). -/
def stepOf : FlitBody → Option Nat
  | .arrive st _ _ => some st
  | .hold st _ => some st
  | .go st _ _ => some st
  | _ => none

/-- A port that has taken over the traffic of the other port of its link (R439): it sends again first what that one kept, from the oldest and
under SEQ numbers of its own, and what waited there goes before its own in each class. -/
def TookOver (x y z : LinkPort) : Prop :=
  ∀ m, m = x.kept.zipIdx.map (fun g => { g.1 with seq := (y.nextSeq + g.2) % 4096 }) →
    z.kept = y.kept ++ m ∧ z.resend = y.resend ++ m ∧ z.nextSeq = (y.nextSeq + x.kept.length) % 4096
      ∧ ∀ k, k < 4 → z.outq.toList.getD k [] = x.outq.toList.getD k [] ++ y.outq.toList.getD k []

/-- What a port sends in one flit position (R434, R437, R438): what it sends again comes first; else, while fewer than 2,048 flits wait for their
acknowledgment, the oldest flit of the first class that holds one, which is numbered and kept; one of this package carries the slot in which it leaves (R435). -/
def SendsOne (here now : Nat) (x y : LinkPort) : Prop :=
  (∀ f r, x.resend = f :: r → y.resend = r ∧ y.outq = x.outq ∧ y.kept = x.kept ∧ y.nextSeq = x.nextSeq)
  ∧ (x.resend = [] → 2048 ≤ x.kept.length → y = x)
  ∧ (x.resend = [] → x.kept.length < 2048 → (∀ q ∈ x.outq.toList, q = []) → y = x)
  ∧ (x.resend = [] → x.kept.length < 2048 → ∀ (k : Fin 4) f r, x.outq[k] = f :: r → (∀ j : Fin 4, j < k → x.outq[j] = []) →
      y.outq = x.outq.set k.val r ∧ y.nextSeq = (x.nextSeq + 1) % 4096 ∧ ∃ g, y.kept = x.kept ++ [g] ∧ g.seq = x.nextSeq ∧ g.dst = f.dst
        ∧ (f.src ≠ here → g.body = f.body ∧ g.slot = f.slot) ∧ (f.src = here → g.slot = now / 10 % 2 ^ 18 ∧ ∀ b, TimeOf now f.body b → g.body = b))

/-! ### Firmware and recovery of hardware -/

/-- The boot ROM accepts an image (R465, R466): the magic number (log 14), both key hashes, both signatures over bytes 0x0000 to 0x02FF
and the body, and a security version at or above the fused counter and at most 64. -/
def ImageAccepted (b : Boot) (img : List Byte) : Prop :=
  natOfBytes (imageBytes img 0 4) = 0xB0D79200 ∧ Config.sha384 (imageBytes img 0x100 384) = b.rsaHash ∧ Config.sha384 (imageBytes img 0x280 48) = b.slhHash
    ∧ Config.rsaValid (imageBytes img 0x100 384) (imageBytes img 0 0x300 ++ imageBody img) (imageBytes img 0x300 384) = true
    ∧ Config.slhValid (imageBytes img 0x280 48) (imageBytes img 0 0x300 ++ imageBody img) (imageBytes img 0x480 16224) = true
    ∧ b.svnFuse ≤ imageSVN img ∧ imageSVN img ≤ 64

/-- A launch holds claims on a logical cluster (R418, R428). -/
def HoldsCluster (n : Nat) (l : Launch) : Prop := l.st ≠ .claiming ∧ l.st ≠ .suspended ∧ l.hasCluster n = true

/-- The response to an SPDM request (R467): the body over the measurement blocks (the digest of the ROM, the measurement of the image, its
security version with the fused one, the fuses), and the transcript signed with each alias key. -/
def SignedResponse (b : Boot) (q : List Byte) (r : SpdmResponse) : Prop :=
  r.body = Config.spdm q [bytesOfNat 48 b.romDigest.toNat, bytesOfNat 48 b.measure.toNat, bytesOfNat 8 b.svn ++ bytesOfNat 8 b.svnFuse, bytesOfNat 8 b.fuses.toNat]
  ∧ r.rsaSig = Config.sign 0 b.aliasRsa (q ++ r.body) ∧ r.slhSig = Config.sign 1 b.aliasSlh (q ++ r.body)

/-- Every launch that a failure touches and that no fault has ended yet begins to end on a fault (R418, R428, R430). -/
def EndsLaunches (s u : State) (hit : Launch → Prop) : Prop :=
  (s.launches.map (fun p => p.1)).Pairwise (· < ·) → ∀ p ∈ s.launches, p.2.fault = none → hit p.2 →
    ∃ l, u.launches.find p.1 = some l ∧ l.st = .leaving ∧ l.fault.isSome

/-! ### Steps, decoding and reset -/

/-- The state in which an agent's turn is taken: the round has passed it, and no other slot of its core waits in `tyield` for it any longer
(R209, R275). -/
def turnState (s : State) (ag : Agent) (rest : List Agent) : State :=
  let u : State := { s with round := rest, event := none, cur := ag }
  match ag with
  | .slot i => u.yieldTo i
  | .tile _ => u

/-- No boundary event is due at the agent, or its issue group goes on, which no boundary event interrupts (R406). -/
def NoBoundary (u : State) (ag : Agent) : Prop :=
  ∀ i, ag = .slot i → (u.slot i).second ≠ some (u.slot i).h.pc → (u.slot i).due = [] ∧ (u.slot i).mayInterrupt = false

/-- The state in which the instruction executes: a slot that begins a group notes its second instruction (R244). -/
def grouped (u : State) (ag : Agent) : State := match ag with
  | .slot i => if (u.slot i).second = some (u.slot i).h.pc then u else u.setSlot i { u.slot i with second := u.groupSecond i }
  | .tile _ => u

/-- What is left of the turn after its instruction: the second instruction of a group takes its turn next, or the group has ended (R244). -/
def turnEnds (u : State) (ag : Agent) (t : State) : State := match ag with
  | .slot i => if (u.slot i).second = some (u.slot i).h.pc then t.groupOff i else t.groupOn i
  | .tile _ => t

/-- Two states differ in nothing but the round of turns and the second instruction that a slot has noted. -/
def SameButTurn (t v : State) (i : SlotId) : Prop :=
  { v with slots := t.slots, round := t.round } = t ∧ (∀ j, j ≠ i → v.slot j = t.slot j)
    ∧ { v.slot i with second := (t.slot i).second } = t.slot i

/-- The turn's instruction answers what `exec` answers. -/
def turnAnswers (u : State) (ag : Agent) (r : Host.Outcome State Fault Refusal) : Host.Outcome State Fault Refusal := match r with
  | .next t => .next (turnEnds u ag t)
  | x => x

/-- The word at the PC of an agent lies in its code region and holds these bytes, lowest first, on no marked granule (R7, R54, R264). -/
def WordAt (u : State) (ag : Agent) (b0 b1 b2 b3 : Byte) : Prop :=
  (u.hart ag).pc.toNat % 4 = 0 ∧ (u.hart ag).pc.toNat < u.codeEnd ag ∧ u.marked (u.codeBase ag + (u.hart ag).pc.toNat) 4 = false
    ∧ memBytes u.mem (u.codeBase ag + (u.hart ag).pc.toNat) 4 = [b0, b1, b2, b3]

/-- Words that the spec's examples give, one or more of each family, with the instructions that they stand for. -/
def words : List (BitVec 32 × Instr) :=
  [ (0x04081280#32, .add (.pred 0#3) 4#5 1#5 5#5), (0x34642FFD#32, .bcmpCc .lt 3#5 4#5 0xFFD#12), (0x24C42030#32, .bfx 6#5 4#5 8#6 3#6),
    (0x48CE5C02#32, .ldD (.pred 3#3) 7#5 5#5 2#9), (0x4C0835FE#32, .stW (.pred 0#3) 4#5 3#5 0x1FE#9), (0x3C840005#32, .loop 0#2 true 0x40#11 5#12),
    (0x380001C5#32, .trap 7#10), (0xFCA00440#32, .krd 5#5 0x011#10), (0x54A14AC9#32, .amoCas .acq .pkg true 5#5 1#5 9#5),
    (0x50024841#32, .stRel .pkg 2#5 9#5), (0x58A64000#32, .spawn 5#5 6#5 8#5), (0x5C1B0004#32, .cpRemote 0x1B#5),
    (0x8246016A#32, .vmulF32 (.stage 1#3) true ⟨1#1, 3#5⟩ ⟨1#1, 0#5⟩ ⟨0#1, 2#5⟩), (0xAC104420#32, .vcmp (.pred 0#3) .lt .f32 false 2#3 ⟨0#1, 1#5⟩ ⟨0#1, 2#5⟩),
    (0xBC0C2132#32, .vcvtNarrowFp (.pred 0#3) .e4m3 .ef false ⟨0#1, 6#5⟩ ⟨1#1, 2#5⟩ 1#4), (0xB8061111#32, .vstx (.pred 0#3) .i32 ⟨0#1, 3#5⟩ 1#5 ⟨0#1, 2#5⟩),
    (0xE0053002#32, .tgather 5#5 6#5), (0xE8053001#32, .xsend 5#5 6#5), (0xD4310002#32, .tload 3#6 2#5 2#15), (0xDC503800#32, .tgang 5#6 0#4 7#5) ]

/-- A register file that no instruction has written: zeros, with no loop level active (R277; the values that the spec does not give: log 1). -/
def FreshHart (h : Hart) : Prop :=
  (∀ r, h.rg r = 0) ∧ h.pc = 0 ∧ h.qrb = 0 ∧ h.qa = 0 ∧ h.stg = 0 ∧ h.lam = 0 ∧ h.cdep = 0 ∧ h.nst = 0 ∧ h.cause = 0 ∧ h.latch = none
    ∧ ∀ l, h.level l = Level.zero

end Sys2Proof.Claims

open Sys2Proof Sys2Proof.Machine Sys2Proof.Claims

/-- R247, R265, R266, R267. Each register-register integer instruction whose guard is on writes `gd` with the result that the table
gives, over the values of `ga` and `gb` (and of `gd`, for `madd`) before it, and continues at the next instruction; nothing else changes.
A division by zero and −2^63 / −1 have the special results of R267 and raise nothing. One whose guard is off has no effect but that it
counts as completed. -/
def Obligations.RegisterResults : Prop :=
  ∀ (s : State) (g : Guard) (d a b : Reg) (cc : Cc) (k : PReg),
    (GuardOn s g →
      ∀ p ∈ registerResults g d a b cc k (((s.hart s.cur).rp k).getLsbD 0) (s.rg s.cur a) (s.rg s.cur b) (s.rg s.cur d)
          ++ divisionResults g d a b (s.rg s.cur a) (s.rg s.cur b), exec p.1 s = .next (writes s d p.2))
    ∧ (¬ GuardOn s g → ∀ i ∈ registerInstrs g d a b cc k, exec i s = .next (s.done s.cur))

/-- R250, R269, R270. The immediates, `lia`, the bit-field extractions and the immediate shifts write `gd` with the result that the
tables give, for every field that R250 admits, and continue at the next instruction; `bfi` replaces the field of `gd` and keeps its other
bits. -/
def Obligations.ImmediateResults : Prop :=
  ∀ (s : State) (d a : Reg) (i16 : BitVec 16) (i21 : BitVec 21) (h : BitVec 2) (pos len1 n : BitVec 6),
    pos.toNat + len1.toNat + 1 ≤ 64 →
    (∀ p ∈ immediateResults s d a i16 i21 h pos len1 n (s.rg s.cur a) (s.rg s.cur d), exec p.1 s = .next (writes s d p.2))
    ∧ ∃ x : Word, exec (.bfi d a pos len1) s = .next (writes s d x) ∧
      ∀ j, j < 64 → x.getLsbD j = bfiBit (s.rg s.cur a) (s.rg s.cur d) pos.toNat (len1.toNat + 1) j

/-- R265, R266, R269, R270. Frame: an instruction of these families that answers a next state leaves memory, every other agent,
and every register of its own agent but `gd`, the PC and the loop state of end processing as they were; and `g0` reads zero
after it whatever it wrote. -/
def Obligations.ScalarFrame : Prop :=
  ∀ (s t : State) (g : Guard) (d a b : Reg) (cc : Cc) (k : PReg) (i16 : BitVec 16) (i21 : BitVec 21) (h : BitVec 2)
    (pos len1 n : BitVec 6) (i : Instr),
    (i ∈ registerInstrs g d a b cc k ∨ i ∈ (immediateResults s d a i16 i21 h pos len1 n 0 0).map (fun p => p.1)
      ∨ i = .bfi d a pos len1) →
    exec i s = .next t → OnlyHart s t s.cur ∧ HartFrame (s.hart s.cur) (t.hart s.cur) d ∧ t.rg s.cur 0 = 0

/-- R251, R271 to R273, R281, R288. A taken transfer costs a ck in which nothing issues. `b`, `bc` and `bcmp` continue at the relative target when they are taken, by the condition over the integers, and at the next
instruction when not. A taken transfer goes to its target and deactivates exactly the levels whose bodies it leaves and every level above one of them.
`call` and `callr` link and raise CDEP, `ret` lowers it, `jr` transfers; a register target is read before `g31` is written. -/
def Obligations.Transfers : Prop :=
  ((∀ (s : State) (cc : Cc) (a b : Reg) (o26 : BitVec 26) (o17 : BitVec 17) (o12 : BitVec 12),
     exec (.b o26) s = .next (jumps s ((me s).transfer (target s o26.toInt)))
     ∧ exec (.bcCc cc a o17) s = .next (if ccMeans cc (s.rg s.cur a) 0 then
         jumps s ((me s).transfer (target s o17.toInt)) else s.done s.cur)
     ∧ exec (.bcmpCc cc a b o12) s = .next (if ccMeans cc (s.rg s.cur a) (s.rg s.cur b) then
         jumps s ((me s).transfer (target s o12.toInt)) else s.done s.cur))
   ∧ ∀ (h : Hart) (tgt : BitVec 23), (h.transfer tgt).pc = tgt
     ∧ (∀ l < 4, ((h.transfer tgt).level l).act = true ↔ (h.level l).act = true ∧ ∀ j ≤ l, ¬ Left h tgt j)
     ∧ (h.transfer tgt).g = h.g ∧ (h.transfer tgt).v = h.v ∧ (h.transfer tgt).p = h.p ∧ (h.transfer tgt).cdep = h.cdep
     ∧ (h.transfer tgt).nst = h.nst)
  ∧ (∀ (s : State) (a : Reg) (o26 : BitVec 26),
       exec (.call o26) s = .next (jumps s { (me s).wg 31#5 (link (me s)) with cdep := (me s).cdep + 1, pc := target s o26.toInt })
       ∧ ((s.rg s.cur a).toNat % 4 = 0 →
           exec (.callr a) s = .next (jumps s { (me s).wg 31#5 (link (me s)) with
             cdep := (me s).cdep + 1, pc := registerTarget s (s.rg s.cur a) })
           ∧ exec (.jr a) s = .next (jumps s ((me s).transfer (registerTarget s (s.rg s.cur a)))))
       ∧ ((s.rg s.cur 31#5).toNat % 4 = 0 →
           exec .ret s = .next (jumps s { (me s).returnTo (registerTarget s (s.rg s.cur 31#5)) with cdep := (me s).cdep - 1 })
           ∧ ((me s).returnTo (registerTarget s (s.rg s.cur 31#5))).pc = registerTarget s (s.rg s.cur 31#5)
           ∧ ∀ l < 4, Here (me s) l → (((me s).returnTo (registerTarget s (s.rg s.cur 31#5))).level l).act = false))

/-- R279, R280, R281. A loop instruction whose checks pass enters its level, or skips the body when its count is zero. End processing of a level
that does not rotate, at the last instruction of its body, when no level below shares its END, begins another pass with the count lowered, or ends
the loop. -/
def Obligations.Loops : Prop :=
  (∀ (s : State) (lvl : BitVec 2) (rot : Bool) (cnt : BitVec 11) (a : Reg) (len : BitVec 12), MayEnter (me s) lvl.toNat rot len →
     ∀ p ∈ loopForms s lvl rot cnt a len, exec p.1 s = .next (withHart s (if p.2 = 0 then { me s with pc := loopEnd (me s) len } else
       { (me s).setLevel lvl.toNat (enteredLevel (me s) lvl.toNat rot p.2 len) with
         lam := if lvl = 0 then laneMask s else (me s).lam
         stg := if rot then 1 else (me s).stg
         pc := (me s).pc + 4 })))
  ∧ (∀ (h : Hart) (l : Nat), l < 4 → h.innermostHere = some l → (h.level l).fin = h.pc + 4 → (h.level l).rot = false →
       (∀ j < 4, (h.level j).act = true → (h.level j).rot = false) →
       (∀ j, j + 1 = l → ¬ ((h.level j).act = true ∧ (h.level j).lcd = h.cdep ∧ (h.level j).fin = (h.level l).fin)) →
       if 1 < (h.level l).cnt.toNat then
         h.advance = { h.setLevel l { h.level l with cnt := (h.level l).cnt - 1 } with pc := (h.level l).beg }
       else h.advance.pc = (h.level l).fin ∧ (h.advance.level l).cnt = 0 ∧ (∀ j < 4, l ≤ j → (h.advance.level j).act = false)
         ∧ (∀ j < l, h.advance.level j = h.level j) ∧ h.advance.stg = h.stg ∧ h.advance.lam = if (List.range l).any (fun j => (h.level j).act) then h.lam else 0)

/-- R246, R281, R286, R289. `lbrk`, `lbrkl` and `lnext` on a level that is active at the depth of the agent: the exit at END, the lanes left, and the
end of the pass; one that moves control costs a ck in which nothing issues. Each of them faults on a level that is not active at that depth.
An `lbrkl` that leaves lanes goes on without end processing, as the model reads R286 (log 66).
`qallot` and `qfree` outside a rotating level: the statuses in their order, and the allotment that a success leaves; inside one they fault. -/
def Obligations.LoopControlAndAllotment : Prop :=
  (∀ (s : State) (lvl : BitVec 2) (k : PReg),
    (Here (me s) lvl.toNat →
      exec (.lbrk lvl) s = .next (moves s { (me s).deactivate lvl.toNat with pc := ((me s).level lvl.toNat).fin })
      ∧ (∃ h', exec (.lbrkl lvl k) s = .next (moves s h') ∧
          if (me s).lam &&& ~~~ ((me s).rp k) &&& laneMask s = 0 then
            h'.pc = ((me s).level lvl.toNat).fin ∧ ∀ j < 4, lvl.toNat ≤ j → (h'.level j).act = false
          else h' = { me s with lam := (me s).lam &&& ~~~ ((me s).rp k), pc := (me s).pc + 4 })
      ∧ exec (.lnext lvl) s = .next (moves s ((if lvl.toNat < 3 then (me s).deactivate (lvl.toNat + 1) else me s).passEnd lvl.toNat)))
    ∧ (¬ Here (me s) lvl.toNat →
      ∀ i ∈ [Instr.lbrk lvl, Instr.lbrkl lvl k, Instr.lnext lvl], exec i s = .next (s.raiseFault s.cur { cause := 0x04 })))
  ∧ (∀ (s : State) (d a : Reg), NoRotation (me s) → ∀ n, (s.rg s.cur a).toNat = n →
      (n = 0 ∨ qMaximum s < n →
        exec (.qallot d a) s = .next (withHart s (allotted (me s) d (allotResult 3 (me s).abase.toNat))))
      ∧ (0 < n → n ≤ qMaximum s → (me s).qa ≠ 0 →
        exec (.qallot d a) s = .next (withHart s (allotted (me s) d (allotResult 2 (me s).abase.toNat))))
      ∧ (∀ t, s.cur = .tile t → 0 < n → n ≤ 256 → (me s).qa = 0 →
        exec (.qallot d a) s = .next (withHart s (allotted { me s with abase := 0, qa := BitVec.ofNat 9 n, qrb := 0 } d (allotResult 0 0))))
      ∧ (∀ i b, s.cur = .slot i → 0 < n → n ≤ 128 → (me s).qa = 0 → FreeRun s (coreOf i) n b → (∀ b' < b, ¬ FreeRun s (coreOf i) n b') →
        exec (.qallot d a) s = .next (withHart s (allotted
          { me s with abase := BitVec.ofNat 9 b, qa := BitVec.ofNat 9 n, qrb := 0 } d (allotResult 0 (BitVec.ofNat 9 b).toNat))))
      ∧ (∀ i, s.cur = .slot i → 0 < n → n ≤ 128 → (me s).qa = 0 → (∀ b, ¬ FreeRun s (coreOf i) n b) →
        exec (.qallot d a) s = .next (withHart s (allotted (me s) d (allotResult 1 (me s).abase.toNat))))
      ∧ ((me s).qa.toNat < n →
        exec (.qfree d a) s = .next (withHart s (allotted (me s) d (allotResult 3 (me s).abase.toNat))))
      ∧ (n = 0 → exec (.qfree d a) s = .next (withHart s (allotted { me s with qa := 0, qrb := 0, abase := 0 } d (allotResult 0 0))))
      ∧ (0 < n → n ≤ (me s).qa.toNat → exec (.qfree d a) s = .next (withHart s (allotted
          { me s with qa := BitVec.ofNat 9 n, qrb := BitVec.ofNat 8 ((me s).qrb.toNat % n) } d (allotResult 0 (me s).abase.toNat)))))
  ∧ (∀ (s : State) (d a : Reg), ¬ NoRotation (me s) →
      ∀ i ∈ [Instr.qallot d a, Instr.qfree d a], exec i s = .next (s.raiseFault s.cur { cause := 0x03 }))

/-- R103 to R106, R113, R114, R118, R340. Every result that is written to a floating-point format is the exact value rounded once by the mode,
the nearest code with an even one on a tie or the code on the side that the mode names, with the sign of the value; an overflow writes what
the table gives; and OF, UF and NX are set as the rules define them. A conversion to an integer rounds in the same way and saturates.
The quotient, the square root and its reciprocal are those of the exact values, rounded to the nearest.
(Of an exact zero the sign is that of the operation, R105.) -/
def Obligations.RoundedOnce : Prop :=
  (∀ (f : Fmt) (r : Rnd) (sat neg : Bool) (m : Nat) (e q x : Int) (y : Rounded), FineUnits q e →
     x = inUnits q (.fin neg m e) → y = f.convert r sat (.fin neg m e) →
     (Exceeds f r q x → y.code = overflowCode f r sat neg ∧ y.nst = 0x0A#7)
     ∧ (¬ Exceeds f r q x → ∃ v, Chosen f r q x y.code v ∧ (f.decode y.code).sign = neg
         ∧ y.nst = (if v ≠ x then 0x02#7 else 0) ||| (if v ≠ x ∧ x.natAbs < 2 ^ (1 - (f.bias : Int) - q).toNat then 0x04#7 else 0)))
  ∧ (∀ (f : Fmt) (x : Fp) (k : BitVec 7), f.result x k = ((f.convert .rne false x).code, (f.convert .rne false x).nst ||| k))
  ∧ (∀ (w : Nat) (r : Rnd) (neg : Bool) (m : Nat) (e q x one : Int), 0 < w → FineUnits q e → x = inUnits q (.fin neg m e) →
       one = inUnits q (.fin false 1 0) →
       ∃ v : Int, (match r with
           | .rne | .ef => 2 * (v * one - x).natAbs ≤ one ∧ (2 * (v * one - x).natAbs = one → v % 2 = 0)
           | .rtz => (v * one).natAbs ≤ x.natAbs ∧ x.natAbs < (v * one).natAbs + one ∧ 0 ≤ v * x
           | .rdn => v * one ≤ x ∧ x < (v + 1) * one
           | .rup => x ≤ v * one ∧ (v - 1) * one < x)
         ∧ (fpToInt w r (.fin neg m e)).1 = max (-(2 ^ (w - 1))) (min (2 ^ (w - 1) - 1) v)
         ∧ ((fpToInt w r (.fin neg m e)).2.getLsbD 4 = true ↔ v < -(2 ^ (w - 1)) ∨ 2 ^ (w - 1) - 1 < v))
  ∧ (∀ f ∈ [Fmt.fp32, .fp16, .bf16], ∀ x a m e, f.decode x = .fin a m e → m ≠ 0 →
       (∀ y b n k q X c, f.decode y = .fin b n k → n ≠ 0 → FineUnits q (e - k) → X = m * 2 ^ (e - k - q).toNat →
          c = (fdiv f (f.decode x) (f.decode y)).1 →
          ((largest f q + (largest f q + stepBeyond f q)) * n ≤ 2 * (X : Int) → c = overflowCode f .rne false (a != b))
          ∧ (2 * (X : Int) < (largest f q + (largest f q + stepBeyond f q)) * n → ∃ v, StandsFor f q c v ∧ (f.decode c).sign = (a != b) ∧
              ∀ z w, StandsFor f q z w → ((v.natAbs * n : Int) - X).natAbs ≤ ((w.natAbs * n : Int) - X).natAbs
                ∧ (((v.natAbs * n : Int) - X).natAbs = ((w.natAbs * n : Int) - X).natAbs → w.natAbs ≠ v.natAbs → c % 2 = 0)))
       ∧ (a = false → ∀ q, FineUnits q e → 2 * q ≤ e → 2 * q ≤ -e →
           (∃ v, StandsFor f q (fsqrt f (f.decode x)).1 v ∧ 0 ≤ v ∧ ∀ z w, StandsFor f q z w → 0 ≤ w →
              (v < w → 4 * ((m * 2 ^ (e - 2 * q).toNat : Nat) : Int) ≤ (v + w) ^ 2) ∧ (w < v → (v + w) ^ 2 ≤ 4 * ((m * 2 ^ (e - 2 * q).toNat : Nat) : Int)))
           ∧ ∃ v, StandsFor f q (frsqrt f (f.decode x)).1 v ∧ 0 ≤ v ∧ ∀ z w, StandsFor f q z w → 0 ≤ w →
              (v < w → 4 * 2 ^ (-2 * q - e).toNat ≤ m * (v + w) ^ 2) ∧ (w < v → m * (v + w) ^ 2 ≤ 4 * 2 ^ (-2 * q - e).toNat)))

/-- R276, R296, R407, R408. A software trap of a core slot whose handler may be entered enters it, with its n in `k.cause`, after its own end processing.
`eret` in a trap handler continues at `k.epc` with `g31` from the frame, as its task reads it (R177), and the saved loop state, ACT and the reuse latch clear; with neither
handler active it raises an illegal-instruction fault. -/
def Obligations.TrapsAndReturns : Prop :=
  (∀ (s : State) (i : SlotId) (n : BitVec 10), s.cur = .slot i → s.Canonical → Enterable s i → Unread s i (framePlace s i) →
     ∀ p ∈ trapForms n, ∃ t, exec p.1 s = .next t
       ∧ Entered t i ((s.slot i).h.advance) { cause := p.2, num := n.toNat } ((s.slot i).h.advance).pc (s.core (coreOf i)).part (framePlace s i))
  ∧ (∀ (s : State) (i : SlotId), s.cur = .slot i →
       (bitsAt (s.slot i).h.cause 62 1 = 1 → ∃ t, exec .eret s = .next t ∧
         let h := (s.slot i).h
         let k := (t.slot i).h
         k.pc = h.epc ∧ k.rg 31#5 = BitVec.ofNat 64 (natOfBytes (overlay (s.slot i).buf (framePlace s i + 24) (memBytes s.mem (framePlace s i + 24) 8))) ∧ (∀ r, r ≠ 31#5 → k.rg r = h.rg r)
           ∧ bitsAt k.cause 62 1 = 0 ∧ bitsAt k.cause 63 1 = bitsAt h.cause 63 1 ∧ k.latch = none
           ∧ (⟨k.lv, k.qrb, k.stg, k.lam, k.cdep, k.ild⟩ : LoopSave) = (s.slot i).trapSave
           ∧ t.mem = s.mem ∧ t.tiles = s.tiles ∧ ∀ j, j ≠ i → t.slot j = s.slot j)
       ∧ (bitsAt (s.slot i).h.cause 62 1 = 0 → uihACT (s.slot i).uih = false →
           exec .eret s = .next (s.raiseFault (.slot i) { cause := 0x01 })))

/-- R292, R402 to R407. A precise fault of a core slot whose handler may be entered, taken at any instruction: what entry saves and writes; every byte of
memory outside the 32-byte frame, every other slot, every core and every tile is as before, where no other speculative task has read the frame's block. With TEN = 0 or ACT = 1 it cannot be entered: the
slot stops with the cause recorded, and its launch's end is due in the next ck (R406). -/
def Obligations.FaultEntries : Prop :=
  (∀ (s : State) (i : SlotId) (f : FaultInfo), s.Canonical → Enterable s i → Unread s i (framePlace s i) → f.cause ≠ 0x13 →
     Entered (s.raiseFault (.slot i) f) i (s.slot i).h f (s.slot i).h.pc (s.core (coreOf i)).part (framePlace s i)
     ∧ (∀ a, (a < framePlace s i ∨ framePlace s i + 32 ≤ a) → memRead (s.raiseFault (.slot i) f).mem a = memRead s.mem a)
     ∧ (∀ j, j ≠ i → (s.raiseFault (.slot i) f).slot j = s.slot j) ∧ (s.raiseFault (.slot i) f).cores = s.cores
     ∧ (s.raiseFault (.slot i) f).tiles = s.tiles)
  ∧ (∀ (s : State) (i : SlotId) (f : FaultInfo) (lid : Nat), f.cause ≠ 0x13 → (s.slot i).preload = none →
       (bitsAt (s.slot i).h.cause 63 1 = 0 ∨ bitsAt (s.slot i).h.cause 62 1 = 1) → (s.core (coreOf i)).lid = some lid →
       let t := s.raiseFault (.slot i) f
       (t.slot i).wait = .stopped ∧ bitsAt (t.slot i).h.cause 0 8 = f.cause % 256 ∧ (t.slot i).h.epc = (s.slot i).h.pc
         ∧ (s.ck + 1, Event.launchFaultEnd lid (.slot i) f) ∈ t.timers ∧ t.mem = s.mem)

/-- R116, R117, R153, R156, R255, R298, R403, R404. `krd` of a register that the table lists writes its value to `gd`, register by register as the rules lay
it out, and zero for one of the other profile (R51, R202, R204, R207, R220, R277, R440); only a tile's read of `k.nst` may wait; an
unlisted number is illegal. `kwr` of a register below 0x020 writes its writable bits alone: those of `k.ovh`, `k.uih`, `k.cause`, `k.epc`, `k.nst` (a one
clears), and `k.gprog` of a tile; read-only registers keep their values. -/
def Obligations.ControlRegisters : Prop :=
  (∀ (s : State) (d a : Reg) (n : BitVec 10),
     ((n.toNat ≤ 0x11 ∨ 0x20 ≤ n.toNat ∧ n.toNat ≤ 0x2F) → (∀ t, s.cur = .tile t → n = 0x11#10 → (s.tile t).flagsPending = false) →
       ∀ p ∈ registerReads s, p.1 = n.toNat → exec (.krd d n) s = .next (writes s d (BitVec.ofNat 64 p.2)))
     ∧ (∀ k, k ≤ 0x11 ∨ 0x20 ≤ k ∧ k ≤ 0x2F → ∃ p ∈ registerReads s, p.1 = k)
     ∧ (¬ (n.toNat ≤ 0x11 ∨ 0x20 ≤ n.toNat ∧ n.toNat ≤ 0x2F) →
       exec (.krd d n) s = .next (s.raiseFault s.cur { cause := 0x01 }) ∧ exec (.kwr a n) s = .next (s.raiseFault s.cur { cause := 0x01 })))
  ∧ (∀ (s : State) (a : Reg) (n : BitVec 10), n.toNat ≤ 0x11 → ∃ t, exec (.kwr a n) s = .next t ∧ t.mem = s.mem
       ∧ (n ≠ 0x0D#10 → (me t).cause = (me s).cause) ∧ (n ≠ 0x0E#10 → (me t).epc = (me s).epc) ∧ (n ≠ 0x11#10 → (me t).nst = (me s).nst)
       ∧ (n = 0x11#10 → ∀ j < 7, (me t).nst.getLsbD j = ((me s).nst.getLsbD j && !(s.rg s.cur a).getLsbD j))
       ∧ (∀ i, s.cur = .slot i → (n = 0x0D#10 → Written (me s).cause (me t).cause (s.rg s.cur a) (fun j => j = 63 ∨ 42 ≤ j ∧ j < 60))
           ∧ (n = 0x08#10 → ∀ j < 64, (t.slot i).ovh.getLsbD j = if j = 63 ∨ j < 18 then (s.rg s.cur a).getLsbD j
               else ((s.slot i).ovh.getLsbD j && !(j == 62 && (s.rg s.cur a).getLsbD j)))
           ∧ (n = 0x0B#10 → ∀ j < 64, (t.slot i).uih.getLsbD j = if j = 63 ∨ j < 18 then (s.rg s.cur a).getLsbD j
               else ((s.slot i).uih.getLsbD j && !(j == 61 && (s.rg s.cur a).getLsbD j)))
           ∧ (n = 0x0E#10 → (me t).epc = BitVec.ofNat 23 (s.rg s.cur a).toNat) ∧ (t.core (coreOf i)) = s.core (coreOf i)
           ∧ (t.slot i).tid = (s.slot i).tid ∧ (t.slot i).lc = (s.slot i).lc ∧ (t.slot i).ts = (s.slot i).ts ∧ (t.slot i).dom = (s.slot i).dom
           ∧ (t.slot i).budLeft = (s.slot i).budLeft ∧ (t.slot i).xfer = (s.slot i).xfer)
       ∧ (∀ u, s.cur = .tile u → (t.tile u).r.gprog = if n = 0x0C#10 then s.rg s.cur a &&& 0x80000000FFFFFFFF else (s.tile u).r.gprog))

/-- R278. `kwr` of the loop registers: `lcnt` is stored, `lbeg`, `lend` and `qa` are ignored, `qrb` is stored modulo qa, `stg` and `lam` are
stored; each write is there for the next instruction. -/
def Obligations.LoopRegisterWrites : Prop :=
  ∀ (s : State) (a : Reg) (n : BitVec 10), 0x20 ≤ n.toNat → n.toNat ≤ 0x2F →
    exec (.kwr a n) s = .next ((withHart s (
      if n.toNat ≤ 0x23 then
        (me s).setLevel (n.toNat - 0x20) { (me s).level (n.toNat - 0x20) with cnt := s.rg s.cur a }
      else if n = 0x2C#10 then
        { me s with qrb := if (me s).qa = 0 then 0 else BitVec.ofNat 8 ((s.rg s.cur a).toNat % (me s).qa.toNat) }
      else if n = 0x2E#10 then { me s with stg := BitVec.ofNat 8 (s.rg s.cur a).toNat }
      else if n = 0x2F#10 then { me s with lam := s.rg s.cur a }
      else me s)).done s.cur)

/-- R159, R160, R175 to R177, R302, R306, R308. A scalar load whose guard is on and whose access is served writes `gd` with the bytes at its address, extended, and
continues at the next instruction; besides the banks that the access takes, nothing else changes. A load from a sealed range whose line
the core's replica region holds gives the replica's bytes. One of a speculative task gives the bytes of its own buffered stores over
those of memory, and its signature matches every block that memory served. On a tile the access is to its own memory. -/
def Obligations.LoadResults : Prop :=
  ∀ (s : State) (g : Guard) (d a : Reg) (off : BitVec 9), GuardOn s g → ∀ p ∈ loadForms g d a off,
    (∀ i e, Readable s i (accessAddr s a p.2.1 off) p.2.1 e →
      ∃ u, Ledger s u (coreOf i) ∧ exec p.1 s = .next (writes u d (extended p.2.2 p.2.1 (memNat s.mem e.pa p.2.1))))
    ∧ (∀ i x, ReplicaHit s i (accessAddr s a p.2.1 off) p.2.1 x →
      ∃ u, Ledger s u (coreOf i) ∧ exec p.1 s = .next (writes u d (extended p.2.2 p.2.1
        (natOfBytes ((x.data.drop (accessAddr s a p.2.1 off % 64)).take p.2.1)))))
    ∧ (∀ i e, Speculates s i (accessAddr s a p.2.1 off) p.2.1 .read e → e.away = false → s.answer (.agent (.slot i)) e p.2.1 false = .serve →
        BanksFree s i e.pa p.2.1 → s.openReq (.agent (.slot i)) e.pa = none → s.inReplica e = false → s.marked e.pa p.2.1 = false →
        e.sld = false →
      ∃ t bs, exec p.1 s = .next t ∧ bs.length = p.2.1
        ∧ (∀ k < p.2.1, bs.getD k 0 = (bufferedByte (s.slot i).buf (e.pa + k)).getD (memRead s.mem (e.pa + k)))
        ∧ (t.slot i).h = ((s.slot i).h.wg d (extended p.2.2 p.2.1 (natOfBytes bs))).advance
        ∧ (∀ k < p.2.1, bufferedByte (s.slot i).buf (e.pa + k) = none → (t.slot i).sigHit ((e.pa + k) / 64) = true)
        ∧ (t.slot i).buf = (s.slot i).buf ∧ t.mem = s.mem ∧ ∀ j, j ≠ i → t.slot j = s.slot j)
    ∧ (∀ t o, TileServed s t (accessAddr s a p.2.1 off) p.2.1 false o → s.tmMarked t o p.2.1 = false →
      exec p.1 s = .next (writes (s.useBanks t o p.2.1) d (extended p.2.2 p.2.1 (memNat s.mem (tileBase t + o) p.2.1))))

/-- R175, R181, R182, R185, R302, R306, R308. A scalar store whose guard is on and whose access is served stores the low bytes of `gd`, the least significant at the
lowest address, and nothing to any other byte; with no speculative task to abort, no other agent changes, and no register of its own
but what continuing changes. A store of a speculative task enters its commit buffer and changes no memory; one that the buffer's share
cannot hold leaves the buffer as it was, and the slot waits for its commit. A store to a block that another slot's speculative task has
read aborts that task: it begins again from its record, with its buffer, signature and held operations gone. -/
def Obligations.StoreResults : Prop :=
  ∀ (s : State) (g : Guard) (d a : Reg) (off : BitVec 9), GuardOn s g → s.Canonical → ∀ p ∈ storeForms g d a off,
    (∀ i e, Served s i (accessAddr s a p.2 off) p.2 .write e → ∃ t, exec p.1 s = .next t
      ∧ Stored s t e.pa (bytesOfNat p.2 (s.rg s.cur d).toNat)
      ∧ (NoSpeculation s → (t.slot i).h = (s.slot i).h.advance ∧ SlotFrame s t i)
      ∧ (NoLinks s → ∀ j r, j ≠ i → (s.slot j).task = some r → (s.slot j).spec = .speculative → (s.slot j).undo = none →
          (s.slot j).sigHit (e.pa / 64) = true →
          (t.slot j).task = some r ∧ (t.slot j).h.pc = r.pc.setWidth 23 ∧ (t.slot j).buf = [] ∧ (t.slot j).held = []
            ∧ (t.slot j).sigLo = 0 ∧ (t.slot j).sigHi = 0 ∧ (t.slot j).spec = .speculative ∧ (t.slot j).aborts = (s.slot j).aborts + 1
            ∧ (∀ k < 4, (t.slot j).h.rg (BitVec.ofNat 5 (k + 1)) = r.args.toList.getD k 0)
            ∧ ((s.slot j).aborts + 1 < 16 → (t.slot j).st = .running) ∧ (16 ≤ (s.slot j).aborts + 1 → (t.slot j).wait = .commit)))
    ∧ (∀ i e n, Speculates s i (accessAddr s a p.2 off) p.2 .write e →
        Entries ((s.slot i).buf ++ [.store e.pa ((bytesOfNat p.2 (s.rg s.cur d).toNat).map some) e.page]) n →
        (n ≤ bufferShare s i → exec p.1 s = .next ((s.setSlot i { s.slot i with
          buf := (s.slot i).buf ++ [.store e.pa ((bytesOfNat p.2 (s.rg s.cur d).toNat).map some) e.page] }).done s.cur))
        ∧ (bufferShare s i < n → exec p.1 s = .next (s.setSlot i { s.slot i with st := .waiting, wait := .commit })))
    ∧ (∀ u o, TileServed s u (accessAddr s a p.2 off) p.2 true o → ∃ t, exec p.1 s = .next t
      ∧ Stored s t (tileBase u + o) (bytesOfNat p.2 (s.rg s.cur d).toNat)
      ∧ (NoSpeculation s → (t.tile u).r = { (s.tile u).r with h := (s.tile u).h.advance } ∧ t.slots = s.slots))

/-- R271, R302, R306. A scalar access whose address is not a multiple of its size raises a misaligned-access fault with that address, and
neither reads nor writes; so does a register target whose low two bits are not zero, at the transfer. -/
def Obligations.MisalignedFaults : Prop :=
  ∀ (s : State) (g : Guard) (d a : Reg) (off : BitVec 9),
    (GuardOn s g → ∀ p ∈ loadForms g d a off, accessAddr s a p.2.1 off % p.2.1 ≠ 0 →
      exec p.1 s = .next (s.raiseFault s.cur { cause := 0x05, kind := 1, faddr := accessAddr s a p.2.1 off }))
    ∧ (GuardOn s g → ∀ p ∈ storeForms g d a off, accessAddr s a p.2 off % p.2 ≠ 0 →
      exec p.1 s = .next (s.raiseFault s.cur { cause := 0x05, kind := 2, faddr := accessAddr s a p.2 off }))
    ∧ ((s.rg s.cur a).toNat % 4 ≠ 0 → ∀ i ∈ [Instr.callr a, Instr.jr a],
      exec i s = .next (s.raiseFault s.cur { cause := 0x05, faddr := (s.rg s.cur a).toNat }))
    ∧ ((s.rg s.cur 31#5).toNat % 4 ≠ 0 → exec .ret s = .next (s.raiseFault s.cur { cause := 0x05, faddr := (s.rg s.cur 31#5).toNat }))

/-- R168, R169, R309, R310, R313 to R316. `ld.acq` loads and `st.rel` stores eight bytes like a served scalar access. A fence, an `st.rel` and an atomic with
release order wait while an update that the slot has sent is on its way; a fence then completes, since every earlier access
of the slot has been performed (the model's order, log 4); `pref` changes no register but the PC, no byte of memory, and of the cores only a translation cache. An atomic that is served returns
the old number in `gd`, writes the new one, or nothing where a `cas` does not match, and sets the flags of its sum; every other byte of
memory is as it was. -/
def Obligations.OrderedAndAtomic : Prop :=
  (∀ (s : State) (i : SlotId) (sc : Scope) (d a b : Reg), s.cur = .slot i →
     (∀ e, Readable s i (s.rg s.cur a).toNat 8 e → ∃ u, Ledger s u (coreOf i)
       ∧ exec (.ldAcq sc d a) s = .next (writes u d (BitVec.ofNat 64 (memNat s.mem e.pa 8))))
     ∧ (∀ e, s.Canonical → (s.slot i).out = 0 → Served s i (s.rg s.cur a).toNat 8 .write e → ∃ t, exec (.stRel sc a b) s = .next t
       ∧ Stored s t e.pa (bytesOfNat 8 (s.rg s.cur b).toNat) ∧ (NoSpeculation s → (t.slot i).h = (s.slot i).h.advance ∧ SlotFrame s t i))
     ∧ ((s.slot i).out = 0 → exec (.fenceS sc) s = .next (s.done s.cur))
     ∧ ((s.slot i).out ≠ 0 → ∀ j ∈ [Instr.fenceS sc, Instr.stRel sc a b], exec j s =
         .next (s.setSlot i { s.slot i with st := .waiting, wait := .updates }))
     ∧ ∃ t, exec (.pref a) s = .next t ∧ t.mem = s.mem ∧ t.slot i = { s.slot i with h := (s.slot i).h.advance } ∧ (∀ j, j ≠ i → t.slot j = s.slot j)
       ∧ t.tiles = s.tiles ∧ (∀ k, { t.core k with utlb := (s.core k).utlb } = s.core k) ∧ ∀ k, k ≠ coreOf i → t.core k = s.core k)
  ∧ (∀ (s : State) (i : SlotId) (o : Order) (sc : Scope) (w : Bool) (d a b : Reg) (e : Dest), s.Canonical →
       ∀ p ∈ atomForms o sc w d a b (memNat s.mem e.pa) (s.rg s.cur b).toNat (s.rg s.cur d).toNat,
         (((o = .rel ∨ o = .ar) ∧ s.cur = .slot i ∧ (s.slot i).out ≠ 0) → exec p.1 s =
           .next (s.setSlot i { s.slot i with st := .waiting, wait := .updates }))
         ∧ (((o = .rel ∨ o = .ar) → (s.slot i).out = 0) → Served s i (s.rg s.cur a).toNat p.2.1 .atomic e → s.marked e.pa p.2.1 = false → ∃ t, exec p.1 s = .next t
           ∧ (match p.2.2.1 with
             | some v => Stored s t e.pa (bytesOfNat p.2.1 v)
             | none => t.mem = s.mem)
           ∧ (t.slot i).h.nst = (s.slot i).h.nst ||| p.2.2.2
           ∧ (NoSpeculation s → (t.slot i).h.g = (((s.slot i).h.wg d (BitVec.ofNat 64 (memNat s.mem e.pa p.2.1))).advance).g ∧ SlotFrame s t i)))

/-- R157, R160, R311, R312. `seal` and `unseal` of a task that is not speculative: a malformed range gives `seal` status 3 at once, and a
range that no entry of the ASID holds exactly gives `unseal` status 1; a range that passes
requests an invalidation of that range, and the slot waits for its acknowledgment; so does an `unseal` of a range whose entry another
`unseal` has marked already.
A range that an open request will seal counts as sealed, the model's reading (log 26). -/
def Obligations.SealRequests : Prop :=
  ∀ (s : State) (i : SlotId) (d a b : Reg), s.cur = .slot i → (s.slot i).spec ≠ .speculative →
    (¬ SealRange (s.rg s.cur a).toNat (s.rg s.cur b).toNat →
      exec (.seal d a b) s = .next (writes s d 3))
    ∧ ((∀ x ∈ s.seals, ¬ (x.asid = s.asidOf (coreOf i) ∧ x.base = (s.rg s.cur a).toNat ∧ x.len = (s.rg s.cur b).toNat)) →
      exec (.unseal d a b) s = .next (writes s d 1))
    ∧ (SealRange (s.rg s.cur a).toNat (s.rg s.cur b).toNat →
      (s.seals = [] → s.invals = [] → ∃ t v, exec (.seal d a b) s = .next t ∧ (t.slot i).wait = .inval s.nextInval 0 0
        ∧ t.invals.find s.nextInval = some v ∧ v.scope = .range (s.rg s.cur a).toNat (s.rg s.cur b).toNat
        ∧ v.entry.map (fun x => (x.base, x.len)) = some ((s.rg s.cur a).toNat, (s.rg s.cur b).toNat) ∧ v.opening = true
        ∧ Event.invalidationRequest s.nextInval none ∈ t.agenda ∧ t.mem = s.mem)
      ∧ (∀ x ∈ s.seals, x.asid = s.asidOf (coreOf i) → x.base = (s.rg s.cur a).toNat → x.len = (s.rg s.cur b).toNat →
        ∃ t v, exec (.unseal d a b) s = .next t ∧ (t.slot i).wait = .inval s.nextInval 0 0 ∧ t.invals.find s.nextInval = some v
          ∧ v.scope = .range (s.rg s.cur a).toNat (s.rg s.cur b).toNat ∧ v.opening = false
          ∧ Event.invalidationRequest s.nextInval none ∈ t.agenda ∧ t.mem = s.mem))

/-- R169, R210, R274, R217, R318. `tend`: a tile's stream ends; a task waits until every update that it has sent is applied; then a task that is not speculative retires, its slot idle with no allotment and no
active level, and the next start is due; a speculative one waits for its commit without allotment or active
level; an inline child returns, with the create's status. -/
def Obligations.TaskEnd : Prop :=
  ∀ (s : State),
    (∀ t, s.cur = .tile t → exec .tend s = .next (s.setTile t { s.tile t with running := false, ended := true }))
    ∧ (∀ i, s.cur = .slot i → (s.slot i).h.ild = 0 → (s.slot i).out = 0 → (s.slot i).spec ≠ .speculative → ∃ u, exec .tend s = .next u
        ∧ (u.slot i).st = .idle ∧ (u.slot i).task = none ∧ (u.slot i).h.qa = 0 ∧ (u.slot i).h.latch = none
        ∧ (∀ l < 4, ((u.slot i).h.level l).act = false) ∧ Event.taskStart i ∈ u.agenda ∧ u.mem = s.mem
        ∧ ∀ j, j ≠ i → u.slot j = s.slot j)
    ∧ (∀ i, s.cur = .slot i → (s.slot i).h.ild = 0 → (s.slot i).out = 0 → (s.slot i).spec = .speculative → (s.slot i).task.isSome → ∃ u, exec .tend s = .next u
        ∧ (u.slot i).st = .committing ∧ (u.slot i).task = (s.slot i).task ∧ (u.slot i).buf = (s.slot i).buf ∧ (u.slot i).h.g = (s.slot i).h.g
        ∧ (u.slot i).h.qa = 0 ∧ (∀ l < 4, ((u.slot i).h.level l).act = false) ∧ u.mem = s.mem)
    ∧ (∀ i, s.cur = .slot i → (s.slot i).h.ild = 0 → (s.slot i).out ≠ 0 → exec .tend s =
        .next (s.setSlot i { s.slot i with st := .waiting, wait := .updates }))
    ∧ (∀ i d k rest, s.cur = .slot i → (s.slot i).h.ild ≠ 0 → (s.rg s.cur 31#5).toNat % 4 = 0 → (s.slot i).inl = (d, k) :: rest →
        ∃ u, exec .tend s = .next u ∧ (u.slot i).h.pc = registerTarget s (s.rg s.cur 31#5) ∧ (u.slot i).h.ild = (s.slot i).h.ild - 1
        ∧ (u.slot i).h.cdep = (s.slot i).h.cdep - 1 ∧ (d ≠ 0 → u.rg s.cur d = BitVec.ofNat 64 k) ∧ (∀ r, r ≠ d → u.rg s.cur r = s.rg s.cur r)
        ∧ (u.slot i).inl = rest ∧ (u.slot i).gap = true ∧ (u.slot i).st = (s.slot i).st ∧ u.mem = s.mem)

/-- R152, R275, R297. `tyield` completes and has no other effect than that its slot is ready again only when every other ready slot of its core has issued once,
or after 4 ck. `idle` makes its slot wait until a user interrupt is queued for it with EN = 1, a phase of a sync word in its own core's palette ends,
or 4,096 ck have passed; it then completes, and has no other effect. -/
def Obligations.YieldAndIdle : Prop :=
  ∀ (s : State) (i : SlotId),
    (s.cur = .slot i → (∀ k, ¬ ReadyOther s i k) → exec .tyield s = .next (s.done s.cur))
    ∧ (s.cur = .slot i → (∃ k, ReadyOther s i k) → ∃ t l, exec .tyield s = .next t ∧ (∀ k, k ∈ l ↔ ReadyOther s i k)
        ∧ t.slot i = { s.slot i with h := (s.slot i).h.advance, st := .waiting, wait := .yield l }
        ∧ (s.ck + 4, Event.tyieldTimeout i) ∈ t.timers ∧ t.mem = s.mem ∧ ∀ j, j ≠ i → t.slot j = s.slot j)
    ∧ (∀ l j, (s.slot i).st = .waiting → (s.slot i).wait = .yield l → coreOf j = coreOf i →
        (s.yieldTo j).slot i = if (l.erase (j.val % 4)).isEmpty then { s.slot i with st := .running, wait := .none }
          else { s.slot i with wait := .yield (l.erase (j.val % 4)) })
    ∧ (∀ l, s.event = some (.tyieldTimeout i) → (s.slot i).st = .waiting → (s.slot i).wait = .yield l →
        exec .tyieldTimeout s = .next (s.setSlot i { s.slot i with st := .running, wait := .none }))
    ∧ (s.cur = .slot i → ∃ t, exec .idle s = .next t ∧ Waits s t i .idle ∧ (s.ck + 4096, Event.idleTimeout i) ∈ t.timers)
    ∧ ((s.slot i).st = .waiting → (s.slot i).wait = .idle →
        (s.event = some (.idleTimeout i) → ∃ t, exec .idleTimeout s = .next t ∧ Continues s t i 0 0)
        ∧ (∀ x u, (s.slot i).uiq.length < 8 → bitsAt (s.slot i).uih 63 1 = 1 →
            ((s.queueUi i x u).slot i).st = .running ∧ ((s.queueUi i x u).slot i).h = (s.slot i).h.advance
              ∧ ((s.queueUi i x u).slot i).uiq = (s.slot i).uiq ++ [(x, u)])
        ∧ ∀ pa, ((s.wakeSync (coreOf i) pa true).slot i).st = .running ∧ ((s.wakeSync (coreOf i) pa true).slot i).h = (s.slot i).h.advance)

/-- R290, R291. `lsave` of a core slot stores its sixteen words in its own scratch, then deactivates every level and clears `stg`, `lam` and
the reuse latch; what it stored, `lrest` of a slot with the same `qa` restores. -/
def Obligations.LoopAreas : Prop :=
  ∀ (s : State) (i : SlotId) (a : Reg) (off : Nat), s.cur = .slot i → (s.slot i).spec ≠ .speculative → s.Canonical →
    OwnFree s i (s.palette (coreOf i) + off) 128 → OwnScratch s i (s.rg s.cur a).toNat 128 off →
    (∃ t, exec (.lsave a) s = .next t ∧ Stored s t (s.palette (coreOf i) + off) ((loopWords (s.slot i).h).map (fun w => bytesOfNat 8 w.toNat)).flatten
      ∧ (NoSpeculation s → (t.slot i).h.pc = (s.slot i).h.pc + 4 ∧ (∀ l < 4, ((t.slot i).h.level l).act = false) ∧ (t.slot i).h.stg = 0
        ∧ (t.slot i).h.lam = 0 ∧ (t.slot i).h.qa = (s.slot i).h.qa ∧ (t.slot i).h.qrb = (s.slot i).h.qrb ∧ (t.slot i).h.g = (s.slot i).h.g))
    ∧ (∀ h : Hart, h.qa = (s.slot i).h.qa → (∀ l < 4, (h.level l).act = true → ∀ j < l, (h.level j).act = true) →
        (∀ j < 4, ∀ l < 4, (h.level l).act = true → (h.level l).rot = true → (h.level j).act = true → (h.level j).rot = true → l = j) →
        memBytes s.mem (s.palette (coreOf i) + off) 128 = ((loopWords h).map (fun w => bytesOfNat 8 w.toNat)).flatten →
        s.marked (s.palette (coreOf i) + off) 128 = false →
        ∃ u, Ledger s u (coreOf i) ∧ exec (.lrest a) s = .next (withHart u
          { me s with lv := h.lv, qrb := h.qrb, stg := h.stg, lam := h.lam, latch := none }.advance))

/-- R212, R318, R320, R321, R327. A create of a task that is not speculative, whose record is read and passes its checks: `push` and
`pushts` place it at the head of the deque with status 1 while the hardware part has room; `sarm` on a word that does not release its
generation arms it with status 0, or gives status 2 without a free entry. -/
def Obligations.Creates : Prop :=
  ∀ (s : State) (i : SlotId) (d a b : Reg) (e : Dest) (w : List Word) (off : Nat),
    (RecordRead s i (s.rg s.cur a).toNat e w → s.recordFault i w = none → (s.core (coreOf i)).deque.length < 32 →
      ∃ u, Ledger s u (coreOf i) ∧ exec (.push d a) s = .next (writes (u.setCore (coreOf i) { u.core (coreOf i) with
        deque := placedRecord s i (TaskRec_ofWords w) :: (s.core (coreOf i)).deque }) d 1))
    ∧ (RecordRead s i (s.rg s.cur a).toNat e w → bitsAt (s.rg s.cur b) 36 28 = 0 → (s.core (coreOf i)).deque.length < 32 →
      s.recordFault i (stamped w (s.rg s.cur b)) = none →
      ∃ u, Ledger s u (coreOf i) ∧ exec (.pushts d a b) s = .next (writes (u.setCore (coreOf i) { u.core (coreOf i) with
        deque := placedRecord s i (TaskRec_ofWords (stamped w (s.rg s.cur b))) :: (s.core (coreOf i)).deque }) d 1))
    ∧ (RecordRead s i (s.rg s.cur b).toNat e w → s.recordFault i w = none → OwnWord s i (s.rg s.cur a).toNat off → off + 16 ≤ 0x40000 →
      ¬ Releases s.mem (s.palette (coreOf i) + off) (bitsAt (s.rg s.cur d) 0 16) →
      ∃ u, Ledger s u (coreOf i) ∧ exec (.sarm d a b) s = .next (if (s.core (coreOf i)).arms.length < 16 then
          writes (u.setCore (coreOf i) { u.core (coreOf i) with arms := (s.core (coreOf i)).arms
            ++ [⟨off, BitVec.ofNat 16 (bitsAt (s.rg s.cur d) 0 16), placedRecord s i (TaskRec_ofWords w), false⟩] }) d 0
        else writes u d 2))

/-- R150, R199, R323 to R326. On places that pass their checks, in a task that is not speculative: `sadd` and `xbar.arr` send their update and
complete, once the slot's earlier updates are applied; `swait` and `twait` complete on a word that releases their generation, and wait for it otherwise. -/
def Obligations.SyncInstructions : Prop :=
  ∀ (s : State) (i : SlotId) (sc : Scope) (a b : Reg) (off : Nat) (d : Dest),
    (s.cur = .slot i → (s.slot i).spec ≠ .speculative → OwnWord s i (s.rg s.cur a).toNat off →
      (Update (s.rg s.cur b) → (s.slot i).out = 0 → ∃ t, exec (.sadd sc a b) s = .next t
        ∧ UpdateSent s t i (s.coreRouter (coreOf i)) (.syncUpdate (s.palette (coreOf i) + off) (bitsAt (s.rg s.cur b) 0 32)
          (bitsAt (s.rg s.cur b) 32 16) (bitsAt (s.rg s.cur b) 48 1 == 1) none (some (.slot i))))
      ∧ (Update (s.rg s.cur b) → (s.slot i).out ≠ 0 → ∃ t, exec (.sadd sc a b) s = .next t ∧ Waits s t i .updates)
      ∧ (Releases s.mem (s.palette (coreOf i) + off) (bitsAt (s.rg s.cur b) 0 16) → exec (.swait a b) s = .next (s.done s.cur))
      ∧ (¬ Releases s.mem (s.palette (coreOf i) + off) (bitsAt (s.rg s.cur b) 0 16) →
          ∃ t, exec (.swait a b) s = .next t ∧ Waits s t i (.sync (s.palette (coreOf i) + off))))
    ∧ (TxnPlace s i (s.rg s.cur a).toNat .atomic d → d.sld = false → Update (s.rg s.cur b) →
      ((s.slot i).out = 0 → ∃ t, exec (.xbarArr sc a b) s = .next t
        ∧ UpdateSent s t i (sliceRouter (sliceOf d.pa)) (.transactionBarrierUpdate d.pa (bitsAt (s.rg s.cur b) 0 32)
          (bitsAt (s.rg s.cur b) 32 16) (bitsAt (s.rg s.cur b) 48 1 == 1) (some (i, (s.rg s.cur a).toNat))))
      ∧ ((s.slot i).out ≠ 0 → ∃ t, exec (.xbarArr sc a b) s = .next t ∧ Waits s t i .updates))
    ∧ (Readable s i (s.rg s.cur a).toNat 16 d → inWindow (s.rg s.cur a).toNat = false →
      (Releases s.mem d.pa (bitsAt (s.rg s.cur b) 0 16) → ∃ u, Ledger s u (coreOf i) ∧ exec (.twait a b) s = .next (u.done s.cur))
      ∧ (¬ Releases s.mem d.pa (bitsAt (s.rg s.cur b) 0 16) →
          ∃ t w, exec (.twait a b) s = .next t ∧ Waits s t i (.txn d.pa w)))

/-- R192, R199, R328, R329. A core arrival, once the slot's earlier updates are applied, counts for the oldest unreleased barrier that has room, and its slot records the pair; `bar.wait` continues
when the barrier of its pair has been released, and waits otherwise. Another domain than one of the launch with V = 1 and CARR nonzero
faults. -/
def Obligations.CoreBarriers : Prop :=
  ∀ (s : State) (i : SlotId) (a : Reg) (d : Nat), s.cur = .slot i → d < 64 → s.rg s.cur a = BitVec.ofNat 64 d →
    (∀ x, CoreDomain s i d x → (s.slot i).spec ≠ .speculative →
      ((s.slot i).out ≠ 0 → ∃ t, exec (.barArr a) s = .next t ∧ Waits s t i .updates)
      ∧ ((s.slot i).out = 0 → ∃ t k l, exec (.barArr a) s = .next t ∧ (t.slot i).pair = some (d, x.step + k) ∧ t.domains.find d = some { x with coreArr := l }
        ∧ x.coreArr.getD k 0 < x.carr ∧ (∀ j < k, x.carr ≤ x.coreArr.getD j 0) ∧ l.getD k 0 = x.coreArr.getD k 0 + 1
        ∧ (∀ j, j ≠ k → l.getD j 0 = x.coreArr.getD j 0) ∧ (t.slot i).h = (s.slot i).h.advance ∧ t.mem = s.mem)
      ∧ (∀ b, (s.slot i).pair = some (d, b) → b < x.step →
          exec (.barWait a) s = .next ((s.setSlot i { s.slot i with pair := none }).done s.cur))
      ∧ (∀ b, (s.slot i).pair = some (d, b) → x.step ≤ b → ∃ t, exec (.barWait a) s = .next t ∧ Waits s t i (.barrier d b))
      ∧ ((∀ b, (s.slot i).pair ≠ some (d, b)) → ∃ t, exec (.barWait a) s = .next t ∧ Waits s t i (.barrier d x.step)))
    ∧ ((∀ x, ¬ CoreDomain s i d x) → ∀ j ∈ [Instr.barArr a, Instr.barWait a], exec j s = .next (s.raiseFault s.cur { cause := 0x14 }))

/-- R133, R134, R145, R197, R333, R334. A copy instruction of a task that is not speculative waits while 16 copies of its core are in flight,
and while an update that its slot has sent is on its way; with a block without a sync word or with one in its own scratch it then enters
its copy and completes; `cp.cancel` stops the sending of the oldest copy with that block, changes nothing of one that has sent everything
or is completing, and completes. -/
def Obligations.CopyInstructions : Prop :=
  ∀ (s : State) (i : SlotId) (a : Reg) (off so : Nat), BlockRead s i (s.rg s.cur a).toNat off → ∀ pa, pa = s.palette (coreOf i) + off →
    (∀ p ∈ copyForms a, (16 ≤ InFlightCopies s i → ∃ t, exec p.1 s = .next t ∧ Waits s t i .copyUnit)
      ∧ (InFlightCopies s i < 16 → (s.slot i).out ≠ 0 → ∃ t, exec p.1 s = .next t ∧ Waits s t i .updates))
    ∧ (∀ p ∈ copyForms a, InFlightCopies s i < 16 → (s.slot i).out = 0 → ∀ sync, (sync = none ∧ blockWord s pa 3 = 0 ∨ sync = some ((coreOf i).val, so) ∧ OwnWord s i (blockWord s pa 3).toNat so) →
      ∃ t c, exec p.1 s = .next t ∧ t.copies.find s.nextCopy = some c ∧ c.kind = p.2 ∧ c.block = off ∧ c.slot = i ∧ c.sync = sync
        ∧ c.blk.toList = (List.range 8).map (blockWord s pa) ∧ c.sent = 0 ∧ c.held = false ∧ t.nextCopy = s.nextCopy + 1
        ∧ (t.slot i).h = (s.slot i).h.advance ∧ t.mem = s.mem)
    ∧ ((∀ p ∈ s.copies, coreOf p.2.slot = coreOf i → p.2.va ≠ (s.rg s.cur a).toNat) → exec (.cpCancel a) s = .next (s.done s.cur))
    ∧ (∀ id c rest, s.copies = (id, c) :: rest → coreOf c.slot = coreOf i → c.va = (s.rg s.cur a).toNat → c.held = false → c.done = false →
        (c.closing = true ∨ c.total ≤ c.sent) → exec (.cpCancel a) s = .next (s.done s.cur))
    ∧ (∀ id c rest, s.copies = (id, c) :: rest → coreOf c.slot = coreOf i → c.va = (s.rg s.cur a).toNat → c.held = false → c.closing = false →
        c.done = false → c.sent < c.total → c.stop = none → ∃ t c', exec (.cpCancel a) s = .next t ∧ t.copies.find id = some c'
          ∧ c'.stop = some ⟨3, 0, 0, 0, c.sent⟩ ∧ (t.slot i).h = (s.slot i).h.advance ∧ t.mem = s.mem)

/-- R227, R330 to R332. `lpatch` and `larm` of a launch-capable task, `wpost` and `wquery`, in a task that is not speculative: the statuses,
the word that a patch writes, the ARM that `larm` sets and the launch of the record that it submits where the record passes its checks, the post that goes to the window's controller, once the slot's earlier updates are applied, and the bits of a query. -/
def Obligations.LaunchAndWindowInstructions : Prop :=
  ∀ (s : State) (i : SlotId) (d a b : Reg), s.cur = .slot i → (s.slot i).spec ≠ .speculative →
    ((s.slot i).lc = true → ∀ j w, (s.rg s.cur a).toNat = 16 * j + w → w < 16 →
      (255 < j → exec (.lpatch d a b) s = .next (writes s d 3))
      ∧ (j ≤ 255 → s.poolArmed j = true → exec (.lpatch d a b) s = .next (writes s d 2))
      ∧ (j ≤ 255 → s.poolArmed j = false → (w = 0 ∨ ((s.poolAt j)[0]).getLsbD (32 + w) = false) → exec (.lpatch d a b) s = .next (writes s d 1))
      ∧ (j ≤ 255 → s.poolArmed j = false → w ≠ 0 → ((s.poolAt j)[0]).getLsbD (32 + w) = true →
          ∃ u, exec (.lpatch d a b) s = .next (writes u d 0) ∧ Patched s u j w (s.rg s.cur b) ∧ { u with pool := s.pool } = s))
    ∧ ((s.slot i).lc = true → ∀ j, (s.rg s.cur a).toNat = j →
      (255 < j → exec (.larm d a) s = .next (writes s d 3)) ∧ (j ≤ 255 → s.poolArmed j = true → exec (.larm d a) s = .next (writes s d 2))
      ∧ (j ≤ 255 → s.poolArmed j = false → ((s.poolAt j)[0]).getLsbD 63 = false → exec (.larm d a) s = .next (writes s d 1))
      ∧ (j ≤ 255 → s.poolArmed j = false → ((s.poolAt j)[0]).getLsbD 63 = true → ∃ u : State, exec (.larm d a) s = .next ((u.wg s.cur d 0).done s.cur)
        ∧ (∀ k, k ≠ j → u.poolAt k = s.poolAt k)
        ∧ (rcdBad (s.poolAt j) = false → rcdCTX (s.poolAt j) = s.ctxOf (s.core (coreOf i)).lid → ctxEN (s.asctxAt (rcdCTX (s.poolAt j))) = true →
            s.closed = false → u.poolArmed j = true ∧ (∀ w, 0 < w → w < 16 → (u.poolAt j).toList.getD w 0 = (s.poolAt j).toList.getD w 0)
              ∧ Event.launchClaim s.nextLid ∈ u.agenda ∧ ∃ l, u.launches.find s.nextLid = some l ∧ l.rcd = s.poolAt j ∧ l.pool = some j
                ∧ l.parent = (s.core (coreOf i)).lid ∧ l.st = .claiming)))
    ∧ ((s.slot i).lc = false → exec (.lpatch d a b) s = .next (s.raiseFault s.cur { cause := 0x01 })
      ∧ exec (.larm d a) s = .next (s.raiseFault s.cur { cause := 0x01 }))
    ∧ ((s.slot i).out ≠ 0 → ∃ t, exec (.wpost d a) s = .next t ∧ Waits s t i .updates)
    ∧ (∀ off, (s.slot i).out = 0 → BlockRead s i (s.rg s.cur a).toNat off → ∀ wid, bitsAt (blockWord s (s.palette (coreOf i) + off) 0) 8 8 = wid →
      (s.windowOf (s.core (coreOf i)).lid wid = none → ∃ u, Ledger s u (coreOf i) ∧ exec (.wpost d a) s = .next (writes u d 3))
      ∧ (s.windowOf (s.core (coreOf i)).lid wid ≠ none → (bitsAt (blockWord s (s.palette (coreOf i) + off) 0) 32 32 ≠ 0
          ∨ bitsAt (blockWord s (s.palette (coreOf i) + off) 0) 1 7 ≠ 0) → ∃ u, Ledger s u (coreOf i) ∧ exec (.wpost d a) s = .next (writes u d 4))
      ∧ (∀ k x v, s.windowOf (s.core (coreOf i)).lid wid = some (k, x, v) → bitsAt (blockWord s (s.palette (coreOf i) + off) 0) 32 32 = 0 →
          bitsAt (blockWord s (s.palette (coreOf i) + off) 0) 1 7 = 0 → ∃ t n p, exec (.wpost d a) s = .next t ∧ Waits s t i (.post k v.wid)
            ∧ (s.ck + n, Event.windowPostArrival i (some d) k v.wid p) ∈ t.timers ∧ (n = 20 ∨ n = 28)
            ∧ p[0] = BitVec.ofNat 64 ((coreOf i).val * 2 ^ 16 + wid * 2 ^ 8) ∧ ∀ j < 8, 0 < j → p.toList.getD j 0 = blockWord s (s.palette (coreOf i) + off) j))
    ∧ (bitsAt (s.rg s.cur a) 8 56 = 0 →
      (s.windowOf (s.core (coreOf i)).lid (s.rg s.cur a).toNat = none → exec (.wquery d a) s = .next (writes s d 8))
      ∧ (∀ k x v, s.windowOf (s.core (coreOf i)).lid (s.rg s.cur a).toNat = some (k, x, v) → exec (.wquery d a) s = .next (writes s d
          (BitVec.ofNat 64 ((if v.stopped.isSome then 4 else 0) + (if v.isOpen ∧ v.posted.isSome then 2 else 0) + (if v.isOpen then 1 else 0))))))

/-- R263, R300, R301. `ovl` writes the overlay that its table entry names to `gb` of the code region, and nothing else but bits A of table entries that
it walks, and completes; the forms of `tlbi` in a
launch-capable task request the invalidation and wait for it, and fault in any other. -/
def Obligations.SystemInstructions : Prop :=
  ∀ (s : State) (i : SlotId) (a b : Reg), s.cur = .slot i →
    (∀ va len l u v, s.Canonical → s.ovlEntry i (s.rg s.cur a).toNat (s.rg s.cur b).toNat = .ok (va, len) u →
      u.ovlPieces i .code (chunks va len) = .ok l v → ∃ t, exec (.ovl a b) s = .next t
        ∧ Stored v t (s.palette (coreOf i) + (s.rg s.cur b).toNat) (l.flatMap (fun p => memBytes v.mem p.1 p.2))
        ∧ (ctxAD (s.asctxAt (s.ctxOf (s.core (coreOf i)).lid)) = false → v.mem = s.mem)
        ∧ (NoSpeculation s → (t.slot i).h = (s.slot i).h.advance ∧ SlotFrame s t i))
    ∧ (∀ p ∈ tlbiForms s a b, (s.slot i).lc = true → (s.slot i).spec ≠ .speculative →
        (p.1 = .tlbiAsid a → (s.rg s.cur a).toNat = (s.asidOf (coreOf i)).toNat) → ∃ t v, exec p.1 s = .next t
          ∧ Waits s t i (.inval s.nextInval 0 0) ∧ t.invals.find s.nextInval = some v ∧ v.scope = p.2 ∧ v.asid = s.asidOf (coreOf i)
          ∧ v.who = some i ∧ v.entry = none ∧ Event.invalidationRequest s.nextInval none ∈ t.agenda)
    ∧ (∀ p ∈ tlbiForms s a b, (s.slot i).lc = false → exec p.1 s = .next (s.raiseFault s.cur { cause := 0x01 }))

/-- R216, R217, R319, R429. `spawn` of a valid entry in a present core of the launch sends its record and waits, or, while the mesh is
rerouted, waits to be issued anew; the record begins on the lowest
free slot of its core, and the creator continues with status 0; with none free, the child runs inline at its creator.
The serial of a run counts the starts of its core, the model's reading (log 22). -/
def Obligations.SpawnedTasks : Prop :=
  ∀ (s : State) (i : SlotId) (d a b : Reg) (c : CoreId) (pc : BitVec 18) (r : TaskRec),
    (s.cur = .slot i → b.toNat % 4 = 0 → pc.toNat % 4 = 0 → s.rg s.cur a = BitVec.ofNat 64 (pc.toNat * 2 ^ 32 + c.val) → b.toNat ≤ 28 →
      s.clusterPresent (c.val / 8) = true → (∃ l, s.launchOf (coreOf i) = some l ∧ l.hasCluster (c.val / 8) = true) →
      clmapChg (s.clmapAt (c.val / 8)) = false →
      (s.rerouting = true → ∃ t, exec (.spawn d a b) s = .next t ∧ Waits s t i (.retry (s.ck + 2040)))
      ∧ (s.rerouting = false → ∃ t, exec (.spawn d a b) s = .next t ∧ Waits s t i (.spawn d)
        ∧ MessageSent s t (s.coreRouter (coreOf i)) (s.coreRouter c) 0 (.spawnArrival c i { spawnRecord s i pc b with lnk := (s.slot i).speculative })))
    ∧ (s.event = some (.spawnArrival c i r) → clmapChg (s.clmapAt (c.val / 8)) = false → (s.slot i).st = .waiting → (s.slot i).wait = .spawn d →
      (∀ k, LowestFree s c k → Unaborted s r → ∃ t, exec .spawnArrival s = .next t ∧ Begun s t (slotOf c k) r ∧ (t.slot i).st = .running
        ∧ (t.slot i).h = ((s.slot i).h.wg d 0).advance)
      ∧ ((∀ k < 4, ¬ Free s c k) → (s.slot i).h.ild ≠ 0xFFFF → ∃ t, exec .spawnArrival s = .next t ∧ (t.slot i).st = .running
        ∧ (t.slot i).h.pc = r.pc.setWidth 23 ∧ (t.slot i).h.ild = (s.slot i).h.ild + 1 ∧ (t.slot i).h.cdep = (s.slot i).h.cdep + 1
        ∧ (t.slot i).h.rg 31#5 = link (s.slot i).h ∧ (t.slot i).h.rg 1 = r.args[0] ∧ (t.slot i).h.rg 4 = r.args[3]
        ∧ (t.slot i).inl = (d, 2) :: (s.slot i).inl ∧ t.mem = s.mem))

/-- R151, R210, R212 to R214, R218. An idle slot takes its preloaded record, else the head of its deque; the oldest record goes to a thief,
which begins it on a free slot or keeps it in its deque; a released arm entry is pushed while there is room.
The serial of a run counts the starts of its core, the model's reading (log 22). -/
def Obligations.TaskStartsAndSteals : Prop :=
  ∀ (s : State) (i : SlotId) (c : CoreId) (r : TaskRec),
    (s.event = some (.taskStart i) → (s.slot i).st = .idle → Unaborted s r →
      ((s.slot i).preload = some r → ∃ t, exec .taskStart s = .next t ∧ Begun s t i r ∧ (t.slot i).preload = none)
      ∧ (∀ rest, (s.slot i).preload = none → (s.core (coreOf i)).deque = r :: rest →
          ∃ t, exec .taskStart s = .next t ∧ Begun s t i r ∧ (t.core (coreOf i)).deque = rest))
    ∧ (∀ k n rest, s.event = some (.stealRequest c) → s.rerouting = false → (s.core c).thieves = (k, n) :: rest → spillEN (s.core c).dqspill = false →
      ∃ t, exec .stealRequest s = .next t ∧ (t.core c).thieves = rest ∧ (t.core c).deque = (s.core c).deque.dropLast
        ∧ (t.core c).serveAt = s.ck + 4 ∧ StealMessage s t (s.coreRouter c) (s.coreRouter (coreNo k)) (.stealReply (coreNo k) (s.core c).deque.getLast?))
    ∧ (s.event = some (.stealReply c none) → ∃ t, exec .stealReply s = .next t ∧ (t.core c).stealing = false ∧ t.slots = s.slots ∧ t.mem = s.mem)
    ∧ (s.event = some (.stealReply c (some r)) → r.lnk = false → Unaborted s r →
      (∀ k, LowestFree s c k → ∃ t, exec .stealReply s = .next t ∧ Begun s t (slotOf c k) r ∧ (t.core c).stealing = false)
      ∧ ((∀ k < 4, ¬ Free s c k) → ∃ t, exec .stealReply s = .next t ∧ (t.core c).deque = r :: (s.core c).deque ∧ (t.core c).stealing = false
        ∧ t.slots = s.slots))
    ∧ (∀ a rest, s.event = some (.armEntryPush c) → (s.core c).arms = a :: rest → a.due = true → (∀ x ∈ rest, x.due = false) →
      (s.core c).deque.length < 32 → ∃ t, exec .armEntryPush s = .next t ∧ (t.core c).deque = a.task :: (s.core c).deque ∧ (t.core c).arms = rest)

/-- R175, R178 to R180, R185, R186, R189, R322. `commit.irr` completes in a free or irrevocable task and waits in a speculative one; a commit
whose places may be claimed applies the buffered stores, all of them and nothing else, and the task then ends or goes on; a message raises a
view; a starved front takes the slot of the highest waiting task of its launch (log 121).
A commit is one step, as the model groups what R180 makes atomic (log 94). -/
def Obligations.Commits : Prop :=
  ∀ (s : State) (i : SlotId),
    (s.cur = .slot i → (s.slot i).spec ≠ .speculative → exec .commitIrr s = .next (s.done s.cur))
    ∧ (s.cur = .slot i → (s.slot i).spec = .speculative → (s.slot i).task.isSome → exec .commitIrr s =
        .next (s.setSlot i { s.slot i with st := .committing, wait := .irr }))
    ∧ (s.event = some (.commit i) → s.Canonical → s.mayCommit i = true → (s.slot i).held = [] →
      (∀ o ∈ (s.slot i).buf, (∃ pa bs pg, o = .store pa bs pg) ∧ s.claim i o.range.1 o.range.2 = .ok) →
      (∀ j, j ≠ i → (s.slot j).spec ≠ .speculative ∧ ∀ q, (s.slot j).wait ≠ .txn q true) → ∃ t, exec .commit s = .next t
        ∧ (∀ a, memRead t.mem a = (bufferedByte (s.slot i).buf a).getD (memRead s.mem a))
        ∧ (t.slot i).buf = [] ∧ (t.slot i).spec ≠ .speculative ∧ (∀ j, j ≠ i → t.slot j = s.slot j)
        ∧ ((s.slot i).st = .committing → (s.slot i).wait = .commit → (t.slot i).st = .idle ∧ (t.slot i).task = none
          ∧ Event.taskStart i ∈ t.agenda)
        ∧ ((s.slot i).st = .committing → (s.slot i).wait = .irr → (t.slot i).st = .running ∧ (t.slot i).h = (s.slot i).h.advance)
        ∧ ((s.slot i).st ≠ .committing → (t.slot i).st = .running ∧ (t.slot i).h = (s.slot i).h))
    ∧ (∀ c d v, s.event = some (.commitFrontMessage c d v) → exec .commitFrontMessage s =
        .next (s.setCore c { s.core c with views := (s.core c).views.setIfInBounds (d - 1) v }))
    ∧ (∀ lid d c r0 r u, s.event = some (.starvedFrontTimeout lid d) → s.starved lid d = some c → s.highestWaiting lid = some (i, r0) →
        (s.giveBack i).takeFront c d (s.front (some lid) d) = .ok (some r) u → Unaborted u r → ∃ t, exec .starvedFrontTimeout s = .next t ∧ (t.slot i).task = some r ∧ (t.slot i).st = .running ∧ (t.slot i).h.pc = r.pc.setWidth 23)

/-- R152, R153, R220, R239, R292, R296, R406, R412. The boundary events: a budget overrun enters the trap handler; a pre-emption suspends a running slot, or one that waits in a wait instruction,
with cause 0x1B and saves its context, waits for the end of a `tlbi`, `seal` or `unseal`, or gives a speculative task's record back; a user interrupt is entered and returned from; a
suspended slot is resumed.
That a resumed slot keeps the saved `k.cause` is the model's reading (log 69). -/
def Obligations.BoundaryEvents : Prop :=
  ∀ (s : State) (i : SlotId),
    (s.event = some (.budgetOverrun i) → s.Canonical → Enterable s i → Unread s i (framePlace s i) → ∃ t, exec .budgetOverrun s = .next t ∧ (t.slot i).budEn = false
      ∧ Entered t i (s.slot i).h { cause := 0x0D, asy := true } (s.slot i).h.pc (s.core (coreOf i)).part (framePlace s i))
    ∧ (s.event = some (.preemptionRequest i) → s.Canonical → ((s.slot i).st = .running ∨ (s.slot i).st = .waiting ∧ WaitsFreely (s.slot i)) → (s.slot i).preload = none →
      (s.slot i).spec ≠ .speculative → ∃ t, exec .preemptionRequest s = .next t ∧ (t.slot i).st = .suspended
        ∧ bitsAt (t.slot i).h.cause 0 8 = 0x1B ∧ bitsAt (t.slot i).h.cause 60 1 = 1 ∧ (t.slot i).h.pc = (s.slot i).h.pc
        ∧ (t.slot i).h.g = (s.slot i).h.g ∧ (t.slot i).h.v = (s.slot i).h.v ∧ (t.slot i).h.p = (s.slot i).h.p
        ∧ (∀ j, j ≠ i → t.slot j = s.slot j) ∧ ∀ base, base = s.palette (coreOf i) + partXB (s.core (coreOf i)).part + 0x1000 * (i.val % 4) →
          (∀ k < 32, memNat t.mem (base + 8 * k) 8 = ((s.slot i).h.rg (BitVec.ofNat 5 k)).toNat)
          ∧ ∀ a, (a < base ∨ base + 0x1000 ≤ a) → memRead t.mem a = memRead s.mem a)
    ∧ (∀ id va k, s.event = some (.preemptionRequest i) → (s.slot i).st = .waiting → (s.slot i).wait = .inval id va k →
      (s.slot i).spec ≠ .speculative → ∃ t, exec .preemptionRequest s = .next t ∧ { t.slot i with due := (s.slot i).due } = s.slot i
        ∧ Due.preempt ∈ (t.slot i).due ∧ t.mem = s.mem ∧ ∀ j, j ≠ i → t.slot j = s.slot j)
    ∧ (∀ r, s.event = some (.preemptionRequest i) → (s.slot i).st ≠ .idle → (s.slot i).st ≠ .suspended → (s.slot i).spec = .speculative →
      (s.slot i).task = some r → NoUndo s → ∃ t, exec .preemptionRequest s = .next t ∧ (t.slot i).st = .idle ∧ (t.slot i).task = none
        ∧ (t.core (coreOf i)).deque.head? = some r ∧ t.mem = s.mem)
    ∧ (∀ x u rest, s.event = some (.userInterruptEntry i) → (s.slot i).uiq = (x, u) :: rest → ∃ t, exec .userInterruptEntry s = .next t
      ∧ (t.slot i).h.pc = BitVec.ofNat 23 (bitsAt u 0 18) ∧ (t.slot i).xfer = x ∧ (t.slot i).uiq = rest ∧ bitsAt (t.slot i).uih 62 1 = 1
      ∧ bitsAt (t.slot i).uih 0 18 = (s.slot i).h.pc.toNat % 2 ^ 18 ∧ bitsAt (t.slot i).uih 63 1 = bitsAt (s.slot i).uih 63 1
      ∧ (t.slot i).h.latch = none ∧ (∀ l < 4, ((t.slot i).h.level l).act = false) ∧ (t.slot i).h.stg = 0 ∧ (t.slot i).h.cdep = 0
      ∧ (t.slot i).uiSave = ⟨(s.slot i).h.lv, (s.slot i).h.qrb, (s.slot i).h.stg, (s.slot i).h.lam, (s.slot i).h.cdep, (s.slot i).h.ild⟩
      ∧ (t.slot i).h.g = (s.slot i).h.g ∧ t.mem = s.mem)
    ∧ (s.cur = .slot i → bitsAt (s.slot i).h.cause 62 1 = 0 → bitsAt (s.slot i).uih 62 1 = 1 → ∃ t, exec .eret s = .next t
      ∧ (t.slot i).h.pc = BitVec.ofNat 23 (bitsAt (s.slot i).uih 0 18) ∧ bitsAt (t.slot i).uih 62 1 = 0 ∧ (t.slot i).h.latch = none
      ∧ (⟨(t.slot i).h.lv, (t.slot i).h.qrb, (t.slot i).h.stg, (t.slot i).h.lam, (t.slot i).h.cdep, (t.slot i).h.ild⟩ : LoopSave) = (s.slot i).uiSave
      ∧ (t.slot i).h.g = (s.slot i).h.g ∧ t.mem = s.mem)
    ∧ (s.event = some (.resumption i) → (s.slot i).st = .suspended → (s.slot i).wait = .none → exec .resumption s =
        .next (s.setSlot i { s.slot i with h := { (s.slot i).h with latch := none }, st := .running, wait := .none }))

/-- R48, R62, R143, R149, R155, R169, R180, R325, R326. An update of a sync word in a palette whose cluster is not in change, whose bank is free and that no commit has claimed, and of a
transaction barrier whose line is served, leaves the word that `SyncUpdate` gives and no other byte changed; a slot that waits for the word reads it
again, as it does at a poll and at a retry; the copy or the slot that sent the update is answered. -/
def Obligations.SyncUpdates : Prop :=
  ∀ (s : State), s.Canonical → NoSpeculation s →
    (∀ pa bytes arr err ack c off, s.event = some (.syncUpdate pa bytes arr err none ack) → s.paletteOf pa = some (c, off) → (s.core c).arms = [] →
      clmapChg (s.clmapAt (c.val / 8)) = false → s.claimed pa 16 = false → (∀ b ∈ palBanks pa 16, s.bankServes (.event (.syncUpdate pa bytes arr err none ack)) b = true) →
      ∃ t, exec .syncUpdate s = .next t ∧ WordUpdated s t pa bytes arr err
        ∧ (∀ k < 4, (s.slot (slotOf c k)).st = .waiting → (s.slot (slotOf c k)).wait = .sync pa →
          (t.slot (slotOf c k)).st = .running ∧ (t.slot (slotOf c k)).h = (s.slot (slotOf c k)).h)
        ∧ (∀ id k, ack = some (.copy id k) → MessageSent s t ((pa - 0x200000000000) / 0x40000 / 8) (s.coreRouter (s.copyCore id)) 0 (.updateAcknowledgment id k))
        ∧ (∀ i, ack = some (.slot i) → (t.slot i).out = (s.slot i).out - 1))
    ∧ (∀ pa bytes arr err src e, e = .transactionBarrierUpdate pa bytes arr err src → s.event = some e →
      (s.underway e).answer (.event e) ⟨.slice, pa, none, false⟩ 16 true = .serve → ∃ t, exec .transactionBarrierUpdate s = .next t
        ∧ WordUpdated s t pa bytes arr err ∧ ∀ i va, src = some (i, va) → (t.slot i).out = (s.slot i).out - 1)
    ∧ (∀ i pa, s.event = some (.swaitPoll i) → (s.slot i).wait = .sync pa → (s.slot i).st = .waiting →
      exec .swaitPoll s = .next (s.setSlot i { s.slot i with st := .running, wait := .none }))
    ∧ (∀ i pa, s.event = some (.twaitRetry i) → (s.slot i).wait = .txn pa false → (s.slot i).st = .waiting →
      exec .twaitRetry s = .next (s.setSlot i { s.slot i with st := .running, wait := .none }))

/-- R48, R62, R64, R70, R74, R78, R177, R180, R306, R315, R493. Where the place of a waiting request performs it: a load's value, with the bytes that the slot's speculative
task has buffered over those of memory, is sent back and nothing changes, a store's
bytes are written and no other; a retry of an access of another core's palette or of a tile sends it over the mesh again, and one whose instruction
checks anew issues it; the response writes its register and completes the instruction. The response of a slice takes no time of its own,
the model's choice (log 5). -/
def Obligations.RequestsServed : Prop :=
  ∀ (s : State) (id : Nat) (q : Req) (i : SlotId), s.Canonical → Waiting s id q i →
    (∀ j, Arrives s id q i j →
      (∀ d n sg, q.op = .load d n sg → s.marked q.pa n = false → (s.slot i).spec ≠ .speculative → ∃ t, exec j s = .next t
        ∧ Responded s t i q (.responseArrival id (extended sg n (memNat s.mem q.pa n)) 0) ∧ t.mem = s.mem ∧ t.slots = s.slots)
      ∧ (∀ d n sg, q.op = .load d n sg → s.marked q.pa n = false → (s.slot i).task.isSome → (s.slot i).spec = .speculative →
          ∃ t bs, exec j s = .next t ∧ bs.length = n
            ∧ (∀ k < n, bs.getD k 0 = (bufferedByte (s.slot i).buf (q.pa + k)).getD (memRead s.mem (q.pa + k)))
            ∧ Responded s t i q (.responseArrival id (extended sg n (natOfBytes bs)) 0) ∧ t.mem = s.mem ∧ ∀ j, j ≠ i → t.slot j = s.slot j)
      ∧ (∀ bytes, q.op = .store bytes → ∃ t, exec j s = .next t ∧ Stored s t q.pa bytes ∧ (NoSpeculation s →
          Responded s t i q (.responseArrival id 0 0))))
    ∧ (∀ j, (j = Instr.requestRetry ∧ s.event = some (.requestRetry id) ∨ j = Instr.sliceRequest ∧ s.event = some (.sliceRequest id)) →
      (q.op ≠ .again → s.rerouting = false → ∀ c, s.placeOf i q.pa = .palette c false → ∃ t, exec j s = .next t
        ∧ MessageSent s t (s.coreRouter (coreOf i)) (s.coreRouter c) 0 (.remotePaletteAccess id) ∧ t.mem = s.mem ∧ t.slots = s.slots)
      ∧ (q.op ≠ .again → s.rerouting = false → ∀ u, s.placeOf i q.pa = .tileMem u → ∃ t, exec j s = .next t
        ∧ MessageSent s t (s.coreRouter (coreOf i)) (tileRouter u.val) 4 (.windowPortServe id) ∧ t.mem = s.mem ∧ t.slots = s.slots)
      ∧ (q.op = .again → (s.slot i).st = .waiting → exec j s = .next (s.setSlot i { s.slot i with st := .running, wait := .none })))
    ∧ (∀ x f d n sg, s.event = some (.responseArrival id x f) → q.op = .load d n sg → (s.slot i).st = .waiting → ∃ t,
      exec .responseArrival s = .next t ∧ (t.slot i).st = .running
        ∧ (t.slot i).h = (({ (s.slot i).h with nst := (s.slot i).h.nst ||| f } : Hart).wg d x).advance ∧ t.mem = s.mem
        ∧ ∀ j, j ≠ i → t.slot j = s.slot j)

/-- R26, R27, R31, R77, R95, R100, R419, R456, R494. A fill makes its line ready, with a mark on each granule that came with poison over CXL (free, log 132), and the end of a write-back frees its way; a dynamic slot that housekeeping takes closes
the rows; another serves a read of its pseudo-channel, whose line is ready 144 ck later, or a write; a miss of the die TLB starts a walk, whose time R494 gives; a walk that
comes to a leaf fills the translation caches, writes at most the entry, and the agent's instruction is issued anew; a walk that faults raises its fault
at the agent. A row hit among the next four always passes, the model's choice (log 95). -/
def Obligations.FillsAndWalks : Prop :=
  ∀ (s : State),
    (∀ line l, s.event = some (.l2Fill line) → s.lines.find line = some l →
      (l.st = .filling → ∃ t, exec .l2Fill s = .next t ∧ t.lines.find line = some { l with st := .ready } ∧ t.mem = s.mem
          ∧ ∀ g, g ∈ t.marks ↔ g ∈ s.marks ∨ s.phys (line * 256) ≠ .hbm ∧ g / 4 = line ∧ Config.poison s.ck g = true)
      ∧ (l.st = .writing → ∃ t, exec .l2Fill s = .next t ∧ t.lines = s.lines.del line ∧ t.mem = s.mem))
    ∧ (∀ p x, s.event = some (.hbmDynamicSlot p) → s.hbmQ.find p = some x →
      (Config.housekeeping p (s.ck / 16) = true → exec .hbmDynamicSlot s = .next { s with hbmQ := s.hbmQ.put p { x with rows := [] } })
      ∧ (Config.housekeeping p (s.ck / 16) = false → x.writes = [] → ∀ k l, x.pick x.reads = k → x.reads[k]? = some l → ∃ t y, exec .hbmDynamicSlot s = .next t ∧ t.hbmQ.find p = some y
        ∧ y.reads = ({ x with reads := x.reads.eraseIdx k } : Pch).letIn.reads ∧ (s.ck + 144, Event.l2Fill l) ∈ t.timers ∧ t.mem = s.mem)
      ∧ (Config.housekeeping p (s.ck / 16) = false → 24 ≤ x.writes.length → ∀ k l z, x.pick x.writes = k → x.writes[k]? = some l → s.lines.find l = some z → z.st = .writing →
        ∃ t, exec .hbmDynamicSlot s = .next t ∧ t.lines = s.lines.del l ∧ t.mem = s.mem))
    ∧ (∀ ag va k j, (j = Instr.pageWalk ∧ s.event = some (.pageWalk ag va k 0) ∨ j = Instr.walkRetry ∧ s.event = some (.walkRetry ag va k)) →
      s.waitOf ag = .walk va → s.dieLookup (s.dieOfAgent ag) (s.ctxOf (s.lidOf ag)) (kindOf k) va = .miss →
      (s.walks.filter (fun w => w.1 == s.dieOfAgent ag)).length + (s.unitWalks.filter (fun w => w.die == s.dieOfAgent ag && w.walk)).length < 32 →
      ∃ t, exec j s = .next t ∧ (s.ck + s.walkTime (s.dieOfAgent ag) (s.walkAddrs (s.ctxOf (s.lidOf ag)) va), Event.pageWalk ag va k 1) ∈ t.timers
        ∧ t.mem = s.mem ∧ t.slots = s.slots ∧ t.tiles = s.tiles)
    ∧ (∀ ag va k, s.event = some (.pageWalk ag va k 1) → s.waitOf ag = .walk va →
      (∀ ea ∈ s.walkAddrs (s.ctxOf (s.lidOf ag)) va, s.lineAnswer (ea / 256) false = .serve) →
      (∀ e pa u w level ea pa', s.Canonical → s.walkCtx (s.ctxOf (s.lidOf ag)) (kindOf k) true va = .leaf w level ea pa' →
        s.walkTo (s.ctxOf (s.lidOf ag)) (kindOf k) true va = .leaf e pa u → ∃ t, exec .pageWalk s = .next t
        ∧ (NoSpeculation s → Reissues s t ag) ∧ (∀ a, ¬ Undone s a → (a < ea ∨ ea + 8 ≤ a) → memRead t.mem a = memRead s.mem a)
        ∧ e.bits = levelBits level ∧ e.va = va / 2 ^ levelBits level * 2 ^ levelBits level ∧ e.leaf &&& ~~~0xC0#64 = w &&& ~~~0xC0#64
        ∧ e ∈ (t.dtlb.find (s.dieOfAgent ag)).getD [])
      ∧ (∀ f, s.walkTo (s.ctxOf (s.lidOf ag)) (kindOf k) true va = .fault f → exec .pageWalk s =
          .next (({ s with walks := s.walks.filter (fun w => w.2 != ag) } : State).raiseFault ag f)))

/-- R43 to R45, R71, R77, R201, R419, R456. Accesses of the host, its answers and snoops, and an uncorrectable error: what each does to the line, the
bytes, the marks and the messages over CXL. A snooped line that memory lacks is written back before its way is free. The host holds only
lines of HBM (R43). The bytes stand in the one memory throughout, the model's reading (log 49). -/
def Obligations.HostAccesses : Prop :=
  ∀ (s : State),
    (∀ pa data, s.event = some (.cxlMemWrite pa data) → s.Canonical → pa < 0x8000000000 → pa % 64 = 0 → data.length = 64 →
      s.lineAnswer (pa / 256) true = .serve → s.mayServe (.event (.cxlMemWrite pa data)) pa = true →
      ∃ t, exec .cxlMemWrite s = .next t ∧ Stored s t pa data)
    ∧ (∀ pa l, s.event = some (.cxlMemRead pa) → pa < 0x8000000000 → s.lineAnswer (pa / 256) false = .serve →
      s.mayServe (.event (.cxlMemRead pa)) pa = true → s.lines.find (pa / 256) = some l → ∃ t, exec .cxlMemRead s = .next t
        ∧ t.lines = s.lines.put (pa / 256) { l with hostHeld := l.hostHeld ||| (1#4 <<< (pa % 256 / 64)) } ∧ t.mem = s.mem ∧ t.slots = s.slots
        ∧ t.cxlOut = s.cxlOut ++ [.memData (pa / 64 * 64) (memBytes s.mem (pa / 64 * 64) 64) (s.marked (pa / 64 * 64) 64)])
    ∧ (∀ line k l, s.event = some (.birsp line k) → k < 4 → s.lines.find line = some l → ∃ t l', exec .birsp s = .next t
      ∧ t.lines.find line = some l' ∧ (∀ j < 4, l'.hostHeld.getLsbD j = (l.hostHeld.getLsbD j && j != k))
      ∧ (∀ j < 4, l'.asked.getLsbD j = (l.asked.getLsbD j && j != k)) ∧ (l.st = .birsp → (l'.st = .ready ↔ l'.asked = 0)) ∧ t.mem = s.mem)
    ∧ (∀ line, (s.event = some (.bisnp line) ∧ s.phys (line * 256) = .tier2 ∨ s.event = some (.hostSnoop line) ∧ s.phys (line * 256) = .host) →
      s.lineHeld line = false → ∀ j, j = (if s.event = some (.bisnp line) then Instr.bisnp else Instr.hostSnoop) →
      (s.lines.find line = none → exec j s = .next s)
      ∧ (∀ l, s.lines.find line = some l → l.hostHeld = 0 → l.dirty = false → exec j s = .next { s with lines := s.lines.del line })
      ∧ (∀ l, s.lines.find line = some l → l.hostHeld = 0 → l.dirty = true → s.setBusy line = false → ∃ t, exec j s = .next t
        ∧ t.lines = s.lines.put line { l with st := .writing, dirty := false } ∧ (∃ n, s.ck < n ∧ (n, Event.l2Fill line) ∈ t.timers ∨ Event.l2Fill line ∈ t.agenda)
        ∧ t.cxlOut = s.cxlOut ++ (List.range 4).map (fun k =>
            (if s.phys (line * 256) = .host then CxlMsg.snoopData else CxlMsg.memWrite) (256 * line + 64 * k) (memBytes s.mem (256 * line + 64 * k) 64)
              (s.marked (256 * line + 64 * k) 64)) ∧ t.mem = s.mem))
    ∧ (∀ g, s.event = some (.eccUncorrectable none g) → exec .eccUncorrectable s =
        .next { s with marks := insertNat g s.marks, errors := s.errors ++ [(none, 64 * g)] })
    ∧ (∀ u g, s.event = some (.eccUncorrectable (some u) g) → exec .eccUncorrectable s =
        .next (({ s with errors := s.errors ++ [(some u, g)] } : State).setTile u { s.tile u with accMarks := insertNat g (s.tile u).accMarks }))

/-- R35, R36, R157, R160. The phases of an invalidation: the block phase leaves no covered entry in a micro-TLB and begins the drain; a drain
whose conditions hold, 32 ck after its start, and before which no earlier one is still draining, is acknowledged 32 ck later; the acknowledgment makes or
frees the seal entry, its requester completes with status 0, and every slot that waits for it issues its instruction anew.
The phases last exactly 32 ck in the model (log 74). -/
def Obligations.Invalidations : Prop :=
  ∀ (s : State) (id : Nat) (v : Inval), s.invals.find id = some v →
    (s.event = some (.invalidationRequest id none) → ∃ t, exec .invalidationRequest s = .next t
      ∧ t.invals.find id = some { v with phase := .drain, since := s.ck } ∧ (∀ c, ∀ e ∈ (t.core c).utlb, v.coversEntry e = false)
      ∧ (NoUndo s → t.mem = s.mem))
    ∧ (s.event = some (.invalidationDrainEnd id) → v.phase = .drain → v.since + 32 ≤ s.ck → s.drained v = true →
      (∀ p ∈ s.invals, p.1 < id → p.2.phase = .ack) → ∃ t,
      exec .invalidationDrainEnd s = .next t ∧ t.invals.find id = some { v with phase := .ack, since := s.ck }
      ∧ (s.ck + 32, Event.invalidationAcknowledge id) ∈ t.timers ∧ t.mem = s.mem)
    ∧ (s.event = some (.invalidationAcknowledge id) → ∃ t, exec .invalidationAcknowledge s = .next t ∧ t.invals = s.invals.del id
      ∧ (∀ x, v.entry = some x → v.opening = true → t.seals = s.seals ++ [x])
      ∧ (∀ x, v.entry = some x → v.opening = false → ∀ y, y ∈ t.seals ↔ y ∈ s.seals ∧ ¬ (y.asid = x.asid ∧ y.base = x.base ∧ y.len = x.len))
      ∧ (∀ i va k, v.who = some i → (s.slot i).wait = .inval id va k → (s.slot i).st = .waiting → (t.slot i).st = .running
        ∧ (t.slot i).h = ((s.slot i).h.wg v.dest 0).advance)
      ∧ (∀ i va k, v.who ≠ some i → (s.slot i).wait = .inval id va k → (s.slot i).st = .waiting → (t.slot i).st = .running
        ∧ (t.slot i).h = (s.slot i).h) ∧ t.mem = s.mem)

/-- R335 to R337, R340 to R343. Each elementwise instruction that no stage guard suppresses writes the enabled elements of `vd` and keeps the others.
A floating-point one writes the exact result rounded once to the element format and sets the flags of the enabled elements; an integer, logic or
move one writes the result modulo the element's width and sets no flag.
The results of `vexp2` and `vlog2` are those of the model's working precision (log 13). -/
def Obligations.ElementwiseVectors : Prop :=
  (∀ (s : State) (g : Guard) (u : Bool) (d a b : VOp), s.Canonical → Runs (me s) g → ∀ p ∈ floatForms g u d a b,
     ∃ t, exec p.1 s = .next t ∧ VectorWritten s t g p.2.1.width d (fun e =>
       p.2.2 (vel s p.2.1.width a e) (vel s p.2.1.width b e) (vel s p.2.1.width d e)))
  ∧ (∀ (s : State) (g : Guard) (u : Bool) (d a b : VOp), s.Canonical → Runs (me s) g → ∀ p ∈ intForms g u d a b,
       ∃ t, exec p.1 s = .next t ∧ VectorWritten s t g p.2.1 d (fun e => (p.2.2 (vel s p.2.1 a e) (vel s p.2.1 b e), 0)))

/-- R242, R336, R343 to R345, R347 to R349. Permutes, broadcast, select, compare, scan, histogram and flip: the lanes or predicate bits that
each writes; `vsel` is major 0x2A with FN 0 and its k in G. A scan of an integer type leaves each enabled element the sum of the enabled
elements up to it; one of a floating-point type adds them in element order, each sum rounded. A flip of an integer type is not well-formed.
A bit of a compare follows the enable of its own lane, the model's reading (log 51). -/
def Obligations.VectorMoves : Prop :=
  ∀ (s : State) (g : Guard) (u : Bool) (d a b : VOp) (r : Reg), s.Canonical → Runs (me s) g →
    (∀ p ∈ moveForms s g u d a b r, ∃ t, exec p.1 s = .next t ∧ VectorWritten s t g 32 d (fun i => (p.2 i, 0)))
    ∧ (∀ k, ∃ t, exec (.vsel u d a b k) s = .next t ∧ VectorWritten s t (.pred 0) 32 d (fun i =>
        (if ((me s).rp k).getLsbD i then vel s 32 a i else vel s 32 b i, 0)))
    ∧ (∀ k, (encode (.vsel u d a b k)).extractLsb' 26 6 = 0x2A#6 ∧ (encode (.vsel u d a b k)).extractLsb' 22 4 = 0#1 ++ k
        ∧ (encode (.vsel u d a b k)).extractLsb' 0 3 = 0#3)
    ∧ decode 0xA9022180#32 = .ok (.vsel false ⟨0, 1⟩ ⟨0, 2⟩ ⟨0, 3⟩ 4)
    ∧ (∀ cc ty pd, ∃ t x, exec (.vcmp g cc ty u pd a b) s = .next t ∧ (t.hart s.cur).p = ((me s).wp pd x).p ∧ (t.hart s.cur).v = (me s).v
        ∧ (t.hart s.cur).g = (me s).g ∧ (t.hart s.cur).nst = (me s).nst ∧ (t.hart s.cur).pc = (me s).advance.pc ∧ t.mem = s.mem
        ∧ ∀ i < 64, x.getLsbD i = if i < lanes s ∧ LaneOn (me s) g i then
            predicateBit (vtypeBits ty) (fun e => compareMeans cc ty (vel s (vtypeBits ty) a e) (vel s (vtypeBits ty) b e)) i
          else ((me s).rp pd).getLsbD i)
    ∧ (∀ ty w sg, intType ty = some (w, sg) → ∃ t, exec (.vscan g ty u d a) s = .next t ∧ VectorWritten s t g w d (fun e =>
        ((((List.range (e + 1)).filter (fun j => LaneOn (me s) g (laneFor w j))).map (vel s w a)).sum, 0)))
    ∧ (∀ ty f, vtypeFmt ty = some f → (∃ t, exec (.vscan g ty u d a) s = .next t ∧ VectorWritten s t g f.width d (fun e =>
          runningSum f (((List.range (e + 1)).filter (fun j => LaneOn (me s) g (laneFor f.width j))).map (vel s f.width a))))
        ∧ ∃ t, exec (.vflip g ty u d a) s = .next t ∧ VectorWritten s t g f.width d (fun e => (sortKey f.width (vel s f.width a e), 0)))
    ∧ (∀ ty, vtypeFmt ty = none → wellFormed (.vflip g ty u d a) = false)
    ∧ (∃ t, exec (.vhist g u d a) s = .next t ∧ Continued s t (fun n => n = 0) ∧ ∀ i < lanes s,
        velOf s t 32 d i = (vel s 32 d i + ((enabled s g 32 a).filter (fun x => x == i)).length) % 2 ^ 32)

/-- R346. A reduction combines the enabled elements in the fixed binary tree over their positions, in FP32 for the floating-point types, writes
the root, or the identity where no element is enabled, and sets the flags of its nodes. A reduction of an integer type so leaves the sum
modulo the width, the greatest or the least of the enabled elements; one of a floating-point type leaves an FP32 code. -/
def Obligations.Reductions : Prop :=
  ∀ (s : State) (g : Guard) (u : Bool) (d : Reg) (a : VOp), Runs (me s) g →
    (∀ ty, ∀ p ∈ [(Instr.vredsum g ty u d a, (0 : Fin 3)), (.vredmax g ty u d a, 1), (.vredmin g ty u d a, 2)],
      (∀ w, decode w = .ok p.1 → w.extractLsb' 26 6 = 0x2C#6 ∧ (w.extractLsb' 3 3).toNat = p.2.val ∧ w.extractLsb' 17 5 = d ∧ w.extractLsb' 11 1 = 0#1
        ∧ (w.extractLsb' 6 3).toNat ≤ 6)
      ∧ ∀ root, root = treeNode (nodeOf p.2 ty) (fun e => if LaneOn (me s) g (laneFor (vtypeBits ty) e) then
          some (leafOf ty (vel s (vtypeBits ty) a e)) else none) (Nat.log2 (32 * lanes s / vtypeBits ty)) 0 →
        ∃ t, exec p.1 s = .next t ∧ Reduced s t d ((root.1.map (rootWord ty)).getD (emptyOf p.2 ty))
          ∧ (t.hart s.cur).nst = (me s).nst ||| root.2) ∧
    decode 0xB00A3000#32 = .ok (.vredsum (.pred 0) .f32 false 5 ⟨0, 3⟩) ∧
    (∀ ty w sg, intType ty = some (w, sg) → ∀ xs, xs = enabled s g w a →
      (∃ t, exec (.vredsum g ty u d a) s = .next t ∧ Reduced s t d (BitVec.ofInt 64 (typeValue w sg (xs.sum % 2 ^ w))))
      ∧ (∃ t v, exec (.vredmax g ty u d a) s = .next t ∧ Reduced s t d (BitVec.ofInt 64 v) ∧
          if xs = [] then v = (if sg then -(2 ^ (w - 1)) else 0) else (∃ x ∈ xs, v = typeValue w sg x) ∧ ∀ x ∈ xs, typeValue w sg x ≤ v)
      ∧ (∃ t v, exec (.vredmin g ty u d a) s = .next t ∧ Reduced s t d (BitVec.ofInt 64 v) ∧
          if xs = [] then v = (if sg then 2 ^ (w - 1) - 1 else 2 ^ w - 1) else (∃ x ∈ xs, v = typeValue w sg x) ∧ ∀ x ∈ xs, v ≤ typeValue w sg x))
    ∧ (∀ ty f, vtypeFmt ty = some f → ∀ p ∈ [(Instr.vredsum g ty u d a, 0#64), (.vredmax g ty u d a, 0xFF800000#64), (.vredmin g ty u d a, 0x7F800000#64)],
        ∃ t x, exec p.1 s = .next t ∧ Reduced s t d x ∧ x.toNat < 2 ^ 32 ∧ (enabled s g f.width a = [] → x = p.2)
          ∧ ∀ y, enabled s g f.width a = [y] → (f.decode y).isNan = false → Fmt.fp32.decode x.toNat = f.decode y ∨
            (Fp.numEq (Fmt.fp32.decode x.toNat) (f.decode y) = true ∧ (Fmt.fp32.decode x.toNat).sign = (f.decode y).sign))

/-- R248, R350 to R353. The vector loads and stores that no stage guard suppresses and whose enabled elements can be accessed at once: a
load writes the enabled elements; `vst` writes the bytes of the enabled lanes; `vstx` leaves each byte with the highest-numbered enabled
element that holds it; no other byte of memory changes, but that a task which the store aborts gives back a frame entered in the same
ck. On a tile an indexed access to two lines of one bank takes a further ck, in which it waits and writes nothing (R63, R69). -/
def Obligations.VectorMemory : Prop :=
  ∀ (s : State) (g : Guard) (d b : VOp) (a : Reg) (off : BitVec 10) (e : Esz), s.Canonical → Runs (me s) g →
    (∀ pa, ReadPlace s (vectorAddr s a off) (4 * lanes s) pa → ∃ t, exec (.vld g d a off) s = .next t ∧ LoadKeeps s t d
      ∧ VectorWritten s t g 32 d (fun i => (memNat s.mem (pa + 4 * i) 4, 0)))
    ∧ (∀ pa, WritePlace s (vectorAddr s a off) (4 * lanes s) pa → ∃ t, exec (.vst g d a off) s = .next t
      ∧ (∀ x, ¬ Undone s x → memRead t.mem x = if pa ≤ x ∧ x < pa + 4 * lanes s ∧ LaneOn (me s) g ((x - pa) / 4) then BitVec.ofNat 8 (vel s 8 d (x - pa))
          else memRead s.mem x) ∧ (NoSpeculation s → me t = (me s).advance))
    ∧ ∀ n w, elementSizes e = (n, w) →
      (∀ pa : Nat → Nat, (∀ k < 32 * lanes s / w, LaneOn (me s) g (laneFor w k) → ReadPlace s (elementAddr s a b n k) n (pa k)) →
        Apart s (fun k => k < 32 * lanes s / w ∧ LaneOn (me s) g (laneFor w k) = true) (elementAddr s a b n) pa →
        ∃ t, exec (.vldx g e d a b) s = .next t ∧ LoadKeeps s t d ∧ VectorWritten s t g w d (fun k => (elementValue n (memNat s.mem (pa k) n), 0)))
      ∧ (∀ pa, ReadPlace s (s.rg s.cur a).toNat n pa →
        (∀ u, s.cur = .tile u → (s.tile u).turn = 0) →
        ∃ t, exec (.vldb g e d a) s = .next t ∧ LoadKeeps s t d ∧ VectorWritten s t g w d (fun _ => (elementValue n (memNat s.mem pa n), 0)))
      ∧ (∀ pa : Nat → Nat, (∀ k < 32 * lanes s / w, LaneOn (me s) g (laneFor w k) → WritePlace s (elementAddr s a b n k) n (pa k) ∧ pa k % n = 0) →
        Apart s (fun k => k < 32 * lanes s / w ∧ LaneOn (me s) g (laneFor w k) = true) (fun _ => 0) pa →
        ∃ t, exec (.vstx g e d a b) s = .next t ∧ (NoSpeculation s → me t = (me s).advance) ∧ ∀ x, ¬ Undone s x →
          (∀ k, LastAt (fun k => LaneOn (me s) g (laneFor w k) = true) (32 * lanes s / w) n pa x k →
            memRead t.mem x = BitVec.ofNat 8 (vel s w d k / 2 ^ (8 * (x - pa k))))
          ∧ ((∀ k, ¬ LastAt (fun k => LaneOn (me s) g (laneFor w k) = true) (32 * lanes s / w) n pa x k) → memRead t.mem x = memRead s.mem x))
      ∧ (∀ u (pa : Nat → Nat), s.cur = .tile u → (s.tile u).turn = 0 → (∀ k < 32 * lanes s / w, LaneOn (me s) g (laneFor w k) →
            ∃ o, TileServed s u (elementAddr s a b n k) n true o ∧ pa k = o) →
          (∃ j k, j < 32 * lanes s / w ∧ k < 32 * lanes s / w ∧ LaneOn (me s) g (laneFor w j) = true ∧ LaneOn (me s) g (laneFor w k) = true
            ∧ bankOf (pa j) = bankOf (pa k) ∧ pa j / 256 ≠ pa k / 256) →
          ∀ i ∈ [Instr.vldx g e d a b, .vstx g e d a b], ∃ t, exec i s = .next t ∧ t.mem = s.mem ∧ (t.tile u).r = (s.tile u).r
            ∧ (t.tile u).turn = 1 ∧ (t.tile u).wait = .stall .exchange)

/-- R109 to R114, R119, R252, R354 to R358. The conversions that no stage guard suppresses: each enabled element written at its place with its
converted code, the new residues with error feedback, the contributions and values of FX128, and the codes, scales, residues and flags of
the blocks that some enabled lane belongs to. An infinity converted to a format without one sets no NX, and a sum with a residue sets NX,
UF and OF alone (log 100); an MX64-E2M1 block with the NaN scale has 0x00 as its extra byte (log 98). How a value is rounded is the
statement `RoundedOnce`. -/
def Obligations.Conversions : Prop :=
  ∀ (s : State) (g : Guard) (r : Rnd) (sat : Bool) (d a : VOp), s.Canonical → Runs (me s) g →
    (∀ c, ∀ p ∈ narrowForms g r sat d a c, Legal s p.1 →
      ∃ (y : Nat → Nat × BitVec 7) (t : State), exec p.1 s = .next t
        ∧ (∀ i, y i = if r = .ef then let q := addResidue (vel s 32 a i) (vel s 32 ⟨0#1, residueReg c⟩ i); (q.1, q.2 &&& 14) else (vel s 32 a i, 0))
        ∧ PackedWritten s t g p.2.1 d (fun i => let z := p.2.2 (Fmt.fp32.decode (y i).1); (z.1, (y i).2 ||| z.2.1))
        ∧ (r = .ef → ∀ i < lanes s, vel t 32 ⟨0#1, residueReg c⟩ i = if LaneOn (me s) g i then
            newResidue (y i).1 (p.2.2 (Fmt.fp32.decode (y i).1)).2.2 else vel s 32 ⟨0#1, residueReg c⟩ i))
    ∧ (∀ p ∈ widenForms g r d a, ∃ t, exec p.1 s = .next t ∧ VectorWritten s t g 32 d (fun i => p.2.2 (vel s p.2.1 a i)))
    ∧ (Legal s (.vcvtFxToFx128 g r d a) → ∃ t, exec (.vcvtFxToFx128 g r d a) s = .next t
        ∧ (∀ i < lanes s, velOf s t 64 (groupAt d (i / (lanes s / 2))) (i % (lanes s / 2)) = if LaneOn (me s) g i then
            ((fpToFx r (Fmt.fp32.decode (vel s 32 a i))).1 % 2 ^ 64).toNat else vel s 64 (groupAt d (i / (lanes s / 2))) (i % (lanes s / 2)))
        ∧ Continued s t (fun n => ∀ j < 7, n.getLsbD j = true ↔
            ∃ i < lanes s, LaneOn (me s) g i = true ∧ (fpToFx r (Fmt.fp32.decode (vel s 32 a i))).2.1.getLsbD j = true))
    ∧ (∃ t, exec (.vcvtFxFromFx128 g d a) s = .next t ∧ VectorWritten s t g 32 d (fun i =>
        let y := intToFp32 .rne (signedOf 128 (vel s 128 (groupAt a (i / (lanes s / 4))) (i % (lanes s / 4)))) (-32); (y.1, y.2 &&& 2)))
    ∧ (∀ blk vd c, Legal s (.vqMx g blk r vd a c) → ∀ k n, k = groupSize s.cur blk → n = blkLen blk →
        (r = .ef → ∀ j < k, groupAt a (k + j) ≠ ⟨0#1, vd⟩) →
        ∃ (q : Nat → Block × BitVec 7) (live : Nat → Prop) (t : State), exec (.vqMx g blk r vd a c) s = .next t
          ∧ (∀ b, live b ↔ ∃ i < n, LaneOn (me s) g ((b * n + i) % lanes s) = true)
          ∧ (∀ b, (q b).1 = (quantMx blk r ((List.range n).map (fun i => Fmt.fp32.decode (quantInput s g (r = .ef) a k (b * n + i)).1))).1)
          ∧ (∀ e < 32 * lanes s / blkBits blk, (e < k * lanes s ∧ live (e / n) → vel t (blkBits blk) ⟨0#1, vd⟩ e = (q (e / n)).1.codes.getD (e % n) 0)
            ∧ (¬ (e < k * lanes s ∧ live (e / n)) → vel t (blkBits blk) ⟨0#1, vd⟩ e = vel s (blkBits blk) ⟨0#1, vd⟩ e))
          ∧ (c ≠ 0 → ∀ b < k * lanes s / n, let sh := 8 * blkScaleBytes blk
              (live b → bitsAt (t.rg s.cur c) (sh * b) 8 = (q b).1.scale ∧ (sh = 16 → bitsAt (t.rg s.cur c) (sh * b + 8) 8 = (q b).1.extra))
              ∧ (¬ live b → bitsAt (t.rg s.cur c) (sh * b) sh = bitsAt (s.rg s.cur c) (sh * b) sh))
          ∧ (c ≠ 0 → (t.rg s.cur c).toNat < 2 ^ (8 * blkScaleBytes blk * (k * lanes s / n)))
          ∧ (r = .ef → ∀ j < k * lanes s, velOf s t 32 (groupAt a (k + j / lanes s)) (j % lanes s) =
              if LaneOn (me s) g (j % lanes s) then (if (q (j / n)).1.scale = 0xFF then 0 else newResidue (quantInput s g true a k j).1
                (blkValue blk (q (j / n)).1.scale (q (j / n)).1.extra ((q (j / n)).1.codes.getD (j % n) 0)))
              else groupVal s (groupAt a k) j)
          ∧ (me t).pc = (me s).advance.pc
          ∧ ∃ fl : BitVec 7, (me t).nst = (me s).nst ||| fl ∧ ∀ j < 7, fl.getLsbD j = true ↔
              (∃ b < k * lanes s / n, live b ∧ (quantMx blk r ((List.range n).map (fun i =>
                  Fmt.fp32.decode (quantInput s g (r = .ef) a k (b * n + i)).1))).2.1.getLsbD j = true)
              ∨ ∃ i < k * lanes s, (quantInput s g (r = .ef) a k i).2.getLsbD j = true)
    ∧ (∀ blk va c, Legal s (.vdqMx g blk d va c) → ∀ k n, k = groupSize s.cur blk → n = blkLen blk →
        ∃ t, exec (.vdqMx g blk d va c) s = .next t ∧ (me t).pc = (me s).advance.pc ∧ ∀ j < k * lanes s,
          velOf s t 32 (groupAt d (j / lanes s)) (j % lanes s) = if LaneOn (me s) g (j % lanes s) then
            (Fmt.fp32.result (blkValue blk (bitsAt (s.rg s.cur c) (8 * blkScaleBytes blk * (j / n)) 8)
              (if blkScaleBytes blk = 2 then bitsAt (s.rg s.cur c) (16 * (j / n) + 8) 8 else 0) (vel s (blkBits blk) ⟨0#1, va⟩ j)) 0).1
          else groupVal s d j)

/-- R241, R243, R246, R336. Frame: a vector instruction of these families that answers a next state leaves every other agent, and memory
outside the q registers of a core slot, as they were; every `v` register but its destinations keeps its value. -/
def Obligations.VectorFrame : Prop :=
  ∀ (s t : State) (g : Guard) (u : Bool) (d a b : VOp) (r : Reg) (k : PReg) (ty : VType) (rn : Rnd) (sat : Bool), s.Canonical → (me s).qa ≠ 0 →
    (∀ i ∈ (floatForms g u d a b).map (fun p => p.1) ++ (intForms g u d a b).map (fun p => p.1) ++ (moveForms s g u d a b r).map (fun p => p.1)
        ++ (narrowForms g .rne sat d a 0).map (fun p => p.1) ++ (widenForms g rn d a).map (fun p => p.1)
        ++ [.vsel u d a b k, .vscan g ty u d a, .vhist g u d a, .vflip g ty u d a, .vcvtFxFromFx128 g d a], exec i s = .next t →
      (∀ ag, ag ≠ s.cur → t.hart ag = s.hart ag) ∧ t.cores = s.cores ∧ t.agenda = s.agenda
      ∧ (∀ n, d ≠ ⟨0#1, n⟩ → t.rv s.cur ⟨0#1, n⟩ = s.rv s.cur ⟨0#1, n⟩)
      ∧ (me t).g = (me s).g ∧ (me t).p = (me s).p ∧ (me t).cause = (me s).cause ∧ (me t).epc = (me s).epc
      ∧ ((∀ i, s.cur ≠ .slot i) ∨ d.q = 0#1 → t.mem = s.mem)
      ∧ ∀ i, s.cur = .slot i → ∀ x, (x < s.qAddr i 0 ∨ s.qAddr i (me s).qa.toNat ≤ x) → memRead t.mem x = memRead s.mem x)

/-- R258, R259, R366, R375, R377 to R381. The tensor instructions of a tile whose operands pass their checks and wait for nothing: a template
loaded, an amended template or a `tred` in the matrix-array queue, a gang on its way, a drain pending, and the row-mask words. -/
def Obligations.TensorInstructions : Prop :=
  ∀ (s : State) (t : TileId) (d a b : Reg), s.cur = .tile t → s.Canonical →
    (∀ idx (off : BitVec 15) o, TileServed s t ((((s.rg s.cur a).toNat : Int) + 32 * off.toInt) % 2 ^ 64).toNat 32 false o → s.tmMarked t o 32 = false →
      exec (.tload idx a off) s = tileDone s (withTile (s.useBanks t o 32) t (fun x =>
        { x with r := { x.r with tmpl := x.r.tmpl.put idx.toNat (BitVec.ofNat 256 (s.tmNat t o 32)) } })))
    ∧ (∀ idx (sel : BitVec 4) (val : BitVec 16) T, (sel = 0 → val = 0) → Amended ((s.tile t).tmplAt idx.toNat) T sel.toNat val.toNat →
      s.tmplFault t T = none → (s.tile t).engineBusy (footTmpl T 0 (tN T)) = none → s.queueFull t = false →
      exec (.tx idx sel val) s = tileDone s (s.enqueue t (.tmpl T none)))
    ∧ (∀ idx (sel : BitVec 4) T k x, bitsAt (s.rg s.cur a) 24 40 = 0 → (sel = 0 → bitsAt (s.rg s.cur a) 0 16 = 0) →
      bitsAt (s.rg s.cur a) (16 + t.val % 64 / 8) 1 = 1 → Amended ((s.tile t).tmplAt idx.toNat) T sel.toNat (bitsAt (s.rg s.cur a) 0 16) →
      s.tmplFault t T = none → InDomain s t k x → (∀ u ∈ gangOf t (bitsAt (s.rg s.cur a) 16 8), x.member u.val = true ∧ s.queueFull u = false) →
      (∀ p ∈ (gangOf t (bitsAt (s.rg s.cur a) 16 8)).zipIdx, let c := colsOf T (some (p.2, (gangOf t (bitsAt (s.rg s.cur a) 16 8)).length))
        (s.tile p.1).engineBusy (footTmpl T c.1 c.2) = none) →
      exec (.tgang idx sel a) s = tileDone s ((s.issueGang t (gangOf t (bitsAt (s.rg s.cur a) 16 8)) T).after 4
        (.gangQueueEntry t (bitsAt (s.rg s.cur a) 16 8) T)))
    ∧ (∀ c off nl, nl = bitsAt (s.rg s.cur b) 8 12 → nl ≠ 0 → bitsAt (s.rg s.cur b) 31 19 = 0 → bitsAt (s.rg s.cur b) 0 8 = 0 →
      bitsAt (s.rg s.cur b) 20 11 + nl ≤ 2048 → (s.rg s.cur a).toNat % 256 = 0 →
      s.drainAim t (s.rg s.cur a).toNat (256 * nl) (16 * bitsAt (s.rg s.cur b) 50 14) = .ok (c, off) →
      ((s.tile t).drains.map (fun z => z.nl)).sum + nl ≤ 1024 → clmapChg (s.clmapAt (c.val / 8)) = false →
      exec (.tdrain a b) s = tileDone s (withTile s t (fun x => { x with
        drains := x.drains ++ [{ core := c, off := off, acc := bitsAt (s.rg s.cur b) 20 11, nl := nl, swo := 16 * bitsAt (s.rg s.cur b) 50 14, seq := x.seq, got := [], put := 0 }]
        seq := x.seq + 1 })))
    ∧ (∀ w, DescriptorRead s t (s.rg s.cur a).toNat w → tredOk w = true → tredMisaligned w (tileOperand (s.rg s.cur b).toNat) = none →
      s.footFault t (footRed w (tileOperand (s.rg s.cur b).toNat)) = none → (s.tile t).engineBusy (footRed w (tileOperand (s.rg s.cur b).toNat)) = none →
      s.queueFull t = false →
      exec (.tred a b) s = tileDone s ((s.useBanks t (tileOperand (s.rg s.cur a).toNat) 32).enqueue t (.red w (tileOperand (s.rg s.cur b).toNat))))
    ∧ (∀ off old, tileOperand (s.rg s.cur a).toNat = off → off % 8 = 0 → old = BitVec.ofNat 64 (s.tmNat t off 8) →
      (OwnRange s t off 8 false → exec (.prowGet d a) s = .next (writes (s.useBanks t off 8) d old))
      ∧ (OwnRange s t off 8 true →
        (∃ u, exec (.prowSet a b) s = .next u ∧ Stored s u (tileBase t + off) (bytesOfNat 8 (old ||| s.rg s.cur b).toNat)
          ∧ me u = { (me s).advance with nst := (me s).nst ||| (if old ||| s.rg s.cur b = old then 0 else 1) })
        ∧ ∃ u, exec (.prowClr a b) s = .next u ∧ Stored s u (tileBase t + off) (bytesOfNat 8 (old &&& ~~~ (s.rg s.cur b)).toNat) ∧ me u = (me s).advance))
    ∧ (∀ k, ((s.enqueue t k).tile t).queue.map (fun o => o.kind) = (s.tile t).queue.map (fun o => o.kind) ++ [k])
    ∧ ∀ gang T, let gr := some (gang.idxOf t, gang.length)
        ((s.issueGang t gang T).tile t).gangs.map (fun o => o.kind) = (s.tile t).gangs.map (fun o => o.kind)
          ++ (if (colsOf T gr).1 = (colsOf T gr).2 ∧ tOPC T ≤ 2 then [] else [.tmpl T gr])

/-- R156, R382 to R388. The timed transfers of a tile whose operands pass their checks: the landings or the write lines that each adds, in
increasing line order; the timed slots are slots of the pattern, 32 ck or more ahead, that no pending line has; a gather ends with its
progress register. Its indices come at once where no two lines of them share a bank (R65). -/
def Obligations.TimedTransfers : Prop :=
  ∀ (s : State) (t : TileId) (a b : Reg) (va nl off : Nat), s.cur = .tile t → va = (s.rg s.cur a).toNat →
    (∀ write, MoveOperand s t va (s.rg s.cur b) write nl off →
      (nl = 0 → exec (.tfetch a b) s = .next (s.done s.cur) ∧ (write = false → exec (.tstream a b) s = .next (s.done s.cur)))
      ∧ (∀ ls, nl ≠ 0 →
        (scratchOff va = none ∧ s.timedLines t (if write then .write else .read) va nl 0 = .ok ls s
          ∨ ∃ o, scratchOff va = some o ∧ write = false ∧ s.scratchLines va o nl = .ok ls) →
        s.fetchFault t write va ls = none → (s.tile t).pendingOf .fetch + nl ≤ 4096 → ∃ u, exec (.tfetch a b) s = .next u
          ∧ me u = (me s).advance ∧ u.mem = s.mem
          ∧ (u.tile t).lands.map landKey = (s.tile t).lands.map landKey ++ (if write then [] else landsOf .fetch off ls)
          ∧ (u.tile t).writes.map (fun w => (w.off, w.pa, w.gone)) = (s.tile t).writes.map (fun w => (w.off, w.pa, w.gone))
              ++ (if write then ls.zipIdx.map (fun p => (off + 256 * p.2, p.1.pa, false)) else []))
      ∧ (∀ ls, nl ≠ 0 → write = false → s.timedLines t .read va nl 0 = .ok ls s → (∀ l ∈ ls, Streamable s l) → s.ownsPattern t = true →
        (s.tile t).pendingOf .stream + nl ≤ 4096 → ∃ u, exec (.tstream a b) s = .next u ∧ me u = (me s).advance ∧ u.mem = s.mem
          ∧ (u.tile t).lands.map landKey = (s.tile t).lands.map landKey ++ landsOf .stream off ls
          ∧ ∀ l ∈ (u.tile t).lands.drop (s.tile t).lands.length, ∀ c, l.slotCk = some c →
              c % 16 = 0 ∧ s.ck + 32 ≤ c ∧ s.slotTimed (c / 16) = true ∧ c ∉ s.slotsTaken (pchOf l.pa)))
    ∧ (∀ n bl ioff j (l : Nat → TLine), bl = bitsAt (s.rg s.cur b) 60 4 → n = bitsAt (s.rg s.cur b) 44 16 → ioff = 4 * bitsAt (s.rg s.cur b) 23 21 →
      off = bitsAt (s.rg s.cur b) 0 23 → bl ≤ 8 → va % 2 ^ (bl + 8) = 0 → off % 256 = 0 → j = (s.tile t).gatherStart n →
      (n ≠ 0 → ioff + 4 * n ≤ s.tileSize t.val ∧ off + n * 2 ^ (bl + 8) ≤ s.tileSize t.val ∧ (s.tile t).tclen ≤ off ∧ s.ownsPattern t = true) →
      (ioff + 4 * n ≤ off ∨ off + n * 2 ^ (bl + 8) ≤ ioff / 256 * 256) → (s.tile t).pendingOf .stream + (n - j) * 2 ^ bl ≤ 4096 →
      (∀ k m, j ≤ k → k < n → j ≤ m → m < n → bankOf (ioff + 4 * k) = bankOf (ioff + 4 * m) → (ioff + 4 * k) / 256 = (ioff + 4 * m) / 256) →
      (∀ k, j ≤ k → k < n → (s.tile t).busy (ioff + 4 * k) 4 false = none ∧ s.tmMarked t (ioff + 4 * k) 4 = false
        ∧ s.timedLine t .read (va + s.tmNat t (ioff + 4 * k) 4 * 2 ^ (bl + 8)) = .ok (l k) s ∧ Streamable s (l k)) →
      ∃ u, exec (.tgather a b) s = .next u ∧ me u = (me s).advance ∧ u.mem = s.mem ∧ (u.tile t).r.gprog = gprogWord false n n
        ∧ (u.tile t).lands.map landKey = (s.tile t).lands.map landKey ++ (List.range (n - j)).flatMap (fun k =>
            (List.range (2 ^ bl)).map (fun m => (LandKind.stream, (l (j + k)).pa + 256 * m, off + (j + k) * 2 ^ (bl + 8) + 256 * m))))

/-- R389 to R401, R446. The exchange instructions of a tile in a domain: arrivals, votes, the domain state, the tap, the spans of sends and
receives, contributions to collectives, armed issue and window records.
Late arming and the held ck of selector 5 are the model's readings (log 78, log 86). -/
def Obligations.ExchangeInstructions : Prop :=
  ∀ (s : State) (t : TileId) (k : Nat) (x : Domain) (d a b : Reg), s.cur = .tile t → InDomain s t k x →
    (s.enginesDone t = true → ∃ u, exec .xsync s = .next u ∧ (u.tile t).wait = .barrier k x.step ∧ u.mem = s.mem
      ∧ (x.xpkg = true → (u.tile t).arrive = some (s.tile t).so) ∧ (x.xpkg = false → u.domains = s.domains.put k { x with arrived := insertNat t.val x.arrived }))
    ∧ (bitsAt (s.rg s.cur a) 4 60 = 0 → exec (.xvote d a) s = .next (writes (withTile s t (fun y =>
        { y with r := { y.r with voted := true, vote := BitVec.ofNat 4 (s.rg s.cur a).toNat } })) d (BitVec.ofNat 64 x.pattern)))
    ∧ (∀ sel, sel = bitsAt (s.rg s.cur a) 0 4 → sel ≤ 6 → bitsAt (s.rg s.cur a) 5 59 = 0 → (bitsAt (s.rg s.cur a) 4 1 = 1 → sel = 6) →
      exec (.xdom d a) s = .next (writes (if bitsAt (s.rg s.cur a) 4 1 = 1 then withTile s t (fun y => { y with thr := false, r := { y.r with late := false } }) else s)
        d (BitVec.ofNat 64 ([k + bitNat x.pent 8 + bitNat x.strict 9 + bitNat x.xpkg 10, x.step, (s.tile t).so, x.pattern, s.exchangeEnd x, x.heldCk,
          bitNat (s.tile t).r.late 0 + bitNat (s.tile t).r.voted 1 + bitNat (s.tile t).thr 2 + (s.tile t).r.vote.toNat * 16].getD sel 0))))
    ∧ (bitsAt (s.rg s.cur a) 8 56 = 0 → ∀ tap, tap = (if bitsAt (s.rg s.cur a) 7 1 = 1 then none else some (bitsAt (s.rg s.cur a) 0 7)) →
      (∀ l, tap = some l → x.member l = true) → exec (.xmux a) s = tileDone s (withTile s t (fun y =>
        if x.xpkg then { y with taps := y.taps ++ [(y.so, tap)] } else { y with r := { y.r with tap := tap } })))
    ∧ (∀ n off, n = (s.rg s.cur b).toNat → off = tileOperand (s.rg s.cur a).toNat → 1 ≤ n → n ≤ 65536 → off % 64 = 0 → off + 64 * n ≤ s.tileSize t.val →
      (∀ f, f = max ((s.tile t).so + 1) (spansEnd (s.tile t).sends) → s.maySend t x f n = true → (s.tile t).sendBusy off (64 * n) = none →
        exec (.xsend a b) s = tileDone s (let u := withTile s t (fun y =>
          { y with sends := y.sends ++ [{ seq := y.seq, start := f, words := n, off := off, fin := 0 }], seq := y.seq + 1 })
          if f = (s.tile t).so + 1 then u.post (.xsendWord t) else u))
      ∧ ((s.tile t).tclen ≤ off → exec (.xrecv a b) s = tileDone s (withTile s t (fun y =>
          { y with recvs := y.recvs ++ [{ seq := y.seq, start := max (y.so + 1) (spansEnd y.recvs), words := n, off := off, fin := 0 }], seq := y.seq + 1 }))))
    ∧ (∀ w, bitsAt (s.rg s.cur b) 16 48 = 0 → DescriptorRead s t (s.rg s.cur a).toNat w → xredOk w = true → xredMisaligned w = none →
      s.footFault t (xredFoot w) = none → (s.tile t).engineBusy (xredFoot w) = none →
      (∀ r ∈ (xredFoot w).rd, r.2 ≠ 0 → (s.tile t).sendBusy r.1 r.2 = none) →
      (∀ o ∈ [xrSMSK w, xrDMSK w], o = 0 ∨ s.tmMarked t o (8 * cdiv (xrROWS w) 64) = false) → ∃ (u : State) (v : Xred), exec (.xred a b) s = .next u
        ∧ (u.tile t).xreds = (s.tile t).xreds ++ [v] ∧ v.desc = w ∧ v.tag = BitVec.ofNat 16 (s.rg s.cur b).toNat ∧ v.fin = false
        ∧ v.src = s.tm t (xrSRC w) (xrROWS w * xrRLEN w) ∧ v.smsk = (List.range (xrROWS w)).map (fun r => s.maskBit t (xrSMSK w) r)
        ∧ u.mem = s.mem ∧ me u = (me s).advance)
    ∧ (bitsAt (s.rg s.cur b) 1 63 = 0 → ∀ phase late, phase = (s.rg s.cur b).getLsbD 0 →
      late = decide ((s.rg s.cur a).toNat < (if phase then (s.tile t).so else s.time)) → (late = true → x.strict = false) →
      exec (.xarmAt a b) s = tileDone s (withTile s t (fun y =>
        { y with armed := some (phase, (s.rg s.cur a).toNat), r := { y.r with late := y.r.late || late } })))
    ∧ (∀ w, bitsAt (s.rg s.cur a) 3 5 = 0 → bitsAt (s.rg s.cur a) 16 48 = 0 → s.windowOf (s.tile t).lid (bitsAt (s.rg s.cur a) 8 8) = some (k, x, w) →
      (∀ r n, w.delivered = some (r, n) → (w.opensIn x.step = true → n = x.step) →
        exec (.wtake d a) s = .next (writes s d (r.toList.getD (bitsAt (s.rg s.cur a) 0 3) 0)))
      ∧ (w.delivered = none → w.opensIn x.step = false → exec (.wtake d a) s = .next (writes s d
          (if bitsAt (s.rg s.cur a) 0 3 = 0 then postWord w.defpost[0] 0xFFFF true else w.defpost.toList.getD (bitsAt (s.rg s.cur a) 0 3) 0))))

/-- R69, R70, R99, R384, R385, R393 to R395, R400, R495. The events of a tile's timed engines: an armed instruction at its time or late; a
landing written when its bank is free, or held a ck; a timed slot that reads its lines, to arrive 512 ck later; the ring slots that
carry lines; a timed write that becomes tentative; a word that leaves, and one that is received.
Which landing of one bank comes first is free (log 62); a late arming, and a timed write that counts as accepted at its arrival, 16 ck for a
bridge, are the model's readings (log 78, log 106). -/
def Obligations.TimedEvents : Prop :=
  ∀ (s : State) (t : TileId), s.Canonical →
    (∀ phase T, s.event = some (.armedIssue t) → (s.tile t).armed = some (phase, T) → (phase = true ∨ s.skew = false) →
      (s.armClock t phase ≤ T → exec .armedIssue s = .next (withTile s t (fun x => { x with armed := none })))
      ∧ (T < s.armClock t phase → exec .armedIssue s = .next (if s.strictAt t then
          (withTile s t (fun x => { x with armed := none })).tileFault t { cause := 0x10 } (s.tile t).h.pc
        else withTile s t (fun x => { x with armed := none, r := { x.r with late := true } }))))
    ∧ (∀ k l v m4, (s.tile t).lands.find? (fun z => z.id == k) = some l → l.held = some (v, m4) →
      ∀ p ∈ [(Instr.landingBufferWrite, Event.landingBufferWrite t k), (.tstreamLineArrival, .tstreamLineArrival t k)], s.event = some p.2 →
        (((s.tile t).banks.contains (bankOf l.off) = true ∨ InStore l) → exec p.1 s = .next ((withTile s t (fun x => { x with
          lands := x.lands.map (fun m => if m.id = k then { m with since := some (m.since.getD s.ck)
                                                                   buf := m.buf || (m.since.isNone && decide (inBuffer s t (bankOf l.off) < 8)) } else m) })).after 1 (l.event t)))
        ∧ ((s.tile t).banks.contains (bankOf l.off) = false → ¬ InStore l → ∃ u, exec p.1 s = .next u ∧ Stored s u (tileBase t + l.off) (bytesOfNat 256 v.toNat)
          ∧ bankOf l.off ∈ (u.tile t).banks ∧ (u.tile t).r = (s.tile t).r
          ∧ ((l.buf = false ∨ ∀ z ∈ (s.tile t).lands, InStore z → z.id ≠ k → bankOf z.off ≠ bankOf l.off) → (u.tile t).lands = (s.tile t).lands.filter (fun z => z.id != k))
          ∧ (l.buf = true → ∀ o, o ∈ (s.tile t).lands → InStore o → o.id ≠ k → bankOf o.off = bankOf l.off →
              (∀ z ∈ (s.tile t).lands, InStore z → z.id ≠ k → bankOf z.off = bankOf l.off → z ≠ o → o.since.getD 0 < z.since.getD 0) →
              (u.tile t).lands = ((s.tile t).lands.filter (fun z => z.id != k)).map (fun z => if z.id = o.id then { z with buf := true } else z))))
    ∧ (∀ pch, s.event = some (.hbmTimedSlot pch) → (∀ u : TileId, ((s.tile u).lands.map (fun l => l.id)).Nodup) → ∃ u : State, exec .hbmTimedSlot s = .next u
      ∧ u.mem = s.mem ∧ ∀ v : TileId, ∀ l ∈ (s.tile v).lands, SlotLine s pch l →
          { l with held := some (BitVec.ofNat 2048 (memNat s.mem l.pa 256), s.lineMarks l.pa) } ∈ (u.tile v).lands
          ∧ (s.ck + 512, Event.tstreamLineArrival v l.id) ∈ u.timers)
    ∧ (∀ die e, s.event = some (.ringSlotDeparture die e) →
      (∀ v : TileId, seOP e = 1 → v.val = stationTile die (seDST e) % 128 → s.slotReads v (seSRC e) ≠ [] → ∃ u, exec .ringSlotDeparture s = .next u
        ∧ (s.ck + seDist e, Event.ringSlotArrival v ((s.slotReads v (seSRC e)).map (fun l => l.id))) ∈ (if seDist e = 0 then u.agenda.map (fun x => (s.ck, x)) else u.timers)
        ∧ (∀ l ∈ s.slotReads v (seSRC e), { l with slotCk := some s.ck, held := some (s.ringData v l.pa) } ∈ (u.tile v).lands) ∧ u.mem = s.mem)
      ∧ (∀ v : TileId, seOP e ≠ 1 → v.val = stationTile die (seSRC e) % 128 → ∃ u, exec .ringSlotDeparture s = .next u ∧ u.mem = s.mem
        ∧ (u.tile v).writes = (s.tile v).writes.map (fun w => if w ∈ s.slotWrites v (seDST e) then { w with gone := true } else w)
        ∧ ∀ w ∈ s.slotWrites v (seDST e), ∀ k, k = seDist e + (if sliceOf w.pa / 32 = die then 0 else 16) →
            (s.ck + k, Event.timedWriteAccept v w.pa (BitVec.ofNat 2048 (s.tmNat v w.off 256)) (s.lineMarks (tileBase v + w.off)))
              ∈ (if k = 0 then u.agenda.map (fun x => (s.ck, x)) else u.timers)))
    ∧ (∀ ks, s.event = some (.ringSlotArrival t ks) → ∃ u, exec .ringSlotArrival s = .next u ∧ u.mem = s.mem
      ∧ ∀ k ∈ ks, ∀ l, (s.tile t).lands.find? (fun z => z.id == k) = some l → (s.ck + 2, Event.landingBufferWrite t k) ∈ u.timers
          ∧ { l with pinned := false } ∈ (u.tile t).lands)
    ∧ (∀ pa data mk w d x, s.event = some (.timedWriteAccept t pa data mk) → (s.tile t).writes.find? (fun z => z.gone && z.pa == pa) = some w →
      InDomain s t d x → (s.tentFull (pa / 256) (64 * (pa / 256) + d) = false → ∃ u, exec .timedWriteAccept s = .next u ∧ u.mem = s.mem
        ∧ u.tent.find (64 * (pa / 256) + d) = some { dom := d, bytes := bytesOfNat 256 data.toNat, marks := mk, page := w.page }
        ∧ (u.tile t).writes = (s.tile t).writes.erase w)
      ∧ (s.tentFull (pa / 256) (64 * (pa / 256) + d) = true → ∃ u, exec .timedWriteAccept s = .next u ∧ u.tent = s.tent
        ∧ Event.tileFaultHandling t { cause := 0x14, asy := true } ∈ u.agenda))
    ∧ (∀ v, s.event = some (.xsendWord t) → (s.tile t).sending = some v → exec .xsendWord s = .next (withTile s t (fun x =>
        { x with lane := x.lane.put (64 + v.start + v.fin) (BitVec.ofNat 512 (s.tmNat t (v.off + 64 * v.fin) 64), s.tmMarked t (v.off + 64 * v.fin) 64)
                 sends := x.sends.map (fun z => if z = v then { z with fin := z.fin + 1 } else z) })))
    ∧ (∀ d x v, s.event = some (.exchangeReceive t) → InDomain s t d x → (s.tile t).receiving x.off = some v → ∃ u, exec .exchangeReceive s = .next u
      ∧ (u.tile t).recvs = (s.tile t).recvs.map (fun z => if z = v then { z with fin := z.fin + 1 } else z)
      ∧ (s.tapped t x.off = none → u.mem = s.mem)
      ∧ ∀ w bad, s.tapped t x.off = some (w, bad) → Stored s u (tileBase t + (v.off + 64 * v.fin)) (bytesOfNat 64 w.toNat))

/-- R48, R69, R125, R367 to R370, R375, R376, R378 to R380. A gang operation enters the queue of every member that has columns; the operation that
completes takes its effect and leaves the queue: an INT8 product of the operand lines as the operation read them leaves the sums modulo
2^32, a zeroing leaves zeros, a `tred` leaves what its reducer adds, each in the order of its sources, where no row is poisoned, and all
leave memory as it is; one whose lines an earlier drain has still to read completes a ck later. A line of a drain that has been read is
written to its palette, and comes again where the cluster is in change, a commit has claimed it or its bank is lost; after the last line
of the drain its sync word is updated, and the drain has ended. That the lines of a drain come one by one is the model's reading (log 19). -/
def Obligations.MatrixEvents : Prop :=
  ∀ (s : State) (t : TileId), s.Canonical →
    (∀ mask T, s.event = some (.gangQueueEntry t mask T) → (∀ gr, (t, gr.1) ∈ (gangOf t mask).zipIdx → gr.2 = (gangOf t mask).length →
        ((colsOf T (some gr)).1 ≠ (colsOf T (some gr)).2 ∨ 2 < tOPC T) → ((s.tile t).gangs.head?).map (fun o => o.kind) = some (.tmpl T (some gr))) →
      ∃ u : State, exec .gangQueueEntry s = .next u ∧ u.mem = s.mem
      ∧ ∀ p ∈ (gangOf t mask).zipIdx, let gr := some (p.2, (gangOf t mask).length)
          (u.tile p.1).queue.map (fun o => o.kind) = (s.tile p.1).queue.map (fun o => o.kind)
            ++ (if (colsOf T gr).1 = (colsOf T gr).2 ∧ tOPC T ≤ 2 then [] else [.tmpl T gr]))
    ∧ (∀ o rest, s.event = some (.matrixOpComplete t) → (s.tile t).queue = o :: rest → o.left = some s.ck →
      ((∃ d ∈ (s.tile t).drains, d.seq < o.seq ∧ ∃ l, d.acc + d.got.length ≤ l ∧ l < d.acc + d.nl ∧ o.kind.foot.accWr.1 ≤ l ∧ l < o.kind.foot.accWr.1 + o.kind.foot.accWr.2) →
        exec .matrixOpComplete s = .next ((withTile s t (fun x => { x with queue := { o with left := some (s.ck + 1) } :: rest })).after 1 (.matrixOpComplete t)))
      ∧ ((s.tile t).drainBars o = false →
      (∀ w src, o.kind = .red w src → tredOk w = true → ∀ r, r = s.withOperands t o → Unmarked r t (footRed w src) →
        (∀ m < bitsAt w[0] 25 12 / (bitsAt w[0] 48 6 + 1), ¬ maskAtRow r t (bitsAt w[3] 32 32) m
          ∧ (bitsAt w[2] 32 32 ≠ 0 → ∀ j ≤ bitsAt w[0] 54 6, ¬ maskAtRow r t (bitsAt w[2] 32 32 + j * bitsAt w[2] 0 32) m)) →
        (bitsAt w[0] 63 1 = 0 → ∀ l < bitsAt w[0] 25 12, ∀ x < 64, (Fmt.fp32.decode (reduced r t w src l x)).isNan = false
          ∧ (Fmt.fp32.decode (reduced r t w src l x)).isInf = false) →
        ∃ u : State, exec .matrixOpComplete s = .next u ∧ u.mem = s.mem ∧ (u.tile t).queue.map (fun q => q.kind) = rest.map (fun q => q.kind)
          ∧ (∀ l < bitsAt w[0] 25 12, ∀ x < 64, elemAt ((u.tile t).accLine (bitsAt w[0] 37 11 + l)) 32 x = reduced r t w src l x)
          ∧ ∀ l, (l < bitsAt w[0] 37 11 ∨ bitsAt w[0] 37 11 + bitsAt w[0] 25 12 ≤ l) → (u.tile t).accLine l = (s.tile t).accLine l)
      ∧
      (∀ T, o.kind = .tmpl T none → tOPC T = 1 → tAF T = 6 → tBF T = 6 → tmplOk T = true →
        ∀ r, r = s.withOperands t o → Unmarked r t (footTmpl T 0 (tN T)) →
        (∀ m < tM T, ¬ maskAtRow r t (tMSKS T) m ∧ (tACC T = true → ¬ maskAtRow r t (tMSKD T) m)) → ∃ u : State, exec .matrixOpComplete s = .next u ∧ u.mem = s.mem
          ∧ (u.tile t).queue.map (fun q => q.kind) = rest.map (fun q => q.kind)
          ∧ (∀ m < tM T, ∀ n < tN T, (u.tile t).accAt (tACCL T) (cdiv (tN T) 64) m n = int8Sum r t T
              (if tACC T then (s.tile t).accAt (tACCL T) (cdiv (tN T) 64) m n else if tBIAS T then r.tmNat t (tDST T + 4 * n) 4 else 0) m n)
          ∧ ∀ l, (l < tACCL T ∨ tACCL T + tM T * cdiv (tN T) 64 ≤ l) → (u.tile t).accLine l = (s.tile t).accLine l)
      ∧ (∀ T, o.kind = .tmpl T none → tOPC T = 4 → ∃ u : State, exec .matrixOpComplete s = .next u ∧ u.mem = s.mem
          ∧ (u.tile t).queue.map (fun q => q.kind) = rest.map (fun q => q.kind)
          ∧ ∀ l, (u.tile t).accLine l = if tACCL T ≤ l ∧ l < tACCL T + tM T * cdiv (tN T) 64 then 0 else (s.tile t).accLine l)
      ∧ ∀ u v, v = (withTile (u.sinceOperands s t o) t (fun x => { x with queue := x.queue.drop 1 })).startOp t →
          ((s.withOperands t o).runOp t o.kind = .ok u → exec .matrixOpComplete s = .next v)
          ∧ ((s.withOperands t o).runOp t o.kind = .dataError u →
              exec .matrixOpComplete s = .next (v.tileFault t { cause := 0x13, imp := true } (v.tile t).h.pc))))
    ∧ (∀ d n k x line, s.event = some (.drainDelivery t n k) → (s.tile t).drains.find? (fun z => z.seq == n) = some d → d.got[k]? = some line →
      x = s.palette d.core + d.off + 256 * k →
      ((∃ j y, InDomain s t j y ∧ y.pent = true ∧ y.releasing = false) → exec .drainDelivery s = .next s)
      ∧ ((∀ j y, InDomain s t j y → y.pent = true → y.releasing = true) →
        (clmapChg (s.clmapAt (d.core.val / 8)) = true → exec .drainDelivery s = .next (s.after 1 (.drainDelivery t n k)))
        ∧ (clmapChg (s.clmapAt (d.core.val / 8)) = false → s.claimed x 256 = true → exec .drainDelivery s = .next (s.after 16 (.drainDelivery t n k)))
        ∧ (clmapChg (s.clmapAt (d.core.val / 8)) = false → s.claimed x 256 = false →
          ((∃ b ∈ palBanks x 256, s.bankServes (.event (.drainDelivery t n k)) b = false) → ∃ u, exec .drainDelivery s = .next u ∧ u.mem = s.mem
            ∧ u.tiles = s.tiles ∧ (s.ck + 1, Event.drainDelivery t n k) ∈ u.timers)
          ∧ ((∀ b ∈ palBanks x 256, s.bankServes (.event (.drainDelivery t n k)) b = true) → ∃ u, exec .drainDelivery s = .next u
            ∧ Stored s u x (bytesOfNat 256 line.1.toNat)
            ∧ (u.tile t).drains = (if d.put + 1 = d.nl then (s.tile t).drains.filter (fun z => z.seq != d.seq)
                else (s.tile t).drains.map (fun z => if z.seq = d.seq then { z with put := z.put + 1 } else z))
            ∧ (d.swo ≠ 0 → d.put + 1 = d.nl → Event.syncUpdate (s.palette d.core + d.swo) (256 * d.nl) 1 false none none ∈ u.agenda)))))

/-- R76, R230, R231, R239, R389 to R393, R422. The release of a barrier opens the next superstep at offset 0 with the vote's pattern, completes
every `xsync` and `bar.wait` for it, clears the votes, spans and arming of the members, and takes their checkpoints; a promotion puts every
tentative line of the domain into memory, and nothing else (but that a task which it aborts gives back a frame entered in the same ck). A drain that has not been delivered puts the release off.
That a `bar.wait` completes in the ck of the release is the model's reading (log 85). -/
def Obligations.BarrierEvents : Prop :=
  ∀ (s : State) (d : Nat) (x : Domain), s.Canonical →
    (s.event = some (.barrierRelease d) → s.domains.find d = some x → x.pent = true → (∃ t ∈ x.tiles, (s.tile t).drains ≠ []) →
      exec .barrierRelease s = .next (if x.xpkg then s.after 1 (.barrierRelease d) else s))
    ∧ (s.event = some (.barrierRelease d) → s.domains.find d = some x → (x.pent = true → ∀ t ∈ x.tiles, (s.tile t).drains = []) →
      ∃ (u : State) (y : Domain), exec .barrierRelease s = .next u ∧ u.mem = s.mem
      ∧ u.domains.find d = some y ∧ y.step = x.step + 1 ∧ y.off = 0 ∧ y.arrived = [] ∧ y.heldCk = 0 ∧ y.rollbacks = 0 ∧ y.unprot = false ∧ y.ent = x.ent
      ∧ y.coreArr = x.coreArr.drop 1 ∧ (∀ w ∈ y.windows, w.isOpen = false) ∧ (x.xpkg = false → y.pattern = s.localVote x)
      ∧ (∀ t ∈ x.tiles, (∀ b, (s.tile t).wait = .barrier d b → Released (u.tile t) { (s.tile t).r with h := (s.tile t).r.h.advance } ∧ (u.tile t).wait = .none)
          ∧ ((∀ e b, (s.tile t).wait ≠ .barrier e b) → Released (u.tile t) (s.tile t).r))
      ∧ ∀ i b, (s.slot i).wait = .barrier d b → b ≤ x.step → (u.slot i).wait = .none ∧ (u.slot i).h = (s.slot i).h.advance
          ∧ ((s.slot i).st = .waiting → (u.slot i).st = .running))
    ∧ (s.event = some (.promotion d) → ((s.tent.filter (fun p => p.2.dom == d)).map (fun p => p.1 / 64)).Nodup →
      (∀ p ∈ s.tent, p.2.bytes.length = 256) → ∃ u, exec .promotion s = .next u
        ∧ (∀ p ∈ s.tent, p.2.dom = d → (∀ j < 256, ¬ Undone s (p.1 / 64 * 256 + j) → memRead u.mem (p.1 / 64 * 256 + j) = p.2.bytes.getD j 0)
            ∧ ∃ l, u.lines.find (p.1 / 64) = some l ∧ l.st = .ready ∧ l.dirty = true)
        ∧ ∀ a, ¬ Undone s a → (∀ p ∈ s.tent, p.2.dom = d → p.1 / 64 ≠ a / 256) → memRead u.mem a = memRead s.mem a)

/-- R232 to R234, R331, R402, R423. A window opens with the post that it kept; the first post of an opening is accepted, a second refused, and one
outside an opening or after its delivery refused, and the `wpost` that waits for the answer completes with it; a close delivers the post, or
the default record, to every member and wakes the tiles that wait for it; a time-out stops every member.
That a delivery comes at the end of the ck of CLOSE, the window staying open to the end of that ck, is the model's reading (log 87). -/
def Obligations.WindowEvents : Prop :=
  ∀ (s : State) (d wid : Nat) (x : Domain) (w : Window), s.domains.find d = some x → x.windows.find? (fun v => v.wid == wid) = some w →
    (s.event = some (.windowOpen d wid) → ∃ u y, y = x.setWindow { w with
        isOpen := true, posted := if w.kept then w.posted else none, kept := false, stopped := none, wrote := [] }
      ∧ exec .windowOpen s = .next u ∧ (∃ z, u.domains.find d = some z ∧ z.windows = y.windows)
      ∧ ((∀ t ∈ x.tiles, ∀ j ∈ (s.tile t).journal, j.wid ≠ wid) → u = s.setDomain d y))
    ∧ (s.event = some (.windowClose d wid) → w.closing x = true → w.hold = true → w.posted = none → exec .windowClose s = .next s)
    ∧ (s.event = some (.windowClose d wid) → (w.closing x = true → w.hold = true → w.posted ≠ none) →
      ∃ (u : State) (y : Domain), exec .windowClose s = .next u ∧ u.mem = s.mem ∧ u.domains.find d = some y
        ∧ y.windows = (x.setWindow (if w.closing x = true then { w with delivered := recordOf x w, prior := priorOf x w }
            else { w with isOpen := false, stopped := none, wrote := [], delivered := recordOf x w, prior := priorOf x w })).windows
        ∧ (w.deliveredIn x.step = false → ∀ t, (s.tile t).wait = .window d wid → (u.tile t).wait = .none))
    ∧ (∀ i rd post, s.event = some (.windowPostArrival i rd d wid post) → ∃ u, exec .windowPostArrival s = .next u ∧ u.mem = s.mem
      ∧ u.domains = (if postAnswer x w = 0 then s.domains.put d (x.setWindow { w with posted := some post }) else s.domains)
      ∧ (∀ r, rd = some r → (s.slot i).wait = .post d wid →
          ((s.slot i).st = .waiting → Continues s u i r (BitVec.ofNat 64 (postAnswer x w)))
          ∧ ((s.slot i).st = .suspended → (u.slot i).st = .suspended ∧ (u.slot i).wait = .none
              ∧ (u.slot i).h = ((s.slot i).h.wg r (BitVec.ofNat 64 (postAnswer x w))).advance))
      ∧ ((rd = none ∨ (s.slot i).wait ≠ .post d wid) → u.slots = s.slots))
    ∧ (s.event = some (.windowTimeout d wid) → ∃ u, exec .windowTimeout s = .next u ∧ u.mem = s.mem ∧ ∀ t ∈ x.tiles, Stopped u t 0x0F
        ∧ Event.tileFaultHandling t { cause := 0x0F, asy := true } ∈ u.agenda)

/-- R200, R346, R397, R398, R427. A collective whose contributions agree completes at every member; an INT32 sum without poisoned rows leaves each
element's sum modulo 2^32 at every member's destination. Where they do not agree, every running member takes a barrier-domain fault, and
nothing is written; the loss of a member stops the others, and no collective of the domain completes after it. -/
def Obligations.CollectiveEvents : Prop :=
  ∀ (s : State) (d k : Nat) (x : Domain) (l : List Xred), s.Canonical → s.domains.find d = some x →
    (s.event = some (.collectiveComplete d k) → ¬ NoLoss s x → exec .collectiveComplete s = .next s)
    ∧ (s.event = some (.collectiveComplete d k) → NoLoss s x → x.colDone = k → s.contributions d x k = some l →
      (agree l = true → (∀ c ∈ x.colTiles, ∀ v, (s.tile (Fin.ofNat 128 c)).xreds[k]? = some v →
          s.tmMarked (Fin.ofNat 128 c) (xrDMSK v.desc) (8 * cdiv (xrROWS v.desc) 64) = false) → ∃ (u : State) (y : Domain), exec .collectiveComplete s = .next u ∧ u.domains.find d = some y ∧ y.colDone = k + 1
        ∧ ∀ t, t.val ∈ x.colTiles → ∃ v, (u.tile t).xreds[k]? = some v ∧ v.fin = true)
      ∧ (PlainSum x s l → ∃ u, exec .collectiveComplete s = .next u ∧ ∀ t, t.val ∈ x.colTiles → ∀ v, (s.tile t).xreds[k]? = some v →
          ∀ e, 4 * e < xrROWS v.desc * xrRLEN v.desc →
            (∀ j < 4, ¬ Undone s (tileBase t + xrDST v.desc + 4 * e + j)) →
            memNat u.mem (tileBase t + xrDST v.desc + 4 * e) 4 = (l.map (fun z => natOfBytes ((z.src.drop (4 * e)).take 4))).sum % 2 ^ 32)
      ∧ (agree l = false → ∃ u, exec .collectiveComplete s = .next u ∧ u.mem = s.mem ∧ ∀ t ∈ x.tiles, (s.tile t).running = true → Stopped u t 0x14))
    ∧ (s.event = some (.collectiveMemberLost d) → ∃ u, exec .collectiveMemberLost s = .next u ∧ u.mem = s.mem
      ∧ (∀ j, Event.collectiveComplete d j ∉ u.agenda ∧ ∀ p ∈ u.timers, p.2 ≠ .collectiveComplete d j)
      ∧ ∀ t ∈ x.tiles, (s.tile t).lid.isSome → Stopped u t 0x15)

/-- R67, R402, R411, R422 to R426. A tile fault that pentimento covers asks for a rollback, one that the host serves leaves the domain frozen,
and any other, or one that the host's queue takes no record of, ends the launch; so does one that asks for a rollback where pentimento is off, the
superstep is unprotected, or it has been repeated three times. A rollback restores every member's checkpoint and shadow lines, drops the tentative lines and the engines'
operations, and repeats the superstep from offset 0. -/
def Obligations.RecoveryEvents : Prop :=
  ∀ (s : State) (d : Nat) (x : Domain), s.Canonical → s.domains.find d = some x →
    (∀ t f lid l, s.event = some (.tileFaultHandling t f) → Answerable s t lid l → InDomain s t d x →
      (answerOf f = 0 → ∀ v, (s.faultRecord l.home lid t (s.tileWord t) = .ok true v → v.domainOf t.val = some (d, x) →
          exec .tileFaultHandling s = .next (v.setDomain d { x with frozen := true, service := true }))
        ∧ (∀ w, s.faultRecord l.home lid t (s.tileWord t) = .wait w v →
          exec .tileFaultHandling s = .next (v.after (v.delay w) (.tileFaultHandling t f))))
      ∧ (answerOf f = 1 → x.releasing = false → (∀ w ∈ x.windows, w.isOpen = false) → x.pent = true → x.unprot = false → x.rollbacks < 3 →
        (f.cause = 0x11 → s.skew = false) → exec .tileFaultHandling s = .next (s.post (.rollback d)))
      ∧ (answerOf f = 1 → x.releasing = true → exec .tileFaultHandling s = .next (s.after 1 (.tileFaultHandling t f)))
      ∧ (answerOf f = 1 → x.releasing = false → (∀ w ∈ x.windows, w.isOpen = false) → x.pent = true → x.unprot = false → f.cause = 0x11 → s.skew = true →
        exec .tileFaultHandling s = .next s)
      ∧ (answerOf f = 2 ∨ answerOf f = 0 ∧ (∃ v, s.faultRecord l.home lid t (s.tileWord t) = .ok false v)
          ∨ answerOf f = 1 ∧ x.releasing = false ∧ (x.pent = false ∨ x.unprot = true ∨ 3 ≤ x.rollbacks ∧ (f.cause = 0x11 → s.skew = false)) →
        Ends s (exec .tileFaultHandling s) lid t f))
    ∧ (s.event = some (.rollback d) → x.releasing = false → s.stoppedBy x 0x15 = none → s.stoppedBy x 0x16 = none → ShadowsSound s x →
      ∃ u : State, exec .rollback s = .next u ∧ u.domains.find d = some (repeatedDomain s x) ∧ (∀ p ∈ u.tent, p.2.dom ≠ d)
        ∧ (∀ t ∈ x.tiles, (∀ c, (s.tile t).checkpoint = some c → (u.tile t).r = { c with h := { c.h with cause := (s.tile t).r.h.cause, epc := (s.tile t).r.h.epc } })
            ∧ (u.tile t).wait = .none ∧ (u.tile t).queue = [] ∧ (u.tile t).gangs = [] ∧ (u.tile t).drains = [] ∧ (u.tile t).lands = [] ∧ (u.tile t).writes = []
            ∧ (u.tile t).sends = [] ∧ (u.tile t).recvs = [] ∧ (u.tile t).xreds = [] ∧ (u.tile t).shadow = []
            ∧ (∀ z ∈ (s.tile t).shadow, z.acc = false → ∀ j < 256, ¬ Undone s (tileBase t + 256 * z.line + j) → memRead u.mem (tileBase t + 256 * z.line + j) = BitVec.ofNat 8 (z.bytes.toNat / 2 ^ (8 * j)))
            ∧ ∀ z ∈ (s.tile t).shadow, z.acc = true → (((s.tile t).shadow.filter (fun y => y.acc)).map (fun y => y.line)).Nodup →
                (u.tile t).accLine z.line = z.bytes)
        ∧ ∀ a, ¬ Undone s a → (∀ t ∈ x.tiles, ∀ z ∈ (s.tile t).shadow, z.acc = false → tileBase t + 256 * z.line ≠ a / 256 * 256) → memRead u.mem a = memRead s.mem a)

/-- R48, R141 to R146, R419. The events of a copy: a piece whose source line is served carries that line's bytes to their destinations, in some
order, once every destination has been translated; a run whose destination is served is written, and after the last one the update of the
piece is on its way; an acknowledgment closes its piece, and the last one completes the copy; at completion STAT is written into the block,
and the one arrival sent, or it comes again while the cluster is in change or a commit has claimed the line; the copy unit drops the copy when
the arrival is acknowledged.
The order of pieces and of colliding bytes is free (log 10). -/
def Obligations.CopyEvents : Prop :=
  ∀ (s : State) (id : Nat) (c : Copy), s.Canonical → s.copies.find id = some c →
    (∀ p x, s.pieces.find p = some x → x.copy = id → x.arrived = true →
      (s.event = some (.copyPiece p) →
        (∀ lo hi, x.todo = none → lo = (x.runs.map (fun r => r.1)).foldl min 255 → hi = (x.runs.map (fun r => r.1 + r.2.2)).foldl max 0 →
          UnitServes s { s with rerouting := false } (.copyPiece p) (s.agentPlace x.line) (x.line + lo) x.page (hi - lo) false →
          ∃ (u : State) (data : List (Nat × List Byte)) (mk : List (Nat × Nat)), u.mem = s.mem
            ∧ data.Perm (x.runs.map (fun r => (r.2.1, memBytes s.mem (x.line + r.1) r.2.2))) ∧ ((∀ r ∈ x.runs, s.marked (x.line + r.1) r.2.2 = false) → mk = [])
            ∧ exec .copyPiece s = u.aimPiece p { x with marks := mk, page := none } c (data.flatMap (fun d => splitRun (if c.kind = .scatter then c.elem else 64) d.1 d.2)))
        ∧ ∀ l u, x.todo = some l → x.aimed = false →
          (∀ r rest, (s.setPiece p x).aimRuns c (x.agent / 32) l = .ok (r :: rest) u → ∃ t, exec .copyPiece s = .next t ∧ t.mem = u.mem
            ∧ t.pieces.find p = some { x with todo := some (r :: rest), aimed := true } ∧ MessageSent u t (sliceRouter x.agent) (u.runRouter r) ((r.bytes.length - 1) / 64) (.piecePush p))
          ∧ (∀ code cause synd, (s.setPiece p x).aimRuns c (x.agent / 32) l = .fault code cause synd → c.stop = none → ∃ t c', exec .copyPiece s = .next t
            ∧ t.mem = s.mem ∧ t.copies.find id = some c' ∧ c'.stop = some ⟨code, cause, synd, 1, x.first⟩))
      ∧ ∀ r rest, s.event = some (.piecePush p) → c.held = false → x.todo = some (r :: rest) → r.bytes ≠ [] →
        UnitServes s (s.underway (.piecePush p)) (.piecePush p) (s.agentPlace (runPlace s r)) (runPlace s r) r.page r.bytes.length true →
        WindowsTake s x rest →
        ∃ u, exec .piecePush s = .next u ∧ Stored s u (runPlace s r) r.bytes
          ∧ (∀ q more, rest = q :: more → u.pieces.find p = some { x with todo := some rest, begun := true }
              ∧ ∀ n, n = max 1 ((q.bytes.length - 1) / 64 + 1 + s.meshTime (sliceRouter x.agent) (s.runRouter q) - s.meshTime (sliceRouter x.agent) (s.runRouter r)) →
                (s.ck + n, Event.piecePush p) ∈ u.timers)
          ∧ (rest = [] → PieceUpdate s u c x))
    ∧ (∀ k, s.event = some (.updateAcknowledgment id k) →
      (c.done = true → exec .updateAcknowledgment s = .next { s with copies := s.copies.del id })
      ∧ (c.done = false → ∀ d, d = (if c.kind = .remote then { c with upd := c.upd.erase k } else { c with opn := c.opn.erase k }) →
          ∃ u c', exec .updateAcknowledgment s = .next u ∧ u.mem = s.mem ∧ u.copies.find id = some c' ∧ { c' with closing := c.closing } = d
            ∧ (Finished d → c'.closing = true ∧ Event.copyCompletion id ∈ u.agenda)))
    ∧ (∀ pa, s.event = some (.copyCompletion id) → pa = s.palette (coreOf c.slot) + c.block + 56 →
      (s.changing pa = true → exec .copyCompletion s = .next (s.after 1 (.copyCompletion id)))
      ∧ (s.changing pa = false → s.claimed pa 8 = true → exec .copyCompletion s = .next (s.after 16 (.copyCompletion id)))
      ∧ (s.changing pa = false → s.claimed pa 8 = false → (∀ b ∈ palBanks pa 8, s.bankServes (.event (.copyCompletion id)) b = true) →
        ∃ u, exec .copyCompletion s = .next u ∧ Stored s u pa (bytesOfNat 8 (statOf c)) ∧ (NoSpeculation s → c.sync = none → u.copies = s.copies.del id)
          ∧ ∀ j off, c.sync = some (j, off) → u.copies.find id = some { c with done := true } ∧ MessageSent s u (s.coreRouter (coreOf c.slot)) (s.coreRouter (coreNo j)) 0
              (.syncUpdate (s.palette (coreNo j) + off) 0 1 (decide (codeOf c ≠ 1)) (interruptOf c) (some (.copy id c.total)))))

/-- R147, R450, R451, R453, R489. The events of remote copies: a packet that is formed is kept until it is acknowledged; a packet is accepted once, its
bytes written and its updates sent; an acknowledgment closes its packet; without progress the packets are sent again, at most 16 times, and
then every copy of the PDC is lost with code 0x08.
What counts as a retransmission, and that giving up ends every copy of the PDC, are the model's readings (log 61), and that its packets are then numbered from 0 (log 58). -/
def Obligations.RemoteCopies : Prop :=
  ∀ (s : State) (id k : Nat) (c : Copy), s.Canonical →
    (s.event = some (.uetPacketTransmit id k) → s.copies.find id = some c → c.stop = none →
      (s.job.find c.rpkg = none → ∃ u c', exec .uetPacketTransmit s = .next u ∧ u.copies.find id = some c'
        ∧ c'.stop.map (fun x => (x.code, x.cause)) = some (0x08, 0x1C))
      ∧ (∀ r, s.job.find c.rpkg = some r → s.portOfCopy c r = none → ∃ u c', exec .uetPacketTransmit s = .next u ∧ u.copies.find id = some c'
        ∧ c'.stop.map (fun x => (x.code, x.cause)) = some (0x08, 0x1C))
      ∧ (∀ r p w d, s.job.find c.rpkg = some r → s.portOfCopy c r = some p → s.startPackets id c r p = (w, d) →
        w.mem = s.mem ∧ { d with port := c.port, pdc := c.pdc } = c ∧ (c.pdc ≠ none → c.kind = .remote → w = s ∧ d = c)
        ∧ (c.pdc = none → (s.pdcs.map (fun q => q.1)).Nodup → d.port = p ∧ ∃ n y, d.pdc = some n ∧ w.pdcs.find n = some y ∧ y.rank = c.rpkg ∧ y.port = p ∧ y.rod = r.rod)
        ∧ ((s.uePort p).training = true ∨ w.behind id d = true → exec .uetPacketTransmit s = .next (w.after 1 (.uetPacketTransmit id k)))
        ∧ (∀ bytes m4 v n y, (s.uePort p).training = false → w.behind id d = false →
          w.formPacket (.uetPacketTransmit id k) d (lineRuns (c.src + k * r.mtu) (min r.mtu (c.total - k * r.mtu))) [] false = .ok bytes m4 v →
          d.pdc = some n → v.pdcs.find n = some y →
          ∃ u c', exec .uetPacketTransmit s = .next u ∧ u.mem = v.mem ∧ u.copies.find id = some c' ∧ c'.kept = c.kept ++ [(k, bytes)]
            ∧ c'.opn = c.opn ++ [k] ∧ c'.sent = min c.total ((k + 1) * r.mtu) ∧ c'.psn = (if k = 0 then y.next else c.psn)
            ∧ ∃ z, u.pdcs.find n = some z ∧ z.next = y.next + 1 ∧ z.pkts = y.pkts ++ [(y.next, id, k)])))
    ∧ (∀ p, s.event = some (.uetPacketReceive p) →
      (p.psn ∈ (s.rxOf p.src p.pdc).taken → ∃ u, exec .uetPacketReceive s = .next u ∧ u.mem = s.mem ∧ u.rx = s.rx)
      ∧ (∀ w rbar pa, Lands s w p rbar pa → ∃ u, exec .uetPacketReceive s = .next u ∧ Stored w u pa p.data ∧ p.psn ∈ (u.rxOf p.src p.pdc).taken
          ∧ ∀ j off, p.sync = some (j, off) → Event.syncUpdate (w.palette (coreNo j) + off) p.data.length 0 false p.ui none ∈ u.agenda
            ∧ ((((w.rxOf p.src p.pdc).copyOf p).map (fun z => z.count)).getD 0 + 1 = p.n →
                ∃ bad, Event.syncUpdate (w.palette (coreNo j) + off) 0 1 bad p.ui none ∈ u.agenda)))
    ∧ (∀ psn st x n j, s.event = some (.uetAck k psn st) → s.pdcs.find k = some x → x.pkts.find? (fun p => p.1 == psn) = some (n, id, j) →
      s.copies.find id = some c → ∃ u c', exec .uetAck s = .next u ∧ u.mem = s.mem ∧ u.copies.find id = some c' ∧ c'.opn = c.opn.erase j
        ∧ c'.kept = c.kept.filter (fun p => p.1 != j) ∧ (st ≠ none → c'.stop ≠ none)
        ∧ (st = none → c'.stop = c.stop ∧ (c.sync = none → c'.upd = c.upd)
          ∧ ∀ m off q, c.sync = some (m, off) → c.kept.find? (fun p => p.1 == j) = some q → c'.upd = c.upd ++ [j]
            ∧ MessageSent s u (s.coreRouter (coreOf c.slot)) (s.coreRouter (coreNo m)) 0
              (.syncUpdate (s.palette (coreNo m) + off) q.2.length 0 false (interruptOf c) (some (.copy id j)))))
    ∧ (∀ x, s.pdcs.find k = some x → x.pkts ≠ [] →
      (s.event = some (.uetReplayTimeout k) → (s.uePort x.port).training = false →
        (x.tries < 16 → ∃ u, exec .uetReplayTimeout s = .next u ∧ u.pdcs = s.pdcs.put k { x with tries := x.tries + 1, sentAt := s.ck }
          ∧ (s.ck + 160000, Event.uetReplayTimeout k) ∈ u.timers)
        ∧ (16 ≤ x.tries → exec .uetReplayTimeout s = .next (s.post (.uetGiveUp k))))
      ∧ (s.event = some (.uetGiveUp k) → (s.copies.map (fun q => q.1)).Nodup → ∃ (u : State) (y : Pdc), exec .uetGiveUp s = .next u ∧ u.mem = s.mem
        ∧ u.pdcs.find k = some y ∧ y.pkts = [] ∧ y.next = 0 ∧ ∀ q ∈ s.copies, q.2.kind = .remote → q.2.pdc = some k → (q.2.opn ≠ [] ∨ q.2.stop = none ∧ q.2.sent < q.2.total) →
            ∃ c', u.copies.find q.1 = some c' ∧ c'.opn = [] ∧ c'.kept = [] ∧ (q.2.held = false → q.2.upd = [] → c'.closing = true)
              ∧ (q.2.stop = none → c'.stop.map (fun z => (z.code, z.cause)) = some (0x08, 0x1C)) ∧ (q.2.stop ≠ none → c'.stop ≠ none)))

/-- R42, R226, R227, R455, R457 to R464, R466. The events of queues: a driver's write of a descriptor, which running firmware makes and the host asks for
at its offset in BAR0, a command processor's consumption after a notify, which the host asks for in BAR2, and what each packet does; a packet's
result record is written before its signal; a reading or a write that waits is tried again. -/
def Obligations.QueueEvents : Prop :=
  ∀ (s : State) (q k : Nat),
    (∀ j v, q < 2048 → j < 8 → s.barWrite 0 (0x100000 + 64 * q + 8 * j) v = s.post (.queueDescriptorWrite q j v)
        ∧ s.barRead 0 (0x100000 + 64 * q + 8 * j) = some ((s.queueAt q).w j)
        ∧ s.barWrite 2 (0x1000 * q) v = s.post (.notify q) ∧ s.barRead 2 (0x1000 * q) = some (BitVec.ofNat 64 (s.queueAt q).ridx))
    ∧ (∀ j v, s.event = some (.queueDescriptorWrite q j v) → s.boot.st ≠ .running → exec .queueDescriptorWrite s = .next s)
    ∧ (∀ j v, s.event = some (.queueDescriptorWrite q j v) → s.boot.st = .running → q < 2048 → ∃ u, exec .queueDescriptorWrite s = .next u ∧ u.mem = s.mem
      ∧ DriverWrites (s.queueAt q) (u.queueAt q) j v ∧ ∀ r, r ≠ q → u.queueAt r = s.queueAt r)
    ∧ (s.event = some (.notify q) → q < 2048 → ∀ slot, slot = (s.queueAt q).base + 64 * ((s.queueAt q).ridx % (s.queueAt q).cap) →
      ((s.queueAt q).en = false → exec .notify s = .next s)
      ∧ ((s.queueAt q).en = true →
        (∀ f t, s.vread (s.queueAt q).ctx false slot 64 = .fault f t → ∃ u, exec .notify s = .next u ∧ u.mem = t.mem ∧ (u.queueAt q).en = false
          ∧ bitsAt ((u.queueAt q).w 0) 61 1 = 1 ∧ (u.queueAt q).packets = (t.queueAt q).packets)
        ∧ (∀ w t, s.vread (s.queueAt q).ctx false slot 64 = .wait w t → exec .notify s = .next (t.after (t.delay w) (.notify q)))
        ∧ ∀ b r t h, s.vread (s.queueAt q).ctx false slot 64 = .ok b r → h = (wordsOf b).getD 0 0 → h.getLsbD 63 = true →
          (h.getLsbD 62 = false ∨ (s.queueAt q).packets = []) → r.vwrite (s.queueAt q).ctx false slot (bytesOfNat 8 (h.toNat % 2 ^ 63)) = .ok () t →
          ∃ (v : State) (p : Packet), exec .notify s = .next (v.consumeAll q 65535) ∧ v.mem = t.mem ∧ (v.queueAt q).ridx = ((s.queueAt q).ridx + 1) % 2 ^ 32
            ∧ (v.queueAt q).packets = (s.queueAt q).packets ++ [p] ∧ p.idx = (s.queueAt q).count ∧ (v.queueAt q).count = (s.queueAt q).count + 1 ∧ p.fin = none ∧ p.started = false
            ∧ ∀ j < 8, p.w.toList.getD j 0 = (wordsOf b).getD j 0))
    ∧ ∀ p, s.packetAt q k = some p →
    (s.event = some (.fence q k) → (s.queueAt q).packets.head? = some p → ∃ u, exec .fence s = .next u ∧ PacketDone s u q k p 0 0 0 0)
    ∧ (s.event = some (.fence q k) → (∀ h, (s.queueAt q).packets.head? = some h → h.idx ≠ k) → ∃ u, exec .fence s = .next u ∧ u.queues = s.queues
        ∧ (s.ck + 1, Event.fence q k) ∈ u.timers)
    ∧ (s.event = some (.launch q k) →
        (∀ w t rcd, s.cpWords (s.queueAt q).ctx p.a0 16 = .ok w t → rcd = Vector.ofFn (fun j : Fin 16 => w.getD j.val 0) →
          (Acceptable t rcd (s.queueAt q).ctx → ∃ u, exec .launch s = .next u ∧ u.mem = t.mem ∧ Accepted t u rcd none (some (q, k)))
          ∧ (rcdBad rcd = true → t.packetAt q k = some p → ∃ u, exec .launch s = .next u ∧ u.launches = t.launches ∧ u.nextLid = t.nextLid
              ∧ PacketDone t u q k p 0x03 0 0 0))
        ∧ (∀ f t, s.cpWords (s.queueAt q).ctx p.a0 16 = .fail f t → t.packetAt q k = some p → ∃ u, exec .launch s = .next u ∧ PacketDone t u q k p f.1 0 0 f.2)
        ∧ ∀ n t, s.cpWords (s.queueAt q).ctx p.a0 16 = .later n t → exec .launch s = .next (t.after n (.launch q k)))
    ∧ (s.event = some (.poolLaunch q k) → p.a0 ≤ 255 → s.poolArmed p.a0 = false → bitsAt (rcdW (s.poolAt p.a0) 0) 63 1 = 1 →
        Acceptable s (s.poolAt p.a0) (s.queueAt q).ctx → ∃ u, exec .poolLaunch s = .next u ∧ u.mem = s.mem ∧ u.poolArmed p.a0 = true
          ∧ Accepted s u (s.poolAt p.a0) (some p.a0) (some (q, k)))
    ∧ (∀ w t, s.event = some (.poolWrite q k) → p.a0 ≤ 255 → s.poolArmed p.a0 = false → s.cpWords (s.queueAt q).ctx p.a1 16 = .ok w t →
        t.packetAt q k = some p → t.pool = s.pool → ∃ u v, exec .poolWrite s = .next u ∧ v.mem = t.mem ∧ v.queues = t.queues ∧ PacketDone v u q k p 0 0 0 0
          ∧ u.poolArmed p.a0 = false ∧ bitsAt (rcdW (u.poolAt p.a0) 0) 16 16 = bitsAt (rcdW (s.poolAt p.a0) 0) 16 16
          ∧ ∀ j, 1 ≤ j → j < 16 → rcdW (u.poolAt p.a0) j = w.getD j 0)

/-- R201, R223 to R225, R264, R411, R415, R430, R443, R463. A launch whose claims and checks pass broadcasts its code and starts; it ends when everything of
it is done, or on a fault once its started copies, the updates sent and its landings are; the end, in order or on a fault, frees everything that
it held, ends its packet and its pool record, and sends DONE its arrival; a suspended launch gives up its claims and keeps its state, which a
resumption gives back to the same cores and tiles. That tentative lines left at the end are dropped, and the size and the bytes of the save area,
are the model's (log 43, log 32). -/
def Obligations.LaunchEvents : Prop :=
  ∀ (s : State) (q k lid d : Nat),
    (s.event = some (.domainStart d) → ∀ x, s.domains.find d = some x → ∃ (u : State) (y : Domain), exec .domainStart s = .next u ∧ u.mem = s.mem
      ∧ u.domains.find d = some y ∧ y.started = true ∧ y.startAt = none ∧ y.off = x.off ∧ y.step = x.step)
    ∧ ∀ l, s.launches.find lid = some l →
    (s.event = some (.launchClaim lid) → l.saved = none →
      (l.st = .loading → s.joined lid = true → ∀ st h ts a b t, s.stageTable l = .ok st a → a.codeHeader l = .ok h b → b.initialTasks l = .ok ts t →
        ∃ u, exec .launchClaim s = .next u ∧ Started t u lid l)
      ∧ (l.st = .claiming → s.claimFault l = none →
        (∀ n t, s.cartoonChecked l = .later n t → exec .launchClaim s = .next (t.after n (.launchClaim lid)))
        ∧ ((∀ n t, s.cartoonChecked l ≠ .later n t) →
          (s.claimable lid l = false → exec .launchClaim s = .next s)
          ∧ (s.claimable lid l = true → partBad (rcdW l.rcd 4) = true → ∃ u, exec .launchClaim s = .next u ∧ Freed u lid ∧ PoolEnded s u l)
          ∧ (s.claimable lid l = true → partBad (rcdW l.rcd 4) = false → ∀ s1 s2 s3 s4 st l1 m, s.loadCode l = .ok () s1 → s1.loadShapes l = .ok () s2 →
            s2.stageTable l = .ok st s3 → s3.loadCartoon lid l = .ok l1 s4 → m = { s4 with launches := s4.launches.put lid { l1 with st := .loading } } →
            (m.joined lid = true → ∀ l2 st' h ts a b t, l2 = { l1 with st := .loading } → m.stageTable l2 = .ok st' a → a.codeHeader l2 = .ok h b →
              b.initialTasks l2 = .ok ts t → ∃ u, exec .launchClaim s = .next u ∧ Started t u lid l1)
            ∧ (m.joined lid = false → ∃ u, exec .launchClaim s = .next u ∧ u.mem = s4.mem ∧ ∃ l', u.launches.find lid = some l' ∧ l'.st = .loading)))))
    ∧ (s.event = some (.launchEnd lid) → s.mayEnd lid l = true → ∃ u, exec .launchEnd s = .next u ∧ u.launches = s.launches.del lid ∧ Freed u lid ∧ Dropped s u lid
      ∧ PoolEnded s u l ∧ (∀ done t, done = (rcdW l.rcd 13).toNat → done ≠ 0 →
          (∀ pa, s.vaPhys l.ctx .atomic true done = .ok pa t → t.sealedAt (ctxASID (t.asctxAt l.ctx)) done = false →
            Event.transactionBarrierUpdate pa 0 1 false none ∈ u.agenda)
          ∧ ∀ w, s.vaPhys l.ctx .atomic true done = .wait w t → (l.ctx, done, false, t.ck + t.delay w) ∈ u.arrivals)
      ∧ ∀ a b, l.queue = some (a, b) → PacketEnds u a b)
    ∧ (∀ who f, s.event = some (.launchFaultEnd lid who f) →
      (l.fault = none → ∃ (u : State) (l' : Launch), exec .launchFaultEnd s = .next u ∧ u.mem = s.mem ∧ u.launches.find lid = some l' ∧ l'.st = .leaving
        ∧ l'.fault.map (fun x => x.2.1) = some f ∧ l'.status = some (if f.cause = 0x15 then 0x0D else 0x0C) ∧ Event.launchFaultEnd lid who f ∈ u.agenda
        ∧ (∀ p ∈ u.tiles, p.2.lid = some lid → p.2.running = false) ∧ (∀ p ∈ u.cores, p.2.lid = some lid → p.2.deque = [] ∧ p.2.arms = [])
        ∧ (∀ p ∈ u.slots, (s.core (coreOf (slotNo p.1))).lid = some lid → p.2.st ≠ .running ∧ p.2.st ≠ .waiting ∧ p.2.spec = .free ∧ p.2.buf = [] ∧ p.2.held = [])
        ∧ Dropped s u lid ∧ (∀ x ∈ u.seals, x.lid ≠ lid) ∧ ∀ c ∈ u.copies, (s.core (coreOf c.2.slot)).lid = some lid → c.2.held = false)
      ∧ (l.fault ≠ none → s.stopped lid = false → exec .launchFaultEnd s = .next (s.after 1 (.launchFaultEnd lid who f)))
      ∧ (l.fault ≠ none → s.stopped lid = true →
        (∀ w t, s.writeDump lid l = .wait w t → exec .launchFaultEnd s = .next (t.after (t.delay w) (.launchFaultEnd lid who f)))
        ∧ ((∀ w t, s.writeDump lid l ≠ .wait w t) → ∃ u, exec .launchFaultEnd s = .next u ∧ u.launches = s.launches.del lid ∧ Freed u lid ∧ Dropped s u lid
          ∧ PoolEnded s u l ∧ ∀ a b, l.queue = some (a, b) → PacketEnds u a b)))
    ∧ (∀ p, s.packetAt q k = some p → p.a0 = lid →
      (s.event = some (.faultAnswer q k) → ∃ u, exec .faultAnswer s = .next u
        ∧ (p.a1 = 0 → (∀ t ∈ s.servedTiles lid, (u.tile t).wait = .none) ∧ ∀ z ∈ u.domains, z.2.lid = lid → z.2.service = false)
        ∧ (p.a1 ≠ 0 → l.fault = none → ∀ t r, s.servedTiles lid = t :: r → Event.launchFaultEnd lid (.tile t) (s.tile t).lastFault ∈ u.agenda))
      ∧ (s.event = some (.suspend q k) → (Config.saveSize l.clusters.length l.tiles.length).toNat ≤ p.a2 →
        (l.st = .running → ∃ (u : State) (l' : Launch), exec .suspend s = .next u ∧ u.mem = s.mem ∧ u.launches.find lid = some l' ∧ l'.st = .leaving
          ∧ (∀ z ∈ u.domains, z.2.lid = lid → z.2.preempt = true) ∧ (s.ck + 1, Event.suspend q k) ∈ u.timers
          ∧ ∀ z ∈ u.slots, (u.core (coreNo (z.1 / 4))).lid = some lid → z.2.st ≠ .idle → z.2.due.contains .preempt = true)
        ∧ (l.st = .leaving → l.fault = none → s.switchReady lid = true → ∀ r, r = s.draw.1.vwrite (s.queueAt q).ctx false p.a1
            ((List.range (Config.saveSize l.clusters.length l.tiles.length).toNat).map (fun j => Config.byteAt s.draw.2 j)) →
          (∀ w t, r = .wait w t → exec .suspend s = .next (t.after (t.delay w) (.suspend q k)))
          ∧ ∀ t, r = .ok () t → ∃ (u : State) (l' : Launch), exec .suspend s = .next u ∧ Freed u lid
            ∧ u.launches.find lid = some l' ∧ l'.st = .suspended ∧ l'.saved = some (t.saveOf lid l) ∧ PacketEnds u q k))
      ∧ (∀ sv s1 locked m, s.event = some (.resume q k) → l.saved = some sv → l.fault = none → (Config.saveSize l.clusters.length l.tiles.length).toNat ≤ p.a2 →
        s.claimFault l = none → m = (if l.st = .suspended then { l with asked := (s.ck, q) } else l) → s.claimable lid m = true → s.relock m = .ok locked s1 →
        ∃ (u : State) (l' : Launch), exec .resume s = .next u ∧ u.launches.find lid = some l' ∧ l'.st = .running ∧ l'.saved = none
          ∧ ((sv.tiles.map (fun z => z.1)).Nodup → ∀ z ∈ sv.tiles, u.tiles.find z.1 = some z.2)
          ∧ (p.res = 0 → p.sig = 0 → (sv.cores.map (fun z => z.1)).Nodup → ∀ z ∈ sv.cores, u.cores.find z.1 = some z.2)
          ∧ ∀ z ∈ sv.slots, z.2.st = .suspended → Event.resumption (slotNo z.1) ∈ u.agenda))

/-- R155, R397, R413, R422, R434 to R444, R447, R448, R452. The events of links. A flit is 128 bytes with a CRC over them. A flit that a port takes moves
its port on and has the effect of its type, a payload for a later superstep once its domain has come to it; one that a port cannot take is discarded:
each that fails its CRC, and the first out of turn, asks for a replay. Each slot every live port sends 6 flits; a replay puts the kept flits in line; a
failed port hands its flits to its partner, and a link without a port is lost, at both ends of an alarm; a lost lane takes its link down until retraining ends.
The port and class of a flit, the bits of an element position, what ALARM and a resume agreement do to other packages, the direction in an alarm, the update at a
physical address and the time in a report of readiness are the model's readings (log 30, log 38, log 53, log 54, log 57, log 64, log 110, log 131). -/
def Obligations.LinkEvents : Prop :=
  ∀ (s : State) (p d : Nat) (f : Flit) (ok : Bool) (v : State), v = s.setPort p (portTaken (s.linkPort p) f) →
    (s.event = some .linkSlot → ∃ u, exec .linkSlot s = .next u ∧ u.mem = s.mem ∧ ∀ q, q < 12 →
      (((s.linkPort q).failed = true ∨ s.dirUsed (q / 2) = false) → u.linkPort q = s.linkPort q)
      ∧ ((s.linkPort q).failed = false → s.dirUsed (q / 2) = true → ∃ x1 x2 x3 x4 x5, SendsOne s.here s.time (s.linkPort q) x1 ∧ SendsOne s.here s.time x1 x2 ∧ SendsOne s.here s.time x2 x3
          ∧ SendsOne s.here s.time x3 x4 ∧ SendsOne s.here s.time x4 x5 ∧ SendsOne s.here s.time x5 (u.linkPort q)))
    ∧ (s.event = some (.idleFlit p f ok) → p < 12 → ok = true → ∃ u, exec .idleFlit s = .next u ∧ (f.ack = none → u = s.setPort p (s.linkPort p))
      ∧ ∀ a, f.ack = some a → Acknowledged (s.linkPort p).kept (u.linkPort p).kept a ∧ (u.linkPort p).expect = (s.linkPort p).expect)
    ∧ (Taken s p f ok → (∀ a, f.ack = some a → Acknowledged (s.linkPort p).kept (v.linkPort p).kept a) ∧ (v.linkPort p).expect = (f.seq + 1) % 4096)
    ∧ (s.event = some (.idleFlit p f ok) → p < 12 → ok = false → ∃ u, exec .idleFlit s = .next u ∧ (u.linkPort p).expect = (s.linkPort p).expect
      ∧ queued (u.linkPort p) (.retry (s.linkPort p).expect) (s.neighbour (p / 2)))
    ∧ (∀ l, l.length = 112 → (flitBytes f l).length = 128 ∧ flitHolds (flitBytes f l) = true)
    ∧ (∀ e ∈ flitEvents p f ok, s.event = some e.1 →
      (p < 12 → (s.linkPort p).failed = false → (ok = false ∨ f.seq ≠ (s.linkPort p).expect) →
        (ok = true → (s.linkPort p).discarding = true → exec e.2 s = .next s)
        ∧ ((ok = false ∨ (s.linkPort p).discarding = false) → ∃ u, exec e.2 s = .next u ∧ u.domains = s.domains ∧ (u.linkPort p).expect = (s.linkPort p).expect
          ∧ (u.linkPort p).discarding = true ∧ queued (u.linkPort p) (.retry (s.linkPort p).expect) (s.neighbour (p / 2))))
      ∧ (Taken s p f ok → f.dst ≠ s.here → e.2 ≠ .reservedFlit → (∀ n, f.body ≠ .retry n) → exec e.2 s = .next (v.forward f))
      ∧ (Taken s p f ok → f.dst = s.here → e.2 = .arrive ∨ e.2 = .hold ∨ e.2 = .go → ∀ st x, stepOf f.body = some st → s.domains.find f.domn = some x →
        x.xpkg = true → (x.step < st → exec e.2 s = .next { v with early := v.early ++ [(f.src, f.domn, f.body)] }) ∧ (st < x.step → exec e.2 s = .next v)))
    ∧ (Taken s p f ok → f.dst = s.here →
      (∀ tag pos b, s.event = some (.data p f ok) → f.body = .data tag pos b → ∀ x, s.domains.filter (fun z => z.2.xpkg && z.2.inBox f.src) = [(d, x)] →
        (pos / 2 ^ 42 = d → ∃ (u : State) (y : Domain), exec .data s = .next u ∧ u.mem = s.mem ∧ u.domains.find d = some y ∧ y.xdata = x.xdata ++ [(f.src, tag, pos, b)])
        ∧ (pos / 2 ^ 42 ≠ d → exec .data s = .next v))
      ∧ (∀ st vote n x, s.event = some (.arrive p f ok) → f.body = .arrive st vote n → s.domains.find f.domn = some x → x.xpkg = true → st = x.step →
        exec .arrive s = .next (v.setDomain f.domn (if (f.src, st) ∈ x.xarr then x else { x with xarr := x.xarr ++ [(f.src, st)], xvote := max x.xvote vote })))
      ∧ (∀ vote trel x, s.event = some (.release p f ok) → f.body = .release x.step vote trel → s.domains.find f.domn = some x → x.xpkg = true →
        x.trel = none → ∃ (u : State) (y : Domain), exec .release s = .next u ∧ u.mem = s.mem ∧ u.domains.find f.domn = some y ∧ y.trel = some trel
          ∧ y.xresult = vote ∧ y.releasing = true ∧ u.lateReleases = s.lateReleases + if trel < s.time then 1 else 0)
      ∧ (∀ o x, s.event = some (.hold p f ok) → f.body = .hold x.step o → s.domains.find f.domn = some x → x.xpkg = true →
        exec .hold s = .next (v.setDomain f.domn { x with xheld := x.xheld ++ [(f.src, o)] }))
      ∧ (∀ o t x, s.event = some (.go p f ok) → f.body = .go x.step o t → s.domains.find f.domn = some x → x.xpkg = true →
        exec .go s = .next (v.setDomain f.domn { x with xgo := x.xgo ++ [(f.src, o, t)] }))
      ∧ (∀ t1 t2 t3, s.event = some (.time p f ok) →
        (f.body = .time t1 none none → exec .time s = .next (v.sendFlit f.src 0 (.time t1 (some s.time) (some s.time))))
        ∧ (f.body = .time t1 (some t2) (some t3) → ∀ o : Int, o = ((t2 : Int) - t1 - ((s.time : Int) - t3)) / 2 → ∃ u, exec .time s = .next u
            ∧ (s.skew = false → o.natAbs ≤ 10 → u = { v with slew := o })
            ∧ (s.skew = false → 10 < o.natAbs → u.skew = true ∧ (0 ≤ (s.time : Int) + o → (u.time : Int) = s.time + o)
                ∧ ∀ z ∈ s.domains, z.2.xpkg = true → ∀ n ∈ s.peers z.2, Sent s u n (.alarm 1 0))
            ∧ (s.skew = true → 3 < o.natAbs → u = { v with slew := o, good := 0 })
            ∧ (s.skew = true → o.natAbs ≤ 3 → s.good < 15 → u = { v with slew := o, good := s.good + 1 })
            ∧ (s.skew = true → o.natAbs ≤ 3 → s.good = 15 → u.skew = false ∧ u.time = s.time)))
      ∧ (∀ dir, s.event = some (.alarm p f ok) →
        (f.body = .alarm 1 dir → ∃ u, exec .alarm s = .next u ∧ u.mem = s.mem ∧ ∀ z ∈ s.domains, z.2.xpkg = true → z.2.inBox f.src = true →
          ∀ t ∈ z.2.tiles, (s.tile t).running = true → Stopped u t 0x11)
        ∧ (f.body = .alarm 2 dir → ∃ u, exec .alarm s = .next u ∧ f.src ∈ u.lostPkgs
          ∧ ∀ z ∈ s.domains, z.2.xpkg = true → z.2.inBox f.src = true → Event.collectiveMemberLost z.1 ∈ u.agenda)
        ∧ (f.body = .alarm 3 dir → ∃ u, exec .alarm s = .next u ∧ (f.src, dir) ∈ u.lostLinks ∧ (∀ z ∈ u.domains, z.2.hlead = u.hleadOf z.2)
          ∧ ∀ z ∈ s.domains, z.2.xpkg = true → s.usesLink z.2 f.src dir = true → ∀ t ∈ z.2.tiles, (s.tile t).running = true → Stopped u t 0x16))
      ∧ (∀ ent x l, s.event = some (.control p f ok) → f.body = .record ent → s.domains.find f.domn = some x → s.launches.find x.lid = some l →
        l.st = .loading → x.xpkg = true → x.inBox f.src = true →
        (entriesAgree ent x.ent = true → exec .control s = .next ((v.setDomain f.domn { x with xrec := insertNat f.src x.xrec }).post (.launchClaim x.lid)))
        ∧ (entriesAgree ent x.ent = false → exec .control s = .next (v.failLaunch x.lid l (0x07, f.domn))))
      ∧ (∀ x l tm, s.event = some (.control p f ok) → f.body = .ready x.step tm → s.domains.find f.domn = some x → s.launches.find x.lid = some l →
        l.st = .running → x.xpkg = true → x.inBox f.src = true → x.saved = false →
        (x.started = false → exec .control s = .next (v.setDomain f.domn { x with xready := insertNat f.src x.xready, xwhen := max x.xwhen tm }))
        ∧ (x.started = true → x.pent = true → x.unprot = false → (∀ w ∈ x.windows, w.isOpen = false) → ∃ (u : State) (y : Domain), exec .control s = .next u
          ∧ u.mem = s.mem ∧ u.domains.find f.domn = some y ∧ y.frozen = true ∧ Event.rollback f.domn ∈ u.agenda))
      ∧ (∀ pa b n e, s.event = some (.update p f ok) → f.body = .update pa b n e → exec .update s = .next (v.post (.transactionBarrierUpdate pa b n e none))))
    ∧ (∀ n l1 g l2, Taken s p f ok → s.event = some (.retry p f ok) → f.body = .retry n → (v.linkPort p).kept = l1 ++ g :: l2 → g.seq = n →
      (∀ h ∈ l1, h.seq ≠ n) → ∃ u, exec .retry s = .next u ∧ (u.linkPort p).resend = g :: l2 ∧ (u.linkPort p).kept = (v.linkPort p).kept
        ∧ (∀ c, (s.linkPort p).retries = (n, c) → 15 ≤ c → Event.portFailure p ∈ u.agenda) ∧ ((s.linkPort p).retries.1 ≠ n → u.agenda = s.agenda))
    ∧ (∀ n, Taken s p f ok → f.body = .reserved n → s.event = some (.reservedFlit p f ok) → ∃ u, exec .reservedFlit s = .next u ∧ u.agenda = s.agenda
      ∧ u.domains = s.domains ∧ (u.linkPort p).counted = (s.linkPort p).counted + 1)
    ∧ (∀ x, s.domains.find d = some x →
      (s.event = some (.crossPackageRelease d) →
        (s.promotable d = true → exec .crossPackageRelease s = .next ((s.setDomain d { x with trel := none }).closing d x true))
        ∧ (s.promotable d = false → exec .crossPackageRelease s = .next (s.after 1 (.crossPackageRelease d))))
      ∧ (s.event = some (.phaseClockResume d) → (∀ h ∈ x.xheld, h.2 ≠ x.off) → (∀ g ∈ x.xgo, g.2.1 = x.off → g.2.2 ≤ s.time) →
        ∃ (u : State) (y : Domain), exec .phaseClockResume s = .next u ∧ u.mem = s.mem ∧ u.domains.find d = some y ∧ y.stops = false)
      ∧ (∀ n t, s.event = some (.phaseClockResume d) → x.xheld = [(n, x.off)] → x.xgo = [(n, x.off, t)] → ∃ u, exec .phaseClockResume s = .next u
        ∧ u.domains = if t ≤ s.time then s.domains.put d { x with xheld := [], xgo := [] } else s.domains))
    ∧ (∀ n, s.event = some .timeMeasurement → s.inTorus = true → s.timeParent = some n → exec .timeMeasurement s = .next (s.sendFlit n 0 (.time s.time none none)))
    ∧ (s.event = some (.portFailure p) → p < 12 → (s.linkPort p).failed = false → ∃ u, exec .portFailure s = .next u ∧ u.mem = s.mem ∧ (u.linkPort p).failed = true
      ∧ ((s.linkPort (p ^^^ 1)).failed = false → u.tiles = s.tiles ∧ u.domains = s.domains
          ∧ TookOver (s.linkPort p) (s.linkPort (p ^^^ 1)) (u.linkPort (p ^^^ 1)))
      ∧ ((s.linkPort (p ^^^ 1)).failed = true → (s.here, p / 2) ∈ u.lostLinks ∧ (∀ z ∈ u.domains, z.2.hlead = u.hleadOf z.2)
          ∧ ∀ z ∈ s.domains, z.2.xpkg = true → (∀ n ∈ s.peers z.2, Sent (s.setPort p { s.linkPort p with failed := true }) u n (.alarm 3 (p / 2)))
            ∧ (s.usesLink z.2 s.here (p / 2) = true → ∀ t ∈ z.2.tiles, (s.tile t).running = true → Stopped u t 0x16)))
    ∧ (∀ lane, s.event = some (.laneLoss p lane) → p < 2 → lane < 16 → ∃ u, exec .laneLoss s = .next u ∧ u.mem = s.mem ∧ lane ∈ (u.uePort p).lost
      ∧ (((s.uePort p).links = [0, 1] ∨ ∃ j, (s.uePort p).links = [j]) → lane ∈ (s.uePort p).lanes → ((u.uePort p).lanes ≠ [] → (u.uePort p).training = true ∧ (s.ck + 10000, Event.retrainingEnd p) ∈ u.timers)
          ∧ lane ∉ (u.uePort p).lanes))
    ∧ (s.event = some (.retrainingEnd p) → p < 2 → ∃ u, exec .retrainingEnd s = .next u ∧ u.mem = s.mem ∧ (u.uePort p).training = false)

/-- R20, R46 to R49, R416 to R418, R428, R429, R465 to R467, R469. The events of firmware and of failed hardware: a reset and its image checks, recovery,
attestation, register writes and the cluster map, the power limit, the checker, and a failed mesh router; firmware writes nothing until its image runs.
What of memory a package reset keeps, the functions of the named standards, where a retried group stands, the writes that reach a device
register, and what a lost slice leaves, are the model's (log 12, log 14, log 16, log 17, log 56, log 125, log 131). -/
def Obligations.FirmwareEvents : Prop :=
  ∀ (s : State) (i : SlotId) (r : Nat), s.Canonical →
    (s.event = some .packageReset → ∃ u, exec .packageReset s = .next u ∧ u.mem = s.mem ∧ u.launches = [] ∧ u.cores = [] ∧ u.slots = [] ∧ u.tiles = []
      ∧ u.queues = [] ∧ u.clmap = [] ∧ u.asctx = [] ∧ u.time = 0 ∧ u.boot.flash = s.boot.flash ∧ u.boot.svnFuse = s.boot.svnFuse
      ∧ (ImageAccepted s.boot s.boot.flash → u.boot.st = .running ∧ u.boot.svn = imageSVN s.boot.flash
          ∧ u.boot.measure = Config.sha384 (imageBytes s.boot.flash 0 0x300 ++ imageBody s.boot.flash) ∧ u.boot.romDigest = Config.romDigest
          ∧ u.boot.aliasRsa = Config.aliasKey 0 u.boot.measure ∧ u.boot.aliasSlh = Config.aliasKey 1 u.boot.measure)
      ∧ (¬ ImageAccepted s.boot s.boot.flash → u.boot.st = .recovery ∧ u.boot.failing ≠ 0))
    ∧ (∀ img, s.event = some (.recoveryImageLoad img) → exec .recoveryImageLoad s
        = .next (if s.boot.st = .recovery then { s with boot := { s.boot with flash := img } } else s))
    ∧ (s.event = some .svnRaise → s.boot.st = .running → exec .svnRaise s
        = .next { s with boot := { s.boot with svnFuse := if s.boot.svnFuse ≤ s.boot.svn then s.boot.svn else s.boot.svnFuse } })
    ∧ (∀ q, s.event = some (.spdmRequest q) → s.boot.st = .running → ∃ r, SignedResponse s.boot q r ∧ exec .spdmRequest s
        = .next { s with boot := { s.boot with response := some r } })
    ∧ (∀ q pa x w n, (s.event = some .svnRaise ∨ s.event = some (.spdmRequest q) ∨ s.event = some (.registerWrite pa x) ∨ s.event = some (.clmapWrite n w)
        ∨ s.event = some (.powerLimit n)) → s.boot.st ≠ .running → ∀ e : Instr, e = .svnRaise ∨ e = .spdmRequest ∨ e = .registerWrite ∨ e = .clmapWrite
          ∨ e = .powerLimit → exec e s = .next s)
    ∧ (∀ pa x, s.event = some (.registerWrite pa x) → s.boot.st = .running →
      (∀ n, n < 256 → pa = 0x300000000000 + 8 * n → ∃ u, exec .registerWrite s = .next u ∧ (∀ m, m ≠ n → u.asctxAt m = s.asctxAt m)
        ∧ ∀ j, j < 64 → (u.asctxAt n).getLsbD j = (x.getLsbD j && (decide (j < 52) || decide (62 ≤ j))))
      ∧ (pa < 0x300000000000 ∨ 0x300000010200 ≤ pa → exec .registerWrite s = .fault (.deviceRegister pa)))
    ∧ (∀ n x, s.event = some (.clmapWrite n x) → s.boot.st = .running → n < 128 → ∃ u, exec .clmapWrite s = .next u
      ∧ ((∀ p ∈ s.cores, p.1 / 8 = n → p.2.stopped = false) → clmapV (u.clmapAt n) = clmapV x)
      ∧ (∀ p ∈ s.cores, p.1 / 8 = n → p.2.stopped = true → clmapV (u.clmapAt n) = false)
      ∧ clmapChg (u.clmapAt n) = clmapChg x ∧ clmapPhys (u.clmapAt n) = (if clmapChg (s.clmapAt n) = true then clmapPhys x else clmapPhys (s.clmapAt n))
      ∧ (clmapChg (s.clmapAt n) = true → ∀ a, a < 0x200000 → memRead u.mem (0x200000000000 + clmapPhys x * 0x200000 + a)
          = memRead s.mem (0x200000000000 + clmapPhys (s.clmapAt n) * 0x200000 + a))
      ∧ (clmapChg (s.clmapAt n) = false → u.mem = s.mem ∧ (clmapChg x = true → ∀ j : SlotId, j.val / 32 = n → (s.slot j).st ≠ .idle →
          (u.slot j).due.contains .preempt = true))
      ∧ (clmapChg (s.clmapAt n) = true → clmapChg x = false → ∀ j : SlotId, j.val / 32 = n → (s.slot j).st = .suspended → Event.resumption j ∈ u.agenda))
    ∧ (∀ n, s.event = some (.powerLimit n) → s.boot.st = .running → ∃ u, exec .powerLimit s = .next u ∧ u = { s with duty := u.duty, throttle := u.throttle }
      ∧ u.duty ≤ 3 ∧ u.throttle ≤ 2 ∧ (0 < u.throttle → u.duty = 3))
    ∧ (s.event = some (.checkerPass i) →
      exec .checkerPass s = .next (s.setCore (coreOf i) { s.core (coreOf i) with checking := (s.core (coreOf i)).checking.erase (numOf i) }))
    ∧ (s.event = some (.checkerMismatch i) →
      ((s.core (coreOf i)).stopped = true → exec .checkerMismatch s = .next s)
      ∧ ((s.core (coreOf i)).stopped = false → numOf i ∉ (s.core (coreOf i)).checking →
        ((s.slot i).st = .running → ∃ u, exec .checkerMismatch s = .next u ∧ u.mem = s.mem ∧ (u.slot i).h = (s.slot i).h ∧ (u.slot i).wait = .retry (s.ck + 18)
          ∧ numOf i ∈ (u.core (coreOf i)).checking ∧ u.nretry = s.nretry + 1 ∧ (s.ck + 18, Event.checkerRetry i) ∈ u.timers)
        ∧ ((s.slot i).st ≠ .running → exec .checkerMismatch s = .next s))
      ∧ ((s.core (coreOf i)).stopped = false → numOf i ∈ (s.core (coreOf i)).checking → ∃ u, exec .checkerMismatch s = .next u ∧ u.mem = s.mem
        ∧ (u.core (coreOf i)).stopped = true ∧ bitsAt (u.slot i).h.cause 0 8 = 0x12 ∧ (u.slot i).h.epc = (s.slot i).h.pc
        ∧ clmapV (u.clmapAt ((coreOf i).val / 8)) = false ∧ EndsLaunches s u (HoldsCluster ((coreOf i).val / 8))))
    ∧ (∀ t, s.event = some (.checkerRetry i) → (s.slot i).wait = .retry t → (s.slot i).st = .waiting → ∃ u, exec .checkerRetry s = .next u
      ∧ (u.slot i).st = .running ∧ (u.slot i).wait = .none ∧ (u.slot i).h = (s.slot i).h ∧ (s.ck + 6, Event.checkerPass i) ∈ u.timers)
    ∧ (s.event = some (.checkerRetry i) → (∀ t, (s.slot i).wait ≠ .retry t) → exec .checkerRetry s = .next (s.after 6 (.checkerPass i)))
    ∧ (s.event = some (.meshRouterFailure r) → r < 128 → r ∉ s.routers → ∃ u, exec .meshRouterFailure s = .next u ∧ r ∈ u.routers
      ∧ ((r / 64 * 8 + r % 8 + r / 8 % 8) % 2 = 0 → u.closed = true ∧ EndsLaunches s u (fun _ => True) ∧ ∀ k, k = 32 * (r / 64) + r % 64 / 2 →
          (∀ p ∈ u.lines, sliceOf (256 * p.1) ≠ k)
          ∧ (∀ a, (∀ p ∈ s.lines, p.2.dirty = true → sliceOf (256 * p.1) = k → a / 256 ≠ p.1) → memRead u.mem a = memRead s.mem a)
          ∧ ∀ z ∈ s.domains, z.2.xpkg = true → ∀ n ∈ s.peers z.2, Sent s u n (.alarm 2 0))
      ∧ ((r / 64 * 8 + r % 8 + r / 8 % 8) % 2 = 1 → u.mem = s.mem ∧ u.rerouting = true ∧ Event.meshReroute r ∈ u.agenda ∧ ∀ n, n < 128 →
          s.clusterPresent n = true → clmapPhys (s.clmapAt n) = r → (∀ m, m < n → s.clusterPresent m = true → clmapPhys (s.clmapAt m) ≠ r) →
          clmapV (u.clmapAt n) = false ∧ EndsLaunches s u (HoldsCluster n)))
    ∧ (s.event = some (.meshReroute r) →
      (s.meshBusy = false → exec .meshReroute s = .next { s with routes := s.rewriteRoutes.routes, rerouting := false, generation := s.generation + 1 })
      ∧ (s.meshBusy = true → exec .meshReroute s = .next (s.after 1 (.meshReroute r))))

/-- R209, R210, R244, R247, R264, R406. A step with an event due is that event; otherwise the next agent of the round, if it still may issue and no boundary event
is due, executes the instruction that the bytes at its PC decode to, once the checks of R247 pass; a word that does not decode takes cause 0x01, and a
PC past the code region, with no overlay handler, cause 0x08. A slot's turn differs from its instruction only in the round and in the second
instruction of its issue group, which takes the slot's next turn at once.
The order of agents in a round, and FADDR 0 and KIND 4 of a fault of the fetch, are the model's (log 6, log 9, log 29). -/
def Obligations.StepRunsDecoded : Prop :=
  (∀ (s : State) (e : Event) (l : List Event), s.agenda = e :: l → step s = exec (eventInstr e) { s with agenda := l, event := some e })
  ∧ ∀ (s u : State) (ag : Agent) (rest : List Agent), s.agenda = [] → s.round = ag :: rest → u = turnState s ag rest →
      (s.mayIssue ag = false → step s = .next { s with round := rest, event := none })
      ∧ (s.mayIssue ag = true → NoBoundary u ag →
        (∀ b0 b1 b2 b3, WordAt u ag b0 b1 b2 b3 →
          (∀ i, decodeBytes b0 b1 b2 b3 = .ok i → checkFault ag (u.hart ag) i = none →
            step s = turnAnswers u ag (exec i (grouped u ag)))
          ∧ (∀ i f, decodeBytes b0 b1 b2 b3 = .ok i → checkFault ag (u.hart ag) i = some f → step s = .next (turnEnds u ag ((grouped u ag).raiseFault ag f)))
          ∧ ∀ e, decodeBytes b0 b1 b2 b3 = .error e → step s = .next (turnEnds u ag ((grouped u ag).raiseFault ag { cause := 0x01 })))
        ∧ ((u.hart ag).pc.toNat % 4 = 0 → u.codeEnd ag ≤ (u.hart ag).pc.toNat → u.mayOverlay ag = false →
            step s = .next (turnEnds u ag ((grouped u ag).raiseFault ag { cause := 0x08, kind := 4 }))))
      ∧ ∀ i, (∀ t, SameButTurn t (t.groupOn i) i ∧ SameButTurn t (t.groupOff i) i) ∧ ∀ q, u.groupSecond i = some q → q = (u.slot i).h.pc + 4

/-- R248 to R255, by the spec's own example words: each decodes to its instruction, and the instruction encodes to it. The zero word decodes to none. -/
def Obligations.DecodeWords : Prop :=
  (∀ p ∈ words, decode p.1 = .ok p.2 ∧ encode p.2 = p.1) ∧ (decode 0).isOk = false

/-- R247 to R255. Every well-formed instruction that has an encoding, with every operand at every value that the encoding admits, decodes from its word to
itself; and a word decodes to no instruction but the one whose word it is. -/
def Obligations.EncodeDecode : Prop :=
  (∀ i f, fieldsOf i = some f → wellFormed i = true → decode (encode i) = .ok i)
  ∧ ∀ w i, decode w = .ok i → encode i = w ∧ wellFormed i = true ∧ (fieldsOf i).isSome

/-- R12, with the model's own form of memory (log 2). Every step that goes on leaves memory in its canonical form: addresses rising, and no entry that an
unlisted address would read as. -/
def Obligations.StepKeepsMemory : Prop :=
  ∀ s t : State, s.Canonical → step s = .next t → t.Canonical

/-- R3, R20, R46, R51, R97, R153, R156, R220, R277, R298, R403, R440, R457. Reset: memory lists nothing; every slot and tile holds a fresh register
file and stands idle; the partition words, contexts, queues and the pattern word are 0; logical cluster n is physical cluster n. Where the spec
gives no value, zero is the model's choice (log 1, log 2). -/
def Obligations.ResetValues : Prop :=
  State.reset.Canonical ∧ (∀ a, memRead State.reset.mem a = 0) ∧ State.reset.time = 0 ∧ State.reset.pattern = 0 ∧ State.reset.launches = []
  ∧ (∀ i, FreshHart (State.reset.slot i).h ∧ (State.reset.slot i).st = .idle ∧ (State.reset.slot i).uih = 0 ∧ (State.reset.slot i).ovh = 0
      ∧ (State.reset.slot i).budEn = false ∧ (State.reset.slot i).xfer = 0)
  ∧ (∀ t, FreshHart (State.reset.tile t).r.h ∧ (State.reset.tile t).running = false ∧ (State.reset.tile t).r.gprog = 0)
  ∧ (∀ c, (State.reset.core c).part = 0 ∧ (State.reset.core c).dqspill = 0 ∧ (State.reset.core c).deque = [])
  ∧ (∀ n, State.reset.asctxAt n = 0) ∧ (∀ q, (State.reset.queueAt q).desc = Vector.replicate 8 0)
  ∧ ∀ n, n < 128 → clmapV (State.reset.clmapAt n) = true ∧ clmapChg (State.reset.clmapAt n) = false ∧ clmapPhys (State.reset.clmapAt n) = n
end

