-- ==== Sys2Proof/Laws/Memory.lean ====
section
/-!
SUPPORT. The laws of the memory list: every operation keeps the canonical form, a byte reads as it was written, and a
write leaves every other byte alone.
-/

-- One declaration at a time, so that the package as one text compiles in little memory.
set_option Elab.async false

namespace Sys2Proof.Machine

/-- A sorted list stays sorted above a lower bound. -/
theorem memSorted_mono {lo k : Nat} (h : lo ≤ k) : ∀ {m : List Host.Cell}, memSorted k m = true → memSorted lo m = true
  | [], _ => rfl
  | (a, v) :: t, e => by
    simp only [memSorted, Bool.and_eq_true, decide_eq_true_eq] at e ⊢
    exact ⟨⟨by omega, e.1.2⟩, e.2⟩

/-- A byte below every listed address reads as the default. -/
theorem memRead_below {lo a : Nat} (h : a < lo) : ∀ {m : List Host.Cell}, memSorted lo m = true → memRead m a = memDefault
  | [], _ => rfl
  | (b, x) :: t, e => by
    simp only [memSorted, Bool.and_eq_true, decide_eq_true_eq] at e
    rw [memRead, if_neg (by omega), if_pos (by omega)]

/-- A write above a bound keeps the list sorted above it. -/
theorem memSorted_memWrite {lo a : Nat} (v : Byte) (h : lo ≤ a) :
    ∀ {m : List Host.Cell}, memSorted lo m = true → memSorted lo (memWrite m a v) = true := by
  intro m
  induction m generalizing lo with
  | nil =>
    intro _
    simp only [memWrite]
    split
    · rfl
    · simp_all [memSorted]
  | cons p t ih =>
    obtain ⟨b, x⟩ := p
    intro e
    simp only [memSorted, Bool.and_eq_true, decide_eq_true_eq] at e
    simp only [memWrite]
    split
    · split
      · exact memSorted_mono (by omega) e.2
      · subst_vars; simp_all [memSorted]
    · split
      · split
        · simp_all [memSorted]
        · simp only [memSorted, Bool.and_eq_true, decide_eq_true_eq]
          exact ⟨⟨h, by simp_all⟩, ⟨by omega, e.1.2⟩, e.2⟩
      · simp only [memSorted, Bool.and_eq_true, decide_eq_true_eq]
        exact ⟨e.1, ih (by omega) e.2⟩

/-- A write keeps the canonical form. -/
theorem memWrite_wf {m : List Host.Cell} (a : Nat) (v : Byte) (h : Memory.wf m = true) : Memory.wf (memWrite m a v) = true :=
  memSorted_memWrite v (Nat.zero_le a) h

/-- A write of bytes keeps the canonical form. -/
theorem memPut_wf : ∀ (bs : List Byte) {m : List Host.Cell} (a : Nat), Memory.wf m = true → Memory.wf (memPut m a bs) = true
  | [], _, _, h => h
  | b :: t, _, a, h => memPut_wf t (a + 1) (memWrite_wf a b h)

/-- A masked write keeps the canonical form. -/
theorem memPutMask_wf :
    ∀ (bs : List (Option Byte)) {m : List Host.Cell} (a : Nat), Memory.wf m = true → Memory.wf (memPutMask m a bs) = true
  | [], _, _, h => h
  | none :: t, _, a, h => memPutMask_wf t (a + 1) h
  | some b :: t, _, a, h => memPutMask_wf t (a + 1) (memWrite_wf a b h)

/-- The written byte. -/
theorem memRead_memWrite_self {m : List Host.Cell} (a : Nat) (v : Byte) (h : Memory.wf m = true) :
    memRead (memWrite m a v) a = v := by
  suffices ∀ lo, memSorted lo m = true → memRead (memWrite m a v) a = v from this 0 h
  clear h
  induction m with
  | nil => intro lo _; simp only [memWrite]; split <;> simp_all [memRead]
  | cons p t ih =>
    obtain ⟨b, x⟩ := p
    intro lo e
    simp only [memSorted, Bool.and_eq_true, decide_eq_true_eq] at e
    simp only [memWrite]
    split
    · split
      · rw [memRead_below (by omega) e.2]; simp_all
      · simp [memRead]
    · split
      · split
        · rw [memRead, if_neg (by assumption), if_pos (by assumption)]; simp_all
        · simp [memRead]
      · rw [memRead, if_neg (by assumption), if_neg (by assumption)]
        exact ih _ e.2

/-- Every other byte. -/
theorem memRead_memWrite_ne {m : List Host.Cell} {a c : Nat} (v : Byte) (h : Memory.wf m = true) (n : c ≠ a) :
    memRead (memWrite m a v) c = memRead m c := by
  suffices ∀ lo, memSorted lo m = true → memRead (memWrite m a v) c = memRead m c from this 0 h
  clear h
  induction m with
  | nil => intro lo _; simp only [memWrite]; split <;> simp [memRead, n]
  | cons p t ih =>
    obtain ⟨b, x⟩ := p
    intro lo e
    simp only [memSorted, Bool.and_eq_true, decide_eq_true_eq] at e
    simp only [memWrite]
    split
    · subst_vars
      split
      · rw [memRead, if_neg n]
        split
        · rw [memRead_below (by omega) e.2]
        · rfl
      · simp [memRead, n]
    · split
      · split
        · rfl
        · rw [memRead, if_neg n]
          split
          · rw [memRead, if_neg (by omega), if_pos (by omega)]
          · rfl
      · rw [memRead, memRead]
        split
        · rfl
        · split
          · rfl
          · exact ih _ e.2

/-- Bytes outside a write of bytes. -/
theorem memRead_memPut_ne : ∀ (bs : List Byte) {m : List Host.Cell} (a c : Nat), Memory.wf m = true →
    (c < a ∨ a + bs.length ≤ c) → memRead (memPut m a bs) c = memRead m c
  | [], _, _, _, _, _ => rfl
  | b :: t, m, a, c, h, o => by
    simp only [List.length_cons] at o
    rw [memPut, memRead_memPut_ne t (a + 1) c (memWrite_wf a b h) (by omega), memRead_memWrite_ne b h (by omega)]

/-- The bytes of a write of bytes. -/
theorem memRead_memPut_mem : ∀ (bs : List Byte) {m : List Host.Cell} (a k : Nat), Memory.wf m = true →
    (hk : k < bs.length) → memRead (memPut m a bs) (a + k) = bs[k]
  | b :: t, m, a, 0, h, _ => by
    show memRead (memPut (memWrite m a b) (a + 1) t) a = b
    rw [memRead_memPut_ne t (a + 1) a (memWrite_wf a b h) (by omega), memRead_memWrite_self a b h]
  | b :: t, m, a, k + 1, h, hk => by
    simp only [List.length_cons] at hk
    rw [memPut, show a + (k + 1) = a + 1 + k from by omega, memRead_memPut_mem t (a + 1) k (memWrite_wf a b h) (by omega)]
    rfl

/-- Bytes outside a masked write. -/
theorem memRead_memPutMask_ne : ∀ (bs : List (Option Byte)) {m : List Host.Cell} (a c : Nat), Memory.wf m = true →
    (c < a ∨ a + bs.length ≤ c) → memRead (memPutMask m a bs) c = memRead m c
  | [], _, _, _, _, _ => rfl
  | none :: t, m, a, c, h, o => by
    simp only [List.length_cons] at o
    rw [memPutMask, memRead_memPutMask_ne t (a + 1) c h (by omega)]
  | some b :: t, m, a, c, h, o => by
    simp only [List.length_cons] at o
    rw [memPutMask, memRead_memPutMask_ne t (a + 1) c (memWrite_wf a b h) (by omega), memRead_memWrite_ne b h (by omega)]

/-- A masked write of every byte is a write. -/
theorem memPutMask_map_some : ∀ (bs : List Byte) (m : List Host.Cell) (a : Nat), memPutMask m a (bs.map some) = memPut m a bs
  | [], _, _ => rfl
  | b :: t, m, a => by simp only [List.map_cons, memPutMask, memPut]; exact memPutMask_map_some t _ _

@[simp] theorem memBytes_length (m : List Host.Cell) : ∀ (n a : Nat), (memBytes m a n).length = n
  | 0, _ => rfl
  | n + 1, a => by simp [memBytes, memBytes_length m n (a + 1)]

/-- Reads of a range that a write of bytes does not meet. -/
theorem memBytes_memPut_ne (bs : List Byte) {m : List Host.Cell} (a : Nat) (h : Memory.wf m = true) :
    ∀ (n c : Nat), (c + n ≤ a ∨ a + bs.length ≤ c) → memBytes (memPut m a bs) c n = memBytes m c n
  | 0, _, _ => rfl
  | n + 1, c, o => by
    rw [memBytes, memBytes, memRead_memPut_ne bs a c h (by omega), memBytes_memPut_ne bs a h n (c + 1) (by omega)]

/-- Bytes just written are read back. -/
theorem memBytes_memPut_self : ∀ (bs : List Byte) {m : List Host.Cell} (a : Nat), Memory.wf m = true →
    memBytes (memPut m a bs) a bs.length = bs
  | [], _, _, _ => rfl
  | b :: t, m, a, h => by
    rw [List.length_cons, memBytes, memPut, memRead_memPut_ne t (a + 1) a (memWrite_wf a b h) (by omega),
      memRead_memWrite_self a b h, memBytes_memPut_self t (a + 1) (memWrite_wf a b h)]

@[simp] theorem bytesOfNat_length : ∀ (n v : Nat), (bytesOfNat n v).length = n
  | 0, _ => rfl
  | n + 1, v => by simp [bytesOfNat, bytesOfNat_length n]

/-- The bytes of a number give the number back. -/
theorem natOfBytes_bytesOfNat : ∀ (n v : Nat), natOfBytes (bytesOfNat n v) = v % 256 ^ n
  | 0, v => by simp [bytesOfNat, natOfBytes, Nat.mod_one]
  | n + 1, v => by
    rw [bytesOfNat, natOfBytes, natOfBytes_bytesOfNat n, BitVec.toNat_ofNat]
    exact (by rw [show 256 ^ (n + 1) = 256 * 256 ^ n from Nat.pow_succ', Nat.mod_mul] : v % 256 ^ (n + 1) = _).symm

/-- The memory after reset has the canonical form. -/
theorem Memory.wf_reset : Memory.wf State.reset.mem = true := rfl

end Sys2Proof.Machine
end

