-- ==== Sys2Proof/Laws/Mesh.lean ====
section
/-!
SUPPORT. The mesh: with the tables of reset a message takes as many hops as its routers lie apart (R90, R91).
-/
namespace Sys2Proof.Machine

/-- The column of a router at a place. -/
@[simp] theorem routerX_routerAt {x y : Nat} (h : y < 8) : routerX (routerAt x y) = x := by
  unfold routerX routerAt; omega

/-- The row of a router at a place. -/
@[simp] theorem routerY_routerAt {x y : Nat} (h : y < 8) : routerY (routerAt x y) = y := by
  unfold routerY routerAt; omega

/-- The mesh has eight rows. -/
theorem routerY_lt (r : Nat) : routerY r < 8 := by unfold routerY; omega

/-- A column and a row have one router. -/
theorem router_ext {a b : Nat} (hx : routerX a = routerX b) (hy : routerY a = routerY b) : a = b := by
  unfold routerX at hx; unfold routerY at hy; omega

/-- A router is no hop from itself. -/
@[simp] theorem hops_self (a : Nat) : hops a a = 0 := by simp [hops, apart]

/-- Routers without a hop between them are one. -/
theorem eq_of_hops_eq_zero {a b : Nat} (h : hops a b = 0) : a = b := by
  unfold hops apart at h
  exact router_ext (by omega) (by omega)

/-- The first router of a run that has one. -/
theorem map_range_headD {α : Type} (f : Nat → α) {n : Nat} (h : n ≠ 0) (l : List α) (d : α) : ((List.range n).map f ++ l).headD d = f 0 := by
  obtain ⟨m, rfl⟩ := Nat.exists_eq_succ_of_ne_zero h
  simp [List.range_succ_eq_map]

/-- With the tables of reset the next router is one hop nearer (R91). -/
theorem hops_next (s : State) (h : s.routes = []) {a b : Nat} (n : a ≠ b) : hops (portFrom a (s.routePort a b)) b + 1 = hops a b := by
  have ya := routerY_lt a
  have yb := routerY_lt b
  have e : s.routePort a b = portTo a ((xyRoute a b).headD a) := by simp [State.routePort, h, Tbl.find]
  rw [e]
  rcases Nat.lt_trichotomy (routerX a) (routerX b) with x | x | x
  · have r : (xyRoute a b).headD a = routerAt (routerX a + 1) (routerY a) := by
      unfold xyRoute rowRun
      rw [map_range_headD _ (by unfold apart; omega), if_pos (by omega)]
    have p : portTo a (routerAt (routerX a + 1) (routerY a)) = 1 := by
      have : a ≠ routerAt (routerX a + 1) (routerY a) := fun q => by
        have := congrArg routerX q; rw [routerX_routerAt ya] at this; omega
      simp [portTo, this, ya]
    rw [r, p]
    simp only [portFrom, hops, routerX_routerAt ya, routerY_routerAt ya, apart]; omega
  · have y : routerY a ≠ routerY b := fun q => n (router_ext x q)
    have z : (List.range (apart (routerX a) (routerX b))) = [] := by simp [apart, x]
    rcases Nat.lt_or_gt_of_ne y with v | v
    · have r : (xyRoute a b).headD a = routerAt (routerX b) (routerY a + 1) := by
        unfold xyRoute rowRun colRun
        rw [z, List.map_nil, List.nil_append, ← List.append_nil (List.map _ _), map_range_headD _ (by unfold apart; omega), if_pos (by omega)]
      have p : portTo a (routerAt (routerX b) (routerY a + 1)) = 3 := by
        have : a ≠ routerAt (routerX b) (routerY a + 1) := fun q => by
          have := congrArg routerY q; rw [routerY_routerAt (by omega)] at this; omega
        simp [portTo, this, routerX_routerAt (x := routerX b) (show routerY a + 1 < 8 by omega), routerY_routerAt (x := routerX b) (show routerY a + 1 < 8 by omega), x]
      rw [r, p]
      simp only [portFrom, hops, routerX_routerAt (x := routerX a) (show routerY a + 1 < 8 by omega), routerY_routerAt (x := routerX a) (show routerY a + 1 < 8 by omega), apart]; omega
    · have r : (xyRoute a b).headD a = routerAt (routerX b) (routerY a - 1) := by
        unfold xyRoute rowRun colRun
        rw [z, List.map_nil, List.nil_append, ← List.append_nil (List.map _ _), map_range_headD _ (by unfold apart; omega), if_neg (by omega)]
        simp
      have p : portTo a (routerAt (routerX b) (routerY a - 1)) = 4 := by
        have : a ≠ routerAt (routerX b) (routerY a - 1) := fun q => by
          have := congrArg routerY q; rw [routerY_routerAt (by omega)] at this; omega
        simp [portTo, this, routerX_routerAt (x := routerX b) (show routerY a - 1 < 8 by omega), routerY_routerAt (x := routerX b) (show routerY a - 1 < 8 by omega), x]
      rw [r, p]
      simp only [portFrom, hops, routerX_routerAt (x := routerX a) (show routerY a - 1 < 8 by omega), routerY_routerAt (x := routerX a) (show routerY a - 1 < 8 by omega), apart]; omega
  · have r : (xyRoute a b).headD a = routerAt (routerX a - 1) (routerY a) := by
      unfold xyRoute rowRun
      rw [map_range_headD _ (by unfold apart; omega), if_neg (by omega)]
      simp
    have p : portTo a (routerAt (routerX a - 1) (routerY a)) = 2 := by
      have : a ≠ routerAt (routerX a - 1) (routerY a) := fun q => by
        have := congrArg routerX q; rw [routerX_routerAt ya] at this; omega
      have k : ¬ routerX a < routerX a - 1 := by omega
      have k' : routerX a - 1 < routerX a := by omega
      simp [portTo, this, ya, k, k']
    rw [r, p]
    simp only [portFrom, hops, routerX_routerAt ya, routerY_routerAt ya, apart]; omega

/-- With the tables of reset a way has as many routers as it has hops. -/
theorem pathFrom_length (s : State) (h : s.routes = []) (b : Nat) : ∀ n a, hops a b ≤ n → (s.pathFrom b n a).length = hops a b
  | 0, a, k => by rw [Nat.le_zero.mp k]; rfl
  | n + 1, a, k => by
    unfold State.pathFrom
    by_cases q : a = b
    · subst q; simp
    · have e := hops_next s h q
      rw [if_neg q, List.length_cons, pathFrom_length s h b n _ (by omega), e]

/-- The hops of a message while the tables are those of reset (R90, R91). -/
theorem path_length (s : State) (h : s.routes = []) (a b : Nat) : (s.path a b).length = hops a b :=
  pathFrom_length s h b _ a (by omega)

/-- A timer that is added is there. -/
theorem mem_insertTimer (n : Nat) (e : Event) : ∀ l, (n, e) ∈ insertTimer n e l
  | [] => List.mem_singleton.mpr rfl
  | p :: r => by
    unfold insertTimer
    split
    · exact List.mem_cons_self
    · exact List.mem_cons_of_mem _ (mem_insertTimer n e r)

/-- A message arrives, and not before its own time (R64, R90). -/
theorem send_arrives (s : State) (cls a b extra : Nat) (e : Event) :
    ∃ n, (n, e) ∈ (s.send cls a b extra e).timers ∧ s.ck + extra + s.meshTime a b ≤ n := by
  have k : 0 < s.meshTime a b := by unfold State.meshTime; split <;> omega
  have after_timer (u : State) (d : Nat) (h : d ≠ 0) : (u.ck + d, e) ∈ (u.after d e).timers := by
    unfold State.after
    rw [if_neg h]
    exact mem_insertTimer _ _ _
  exact ⟨_, after_timer _ _ (by omega), by show _ ≤ s.ck + _; omega⟩

/-- A message on its way changes no register, no memory and no agent; it waits for its time (R64). -/
theorem send_frame (s : State) (cls a b extra : Nat) (e : Event) :
    (s.send cls a b extra e).mem = s.mem ∧ (s.send cls a b extra e).slots = s.slots ∧ (s.send cls a b extra e).cores = s.cores
      ∧ (s.send cls a b extra e).tiles = s.tiles ∧ (s.send cls a b extra e).domains = s.domains ∧ (s.send cls a b extra e).launches = s.launches
      ∧ (s.send cls a b extra e).copies = s.copies ∧ (s.send cls a b extra e).lines = s.lines := by
  unfold State.send State.after
  dsimp only
  split <;> exact ⟨rfl, rfl, rfl, rfl, rfl, rfl, rfl, rfl⟩

end Sys2Proof.Machine
end

