-- ==== Sys2Proof/Laws/Words.lean ====
section
/-!
SUPPORT. The fields that `unpack` cuts out of a packed word are those that `pack` put together (R249): one lemma for each
major, over lemmas about concatenated bit fields.
-/

-- One declaration at a time, so that the package as one text compiles in little memory.
set_option Elab.async false

namespace Sys2Proof.Laws

/-- A field that lies in the low part of a concatenation. -/
theorem extract_low {m n : Nat} (x : BitVec m) (y : BitVec n) (lo k : Nat) (h : lo + k ≤ n) :
    (x ++ y).extractLsb' lo k = y.extractLsb' lo k := by
  ext i hi
  have : lo + i < n := by omega
  simp [BitVec.getLsbD_append, this]

/-- The high part of a concatenation. -/
theorem extract_high {m n : Nat} (x : BitVec m) (y : BitVec n) : (x ++ y).extractLsb' n m = x := by
  ext i hi
  simp [BitVec.getLsbD_append, hi]

/-- The whole of a bit vector. -/
theorem extract_all {n : Nat} (x : BitVec n) : x.extractLsb' 0 n = x := by
  ext i
  simp

/-- Major 0x01: the format of its word. -/
theorem unpack_of_01 (w : BitVec 32) (g : BitVec 4) (d : BitVec 5) (a : BitVec 5) (b : BitVec 5) (fn : BitVec 7)
    (h0 : w.extractLsb' 26 6 = 0x1#6) (h1 : w.extractLsb' 22 4 = g) (h2 : w.extractLsb' 17 5 = d) (h3 : w.extractLsb' 12 5 = a) (h4 : w.extractLsb' 7 5 = b) (h5 : w.extractLsb' 0 7 = fn) :
    unpack w = some (Fields.rr 0x1#6 g d a b fn) := by
  unfold unpack
  simp only [h0, h1, h2, h3, h4, h5]
  rfl

/-- Major 0x01: its packed word. -/
theorem unpack_pack_01 (g : BitVec 4) (d : BitVec 5) (a : BitVec 5) (b : BitVec 5) (fn : BitVec 7) :
    unpack (Fields.pack (Fields.rr 0x1#6 g d a b fn)) = some (Fields.rr 0x1#6 g d a b fn) :=
  unpack_of_01 _ g d a b fn
    (extract_high _ _)
    ((extract_low _ _ 22 4 (by decide)).trans (extract_high _ _))
    ((extract_low _ _ 17 5 (by decide)).trans ((extract_low _ _ 17 5 (by decide)).trans (extract_high _ _)))
    ((extract_low _ _ 12 5 (by decide)).trans ((extract_low _ _ 12 5 (by decide)).trans ((extract_low _ _ 12 5 (by decide)).trans (extract_high _ _))))
    ((extract_low _ _ 7 5 (by decide)).trans ((extract_low _ _ 7 5 (by decide)).trans ((extract_low _ _ 7 5 (by decide)).trans ((extract_low _ _ 7 5 (by decide)).trans (extract_high _ _)))))
    ((extract_low _ _ 0 7 (by decide)).trans ((extract_low _ _ 0 7 (by decide)).trans ((extract_low _ _ 0 7 (by decide)).trans ((extract_low _ _ 0 7 (by decide)).trans ((extract_low _ _ 0 7 (by decide)).trans (extract_all _))))))

/-- Major 0x02: the format of its word. -/
theorem unpack_of_02 (w : BitVec 32) (d : BitVec 5) (a : BitVec 5) (imm : BitVec 16)
    (h0 : w.extractLsb' 26 6 = 0x2#6) (h1 : w.extractLsb' 21 5 = d) (h2 : w.extractLsb' 16 5 = a) (h3 : w.extractLsb' 0 16 = imm) :
    unpack w = some (Fields.ri 0x2#6 d a imm) := by
  unfold unpack
  simp only [h0, h1, h2, h3]
  rfl

/-- Major 0x02: its packed word. -/
theorem unpack_pack_02 (d : BitVec 5) (a : BitVec 5) (imm : BitVec 16) :
    unpack (Fields.pack (Fields.ri 0x2#6 d a imm)) = some (Fields.ri 0x2#6 d a imm) :=
  unpack_of_02 _ d a imm
    (extract_high _ _)
    ((extract_low _ _ 21 5 (by decide)).trans (extract_high _ _))
    ((extract_low _ _ 16 5 (by decide)).trans ((extract_low _ _ 16 5 (by decide)).trans (extract_high _ _)))
    ((extract_low _ _ 0 16 (by decide)).trans ((extract_low _ _ 0 16 (by decide)).trans ((extract_low _ _ 0 16 (by decide)).trans (extract_all _))))

/-- Major 0x03: the format of its word. -/
theorem unpack_of_03 (w : BitVec 32) (d : BitVec 5) (a : BitVec 5) (imm : BitVec 16)
    (h0 : w.extractLsb' 26 6 = 0x3#6) (h1 : w.extractLsb' 21 5 = d) (h2 : w.extractLsb' 16 5 = a) (h3 : w.extractLsb' 0 16 = imm) :
    unpack w = some (Fields.ri 0x3#6 d a imm) := by
  unfold unpack
  simp only [h0, h1, h2, h3]
  rfl

/-- Major 0x03: its packed word. -/
theorem unpack_pack_03 (d : BitVec 5) (a : BitVec 5) (imm : BitVec 16) :
    unpack (Fields.pack (Fields.ri 0x3#6 d a imm)) = some (Fields.ri 0x3#6 d a imm) :=
  unpack_of_03 _ d a imm
    (extract_high _ _)
    ((extract_low _ _ 21 5 (by decide)).trans (extract_high _ _))
    ((extract_low _ _ 16 5 (by decide)).trans ((extract_low _ _ 16 5 (by decide)).trans (extract_high _ _)))
    ((extract_low _ _ 0 16 (by decide)).trans ((extract_low _ _ 0 16 (by decide)).trans ((extract_low _ _ 0 16 (by decide)).trans (extract_all _))))

/-- Major 0x04: the format of its word. -/
theorem unpack_of_04 (w : BitVec 32) (d : BitVec 5) (a : BitVec 5) (imm : BitVec 16)
    (h0 : w.extractLsb' 26 6 = 0x4#6) (h1 : w.extractLsb' 21 5 = d) (h2 : w.extractLsb' 16 5 = a) (h3 : w.extractLsb' 0 16 = imm) :
    unpack w = some (Fields.ri 0x4#6 d a imm) := by
  unfold unpack
  simp only [h0, h1, h2, h3]
  rfl

/-- Major 0x04: its packed word. -/
theorem unpack_pack_04 (d : BitVec 5) (a : BitVec 5) (imm : BitVec 16) :
    unpack (Fields.pack (Fields.ri 0x4#6 d a imm)) = some (Fields.ri 0x4#6 d a imm) :=
  unpack_of_04 _ d a imm
    (extract_high _ _)
    ((extract_low _ _ 21 5 (by decide)).trans (extract_high _ _))
    ((extract_low _ _ 16 5 (by decide)).trans ((extract_low _ _ 16 5 (by decide)).trans (extract_high _ _)))
    ((extract_low _ _ 0 16 (by decide)).trans ((extract_low _ _ 0 16 (by decide)).trans ((extract_low _ _ 0 16 (by decide)).trans (extract_all _))))

/-- Major 0x05: the format of its word. -/
theorem unpack_of_05 (w : BitVec 32) (d : BitVec 5) (a : BitVec 5) (imm : BitVec 16)
    (h0 : w.extractLsb' 26 6 = 0x5#6) (h1 : w.extractLsb' 21 5 = d) (h2 : w.extractLsb' 16 5 = a) (h3 : w.extractLsb' 0 16 = imm) :
    unpack w = some (Fields.ri 0x5#6 d a imm) := by
  unfold unpack
  simp only [h0, h1, h2, h3]
  rfl

/-- Major 0x05: its packed word. -/
theorem unpack_pack_05 (d : BitVec 5) (a : BitVec 5) (imm : BitVec 16) :
    unpack (Fields.pack (Fields.ri 0x5#6 d a imm)) = some (Fields.ri 0x5#6 d a imm) :=
  unpack_of_05 _ d a imm
    (extract_high _ _)
    ((extract_low _ _ 21 5 (by decide)).trans (extract_high _ _))
    ((extract_low _ _ 16 5 (by decide)).trans ((extract_low _ _ 16 5 (by decide)).trans (extract_high _ _)))
    ((extract_low _ _ 0 16 (by decide)).trans ((extract_low _ _ 0 16 (by decide)).trans ((extract_low _ _ 0 16 (by decide)).trans (extract_all _))))

/-- Major 0x06: the format of its word. -/
theorem unpack_of_06 (w : BitVec 32) (d : BitVec 5) (imm : BitVec 21)
    (h0 : w.extractLsb' 26 6 = 0x6#6) (h1 : w.extractLsb' 21 5 = d) (h2 : w.extractLsb' 0 21 = imm) :
    unpack w = some (Fields.rl 0x6#6 d imm) := by
  unfold unpack
  simp only [h0, h1, h2]
  rfl

/-- Major 0x06: its packed word. -/
theorem unpack_pack_06 (d : BitVec 5) (imm : BitVec 21) :
    unpack (Fields.pack (Fields.rl 0x6#6 d imm)) = some (Fields.rl 0x6#6 d imm) :=
  unpack_of_06 _ d imm
    (extract_high _ _)
    ((extract_low _ _ 21 5 (by decide)).trans (extract_high _ _))
    ((extract_low _ _ 0 21 (by decide)).trans ((extract_low _ _ 0 21 (by decide)).trans (extract_all _)))

/-- Major 0x07: the format of its word. -/
theorem unpack_of_07 (w : BitVec 32) (d : BitVec 5) (a : BitVec 5) (imm : BitVec 16)
    (h0 : w.extractLsb' 26 6 = 0x7#6) (h1 : w.extractLsb' 21 5 = d) (h2 : w.extractLsb' 16 5 = a) (h3 : w.extractLsb' 0 16 = imm) :
    unpack w = some (Fields.ri 0x7#6 d a imm) := by
  unfold unpack
  simp only [h0, h1, h2, h3]
  rfl

/-- Major 0x07: its packed word. -/
theorem unpack_pack_07 (d : BitVec 5) (a : BitVec 5) (imm : BitVec 16) :
    unpack (Fields.pack (Fields.ri 0x7#6 d a imm)) = some (Fields.ri 0x7#6 d a imm) :=
  unpack_of_07 _ d a imm
    (extract_high _ _)
    ((extract_low _ _ 21 5 (by decide)).trans (extract_high _ _))
    ((extract_low _ _ 16 5 (by decide)).trans ((extract_low _ _ 16 5 (by decide)).trans (extract_high _ _)))
    ((extract_low _ _ 0 16 (by decide)).trans ((extract_low _ _ 0 16 (by decide)).trans ((extract_low _ _ 0 16 (by decide)).trans (extract_all _))))

/-- Major 0x08: the format of its word. -/
theorem unpack_of_08 (w : BitVec 32) (d : BitVec 5) (imm : BitVec 21)
    (h0 : w.extractLsb' 26 6 = 0x8#6) (h1 : w.extractLsb' 21 5 = d) (h2 : w.extractLsb' 0 21 = imm) :
    unpack w = some (Fields.rl 0x8#6 d imm) := by
  unfold unpack
  simp only [h0, h1, h2]
  rfl

/-- Major 0x08: its packed word. -/
theorem unpack_pack_08 (d : BitVec 5) (imm : BitVec 21) :
    unpack (Fields.pack (Fields.rl 0x8#6 d imm)) = some (Fields.rl 0x8#6 d imm) :=
  unpack_of_08 _ d imm
    (extract_high _ _)
    ((extract_low _ _ 21 5 (by decide)).trans (extract_high _ _))
    ((extract_low _ _ 0 21 (by decide)).trans ((extract_low _ _ 0 21 (by decide)).trans (extract_all _)))

/-- Major 0x09: the format of its word. -/
theorem unpack_of_09 (w : BitVec 32) (d : BitVec 5) (a : BitVec 5) (pos : BitVec 6) (len : BitVec 6) (fn : BitVec 4)
    (h0 : w.extractLsb' 26 6 = 0x9#6) (h1 : w.extractLsb' 21 5 = d) (h2 : w.extractLsb' 16 5 = a) (h3 : w.extractLsb' 10 6 = pos) (h4 : w.extractLsb' 4 6 = len) (h5 : w.extractLsb' 0 4 = fn) :
    unpack w = some (Fields.bf 0x9#6 d a pos len fn) := by
  unfold unpack
  simp only [h0, h1, h2, h3, h4, h5]
  rfl

/-- Major 0x09: its packed word. -/
theorem unpack_pack_09 (d : BitVec 5) (a : BitVec 5) (pos : BitVec 6) (len : BitVec 6) (fn : BitVec 4) :
    unpack (Fields.pack (Fields.bf 0x9#6 d a pos len fn)) = some (Fields.bf 0x9#6 d a pos len fn) :=
  unpack_of_09 _ d a pos len fn
    (extract_high _ _)
    ((extract_low _ _ 21 5 (by decide)).trans (extract_high _ _))
    ((extract_low _ _ 16 5 (by decide)).trans ((extract_low _ _ 16 5 (by decide)).trans (extract_high _ _)))
    ((extract_low _ _ 10 6 (by decide)).trans ((extract_low _ _ 10 6 (by decide)).trans ((extract_low _ _ 10 6 (by decide)).trans (extract_high _ _))))
    ((extract_low _ _ 4 6 (by decide)).trans ((extract_low _ _ 4 6 (by decide)).trans ((extract_low _ _ 4 6 (by decide)).trans ((extract_low _ _ 4 6 (by decide)).trans (extract_high _ _)))))
    ((extract_low _ _ 0 4 (by decide)).trans ((extract_low _ _ 0 4 (by decide)).trans ((extract_low _ _ 0 4 (by decide)).trans ((extract_low _ _ 0 4 (by decide)).trans ((extract_low _ _ 0 4 (by decide)).trans (extract_all _))))))

/-- Major 0x0a: the format of its word. -/
theorem unpack_of_0a (w : BitVec 32) (off : BitVec 26)
    (h0 : w.extractLsb' 26 6 = 0xa#6) (h1 : w.extractLsb' 0 26 = off) :
    unpack w = some (Fields.j 0xa#6 off) := by
  unfold unpack
  simp only [h0, h1]
  rfl

/-- Major 0x0a: its packed word. -/
theorem unpack_pack_0a (off : BitVec 26) :
    unpack (Fields.pack (Fields.j 0xa#6 off)) = some (Fields.j 0xa#6 off) :=
  unpack_of_0a _ off
    (extract_high _ _)
    ((extract_low _ _ 0 26 (by decide)).trans (extract_all _))

/-- Major 0x0b: the format of its word. -/
theorem unpack_of_0b (w : BitVec 32) (off : BitVec 26)
    (h0 : w.extractLsb' 26 6 = 0xb#6) (h1 : w.extractLsb' 0 26 = off) :
    unpack w = some (Fields.j 0xb#6 off) := by
  unfold unpack
  simp only [h0, h1]
  rfl

/-- Major 0x0b: its packed word. -/
theorem unpack_pack_0b (off : BitVec 26) :
    unpack (Fields.pack (Fields.j 0xb#6 off)) = some (Fields.j 0xb#6 off) :=
  unpack_of_0b _ off
    (extract_high _ _)
    ((extract_low _ _ 0 26 (by decide)).trans (extract_all _))

/-- Major 0x0c: the format of its word. -/
theorem unpack_of_0c (w : BitVec 32) (a : BitVec 5) (cc : BitVec 4) (off : BitVec 17)
    (h0 : w.extractLsb' 26 6 = 0xc#6) (h1 : w.extractLsb' 21 5 = a) (h2 : w.extractLsb' 17 4 = cc) (h3 : w.extractLsb' 0 17 = off) :
    unpack w = some (Fields.bc 0xc#6 a cc off) := by
  unfold unpack
  simp only [h0, h1, h2, h3]
  rfl

/-- Major 0x0c: its packed word. -/
theorem unpack_pack_0c (a : BitVec 5) (cc : BitVec 4) (off : BitVec 17) :
    unpack (Fields.pack (Fields.bc 0xc#6 a cc off)) = some (Fields.bc 0xc#6 a cc off) :=
  unpack_of_0c _ a cc off
    (extract_high _ _)
    ((extract_low _ _ 21 5 (by decide)).trans (extract_high _ _))
    ((extract_low _ _ 17 4 (by decide)).trans ((extract_low _ _ 17 4 (by decide)).trans (extract_high _ _)))
    ((extract_low _ _ 0 17 (by decide)).trans ((extract_low _ _ 0 17 (by decide)).trans ((extract_low _ _ 0 17 (by decide)).trans (extract_all _))))

/-- Major 0x0d: the format of its word. -/
theorem unpack_of_0d (w : BitVec 32) (a : BitVec 5) (b : BitVec 5) (cc : BitVec 4) (off : BitVec 12)
    (h0 : w.extractLsb' 26 6 = 0xd#6) (h1 : w.extractLsb' 21 5 = a) (h2 : w.extractLsb' 16 5 = b) (h3 : w.extractLsb' 12 4 = cc) (h4 : w.extractLsb' 0 12 = off) :
    unpack w = some (Fields.bx 0xd#6 a b cc off) := by
  unfold unpack
  simp only [h0, h1, h2, h3, h4]
  rfl

/-- Major 0x0d: its packed word. -/
theorem unpack_pack_0d (a : BitVec 5) (b : BitVec 5) (cc : BitVec 4) (off : BitVec 12) :
    unpack (Fields.pack (Fields.bx 0xd#6 a b cc off)) = some (Fields.bx 0xd#6 a b cc off) :=
  unpack_of_0d _ a b cc off
    (extract_high _ _)
    ((extract_low _ _ 21 5 (by decide)).trans (extract_high _ _))
    ((extract_low _ _ 16 5 (by decide)).trans ((extract_low _ _ 16 5 (by decide)).trans (extract_high _ _)))
    ((extract_low _ _ 12 4 (by decide)).trans ((extract_low _ _ 12 4 (by decide)).trans ((extract_low _ _ 12 4 (by decide)).trans (extract_high _ _))))
    ((extract_low _ _ 0 12 (by decide)).trans ((extract_low _ _ 0 12 (by decide)).trans ((extract_low _ _ 0 12 (by decide)).trans ((extract_low _ _ 0 12 (by decide)).trans (extract_all _)))))

/-- Major 0x0e: the format of its word. -/
theorem unpack_of_0e (w : BitVec 32) (d : BitVec 5) (a : BitVec 5) (b : BitVec 5) (x : BitVec 5) (fn : BitVec 6)
    (h0 : w.extractLsb' 26 6 = 0xe#6) (h1 : w.extractLsb' 21 5 = d) (h2 : w.extractLsb' 16 5 = a) (h3 : w.extractLsb' 11 5 = b) (h4 : w.extractLsb' 6 5 = x) (h5 : w.extractLsb' 0 6 = fn) :
    unpack w = some (Fields.sc 0xe#6 d a b x fn) := by
  unfold unpack
  simp only [h0, h1, h2, h3, h4, h5]
  rfl

/-- Major 0x0e: its packed word. -/
theorem unpack_pack_0e (d : BitVec 5) (a : BitVec 5) (b : BitVec 5) (x : BitVec 5) (fn : BitVec 6) :
    unpack (Fields.pack (Fields.sc 0xe#6 d a b x fn)) = some (Fields.sc 0xe#6 d a b x fn) :=
  unpack_of_0e _ d a b x fn
    (extract_high _ _)
    ((extract_low _ _ 21 5 (by decide)).trans (extract_high _ _))
    ((extract_low _ _ 16 5 (by decide)).trans ((extract_low _ _ 16 5 (by decide)).trans (extract_high _ _)))
    ((extract_low _ _ 11 5 (by decide)).trans ((extract_low _ _ 11 5 (by decide)).trans ((extract_low _ _ 11 5 (by decide)).trans (extract_high _ _))))
    ((extract_low _ _ 6 5 (by decide)).trans ((extract_low _ _ 6 5 (by decide)).trans ((extract_low _ _ 6 5 (by decide)).trans ((extract_low _ _ 6 5 (by decide)).trans (extract_high _ _)))))
    ((extract_low _ _ 0 6 (by decide)).trans ((extract_low _ _ 0 6 (by decide)).trans ((extract_low _ _ 0 6 (by decide)).trans ((extract_low _ _ 0 6 (by decide)).trans ((extract_low _ _ 0 6 (by decide)).trans (extract_all _))))))

/-- Major 0x0f: the format of its word. -/
theorem unpack_of_0f (w : BitVec 32) (lvl : BitVec 2) (rot : BitVec 1) (cnt : BitVec 11) (len : BitVec 12)
    (h0 : w.extractLsb' 26 6 = 0xf#6) (h1 : w.extractLsb' 24 2 = lvl) (h2 : w.extractLsb' 23 1 = rot) (h3 : w.extractLsb' 12 11 = cnt) (h4 : w.extractLsb' 0 12 = len) :
    unpack w = some (Fields.lp 0xf#6 lvl rot cnt len) := by
  unfold unpack
  simp only [h0, h1, h2, h3, h4]
  rfl

/-- Major 0x0f: its packed word. -/
theorem unpack_pack_0f (lvl : BitVec 2) (rot : BitVec 1) (cnt : BitVec 11) (len : BitVec 12) :
    unpack (Fields.pack (Fields.lp 0xf#6 lvl rot cnt len)) = some (Fields.lp 0xf#6 lvl rot cnt len) :=
  unpack_of_0f _ lvl rot cnt len
    (extract_high _ _)
    ((extract_low _ _ 24 2 (by decide)).trans (extract_high _ _))
    ((extract_low _ _ 23 1 (by decide)).trans ((extract_low _ _ 23 1 (by decide)).trans (extract_high _ _)))
    ((extract_low _ _ 12 11 (by decide)).trans ((extract_low _ _ 12 11 (by decide)).trans ((extract_low _ _ 12 11 (by decide)).trans (extract_high _ _))))
    ((extract_low _ _ 0 12 (by decide)).trans ((extract_low _ _ 0 12 (by decide)).trans ((extract_low _ _ 0 12 (by decide)).trans ((extract_low _ _ 0 12 (by decide)).trans (extract_all _)))))

/-- Major 0x10: the format of its word. -/
theorem unpack_of_10 (w : BitVec 32) (lvl : BitVec 2) (rot : BitVec 1) (cnt : BitVec 11) (len : BitVec 12)
    (h0 : w.extractLsb' 26 6 = 0x10#6) (h1 : w.extractLsb' 24 2 = lvl) (h2 : w.extractLsb' 23 1 = rot) (h3 : w.extractLsb' 12 11 = cnt) (h4 : w.extractLsb' 0 12 = len) :
    unpack w = some (Fields.lp 0x10#6 lvl rot cnt len) := by
  unfold unpack
  simp only [h0, h1, h2, h3, h4]
  rfl

/-- Major 0x10: its packed word. -/
theorem unpack_pack_10 (lvl : BitVec 2) (rot : BitVec 1) (cnt : BitVec 11) (len : BitVec 12) :
    unpack (Fields.pack (Fields.lp 0x10#6 lvl rot cnt len)) = some (Fields.lp 0x10#6 lvl rot cnt len) :=
  unpack_of_10 _ lvl rot cnt len
    (extract_high _ _)
    ((extract_low _ _ 24 2 (by decide)).trans (extract_high _ _))
    ((extract_low _ _ 23 1 (by decide)).trans ((extract_low _ _ 23 1 (by decide)).trans (extract_high _ _)))
    ((extract_low _ _ 12 11 (by decide)).trans ((extract_low _ _ 12 11 (by decide)).trans ((extract_low _ _ 12 11 (by decide)).trans (extract_high _ _))))
    ((extract_low _ _ 0 12 (by decide)).trans ((extract_low _ _ 0 12 (by decide)).trans ((extract_low _ _ 0 12 (by decide)).trans ((extract_low _ _ 0 12 (by decide)).trans (extract_all _)))))

/-- Major 0x11: the format of its word. -/
theorem unpack_of_11 (w : BitVec 32) (d : BitVec 5) (a : BitVec 5) (b : BitVec 5) (x : BitVec 5) (fn : BitVec 6)
    (h0 : w.extractLsb' 26 6 = 0x11#6) (h1 : w.extractLsb' 21 5 = d) (h2 : w.extractLsb' 16 5 = a) (h3 : w.extractLsb' 11 5 = b) (h4 : w.extractLsb' 6 5 = x) (h5 : w.extractLsb' 0 6 = fn) :
    unpack w = some (Fields.sc 0x11#6 d a b x fn) := by
  unfold unpack
  simp only [h0, h1, h2, h3, h4, h5]
  rfl

/-- Major 0x11: its packed word. -/
theorem unpack_pack_11 (d : BitVec 5) (a : BitVec 5) (b : BitVec 5) (x : BitVec 5) (fn : BitVec 6) :
    unpack (Fields.pack (Fields.sc 0x11#6 d a b x fn)) = some (Fields.sc 0x11#6 d a b x fn) :=
  unpack_of_11 _ d a b x fn
    (extract_high _ _)
    ((extract_low _ _ 21 5 (by decide)).trans (extract_high _ _))
    ((extract_low _ _ 16 5 (by decide)).trans ((extract_low _ _ 16 5 (by decide)).trans (extract_high _ _)))
    ((extract_low _ _ 11 5 (by decide)).trans ((extract_low _ _ 11 5 (by decide)).trans ((extract_low _ _ 11 5 (by decide)).trans (extract_high _ _))))
    ((extract_low _ _ 6 5 (by decide)).trans ((extract_low _ _ 6 5 (by decide)).trans ((extract_low _ _ 6 5 (by decide)).trans ((extract_low _ _ 6 5 (by decide)).trans (extract_high _ _)))))
    ((extract_low _ _ 0 6 (by decide)).trans ((extract_low _ _ 0 6 (by decide)).trans ((extract_low _ _ 0 6 (by decide)).trans ((extract_low _ _ 0 6 (by decide)).trans ((extract_low _ _ 0 6 (by decide)).trans (extract_all _))))))

/-- Major 0x12: the format of its word. -/
theorem unpack_of_12 (w : BitVec 32) (g : BitVec 4) (d : BitVec 5) (a : BitVec 5) (fn : BitVec 3) (off : BitVec 9)
    (h0 : w.extractLsb' 26 6 = 0x12#6) (h1 : w.extractLsb' 22 4 = g) (h2 : w.extractLsb' 17 5 = d) (h3 : w.extractLsb' 12 5 = a) (h4 : w.extractLsb' 9 3 = fn) (h5 : w.extractLsb' 0 9 = off) :
    unpack w = some (Fields.mr 0x12#6 g d a fn off) := by
  unfold unpack
  simp only [h0, h1, h2, h3, h4, h5]
  rfl

/-- Major 0x12: its packed word. -/
theorem unpack_pack_12 (g : BitVec 4) (d : BitVec 5) (a : BitVec 5) (fn : BitVec 3) (off : BitVec 9) :
    unpack (Fields.pack (Fields.mr 0x12#6 g d a fn off)) = some (Fields.mr 0x12#6 g d a fn off) :=
  unpack_of_12 _ g d a fn off
    (extract_high _ _)
    ((extract_low _ _ 22 4 (by decide)).trans (extract_high _ _))
    ((extract_low _ _ 17 5 (by decide)).trans ((extract_low _ _ 17 5 (by decide)).trans (extract_high _ _)))
    ((extract_low _ _ 12 5 (by decide)).trans ((extract_low _ _ 12 5 (by decide)).trans ((extract_low _ _ 12 5 (by decide)).trans (extract_high _ _))))
    ((extract_low _ _ 9 3 (by decide)).trans ((extract_low _ _ 9 3 (by decide)).trans ((extract_low _ _ 9 3 (by decide)).trans ((extract_low _ _ 9 3 (by decide)).trans (extract_high _ _)))))
    ((extract_low _ _ 0 9 (by decide)).trans ((extract_low _ _ 0 9 (by decide)).trans ((extract_low _ _ 0 9 (by decide)).trans ((extract_low _ _ 0 9 (by decide)).trans ((extract_low _ _ 0 9 (by decide)).trans (extract_all _))))))

/-- Major 0x13: the format of its word. -/
theorem unpack_of_13 (w : BitVec 32) (g : BitVec 4) (d : BitVec 5) (a : BitVec 5) (fn : BitVec 3) (off : BitVec 9)
    (h0 : w.extractLsb' 26 6 = 0x13#6) (h1 : w.extractLsb' 22 4 = g) (h2 : w.extractLsb' 17 5 = d) (h3 : w.extractLsb' 12 5 = a) (h4 : w.extractLsb' 9 3 = fn) (h5 : w.extractLsb' 0 9 = off) :
    unpack w = some (Fields.mr 0x13#6 g d a fn off) := by
  unfold unpack
  simp only [h0, h1, h2, h3, h4, h5]
  rfl

/-- Major 0x13: its packed word. -/
theorem unpack_pack_13 (g : BitVec 4) (d : BitVec 5) (a : BitVec 5) (fn : BitVec 3) (off : BitVec 9) :
    unpack (Fields.pack (Fields.mr 0x13#6 g d a fn off)) = some (Fields.mr 0x13#6 g d a fn off) :=
  unpack_of_13 _ g d a fn off
    (extract_high _ _)
    ((extract_low _ _ 22 4 (by decide)).trans (extract_high _ _))
    ((extract_low _ _ 17 5 (by decide)).trans ((extract_low _ _ 17 5 (by decide)).trans (extract_high _ _)))
    ((extract_low _ _ 12 5 (by decide)).trans ((extract_low _ _ 12 5 (by decide)).trans ((extract_low _ _ 12 5 (by decide)).trans (extract_high _ _))))
    ((extract_low _ _ 9 3 (by decide)).trans ((extract_low _ _ 9 3 (by decide)).trans ((extract_low _ _ 9 3 (by decide)).trans ((extract_low _ _ 9 3 (by decide)).trans (extract_high _ _)))))
    ((extract_low _ _ 0 9 (by decide)).trans ((extract_low _ _ 0 9 (by decide)).trans ((extract_low _ _ 0 9 (by decide)).trans ((extract_low _ _ 0 9 (by decide)).trans ((extract_low _ _ 0 9 (by decide)).trans (extract_all _))))))

/-- Major 0x14: the format of its word. -/
theorem unpack_of_14 (w : BitVec 32) (d : BitVec 5) (a : BitVec 5) (b : BitVec 5) (x : BitVec 5) (fn : BitVec 6)
    (h0 : w.extractLsb' 26 6 = 0x14#6) (h1 : w.extractLsb' 21 5 = d) (h2 : w.extractLsb' 16 5 = a) (h3 : w.extractLsb' 11 5 = b) (h4 : w.extractLsb' 6 5 = x) (h5 : w.extractLsb' 0 6 = fn) :
    unpack w = some (Fields.sc 0x14#6 d a b x fn) := by
  unfold unpack
  simp only [h0, h1, h2, h3, h4, h5]
  rfl

/-- Major 0x14: its packed word. -/
theorem unpack_pack_14 (d : BitVec 5) (a : BitVec 5) (b : BitVec 5) (x : BitVec 5) (fn : BitVec 6) :
    unpack (Fields.pack (Fields.sc 0x14#6 d a b x fn)) = some (Fields.sc 0x14#6 d a b x fn) :=
  unpack_of_14 _ d a b x fn
    (extract_high _ _)
    ((extract_low _ _ 21 5 (by decide)).trans (extract_high _ _))
    ((extract_low _ _ 16 5 (by decide)).trans ((extract_low _ _ 16 5 (by decide)).trans (extract_high _ _)))
    ((extract_low _ _ 11 5 (by decide)).trans ((extract_low _ _ 11 5 (by decide)).trans ((extract_low _ _ 11 5 (by decide)).trans (extract_high _ _))))
    ((extract_low _ _ 6 5 (by decide)).trans ((extract_low _ _ 6 5 (by decide)).trans ((extract_low _ _ 6 5 (by decide)).trans ((extract_low _ _ 6 5 (by decide)).trans (extract_high _ _)))))
    ((extract_low _ _ 0 6 (by decide)).trans ((extract_low _ _ 0 6 (by decide)).trans ((extract_low _ _ 0 6 (by decide)).trans ((extract_low _ _ 0 6 (by decide)).trans ((extract_low _ _ 0 6 (by decide)).trans (extract_all _))))))

/-- Major 0x15: the format of its word. -/
theorem unpack_of_15 (w : BitVec 32) (d : BitVec 5) (a : BitVec 5) (b : BitVec 5) (x : BitVec 5) (fn : BitVec 6)
    (h0 : w.extractLsb' 26 6 = 0x15#6) (h1 : w.extractLsb' 21 5 = d) (h2 : w.extractLsb' 16 5 = a) (h3 : w.extractLsb' 11 5 = b) (h4 : w.extractLsb' 6 5 = x) (h5 : w.extractLsb' 0 6 = fn) :
    unpack w = some (Fields.sc 0x15#6 d a b x fn) := by
  unfold unpack
  simp only [h0, h1, h2, h3, h4, h5]
  rfl

/-- Major 0x15: its packed word. -/
theorem unpack_pack_15 (d : BitVec 5) (a : BitVec 5) (b : BitVec 5) (x : BitVec 5) (fn : BitVec 6) :
    unpack (Fields.pack (Fields.sc 0x15#6 d a b x fn)) = some (Fields.sc 0x15#6 d a b x fn) :=
  unpack_of_15 _ d a b x fn
    (extract_high _ _)
    ((extract_low _ _ 21 5 (by decide)).trans (extract_high _ _))
    ((extract_low _ _ 16 5 (by decide)).trans ((extract_low _ _ 16 5 (by decide)).trans (extract_high _ _)))
    ((extract_low _ _ 11 5 (by decide)).trans ((extract_low _ _ 11 5 (by decide)).trans ((extract_low _ _ 11 5 (by decide)).trans (extract_high _ _))))
    ((extract_low _ _ 6 5 (by decide)).trans ((extract_low _ _ 6 5 (by decide)).trans ((extract_low _ _ 6 5 (by decide)).trans ((extract_low _ _ 6 5 (by decide)).trans (extract_high _ _)))))
    ((extract_low _ _ 0 6 (by decide)).trans ((extract_low _ _ 0 6 (by decide)).trans ((extract_low _ _ 0 6 (by decide)).trans ((extract_low _ _ 0 6 (by decide)).trans ((extract_low _ _ 0 6 (by decide)).trans (extract_all _))))))

/-- Major 0x16: the format of its word. -/
theorem unpack_of_16 (w : BitVec 32) (d : BitVec 5) (a : BitVec 5) (b : BitVec 5) (x : BitVec 5) (fn : BitVec 6)
    (h0 : w.extractLsb' 26 6 = 0x16#6) (h1 : w.extractLsb' 21 5 = d) (h2 : w.extractLsb' 16 5 = a) (h3 : w.extractLsb' 11 5 = b) (h4 : w.extractLsb' 6 5 = x) (h5 : w.extractLsb' 0 6 = fn) :
    unpack w = some (Fields.sc 0x16#6 d a b x fn) := by
  unfold unpack
  simp only [h0, h1, h2, h3, h4, h5]
  rfl

/-- Major 0x16: its packed word. -/
theorem unpack_pack_16 (d : BitVec 5) (a : BitVec 5) (b : BitVec 5) (x : BitVec 5) (fn : BitVec 6) :
    unpack (Fields.pack (Fields.sc 0x16#6 d a b x fn)) = some (Fields.sc 0x16#6 d a b x fn) :=
  unpack_of_16 _ d a b x fn
    (extract_high _ _)
    ((extract_low _ _ 21 5 (by decide)).trans (extract_high _ _))
    ((extract_low _ _ 16 5 (by decide)).trans ((extract_low _ _ 16 5 (by decide)).trans (extract_high _ _)))
    ((extract_low _ _ 11 5 (by decide)).trans ((extract_low _ _ 11 5 (by decide)).trans ((extract_low _ _ 11 5 (by decide)).trans (extract_high _ _))))
    ((extract_low _ _ 6 5 (by decide)).trans ((extract_low _ _ 6 5 (by decide)).trans ((extract_low _ _ 6 5 (by decide)).trans ((extract_low _ _ 6 5 (by decide)).trans (extract_high _ _)))))
    ((extract_low _ _ 0 6 (by decide)).trans ((extract_low _ _ 0 6 (by decide)).trans ((extract_low _ _ 0 6 (by decide)).trans ((extract_low _ _ 0 6 (by decide)).trans ((extract_low _ _ 0 6 (by decide)).trans (extract_all _))))))

/-- Major 0x17: the format of its word. -/
theorem unpack_of_17 (w : BitVec 32) (d : BitVec 5) (a : BitVec 5) (b : BitVec 5) (x : BitVec 5) (fn : BitVec 6)
    (h0 : w.extractLsb' 26 6 = 0x17#6) (h1 : w.extractLsb' 21 5 = d) (h2 : w.extractLsb' 16 5 = a) (h3 : w.extractLsb' 11 5 = b) (h4 : w.extractLsb' 6 5 = x) (h5 : w.extractLsb' 0 6 = fn) :
    unpack w = some (Fields.sc 0x17#6 d a b x fn) := by
  unfold unpack
  simp only [h0, h1, h2, h3, h4, h5]
  rfl

/-- Major 0x17: its packed word. -/
theorem unpack_pack_17 (d : BitVec 5) (a : BitVec 5) (b : BitVec 5) (x : BitVec 5) (fn : BitVec 6) :
    unpack (Fields.pack (Fields.sc 0x17#6 d a b x fn)) = some (Fields.sc 0x17#6 d a b x fn) :=
  unpack_of_17 _ d a b x fn
    (extract_high _ _)
    ((extract_low _ _ 21 5 (by decide)).trans (extract_high _ _))
    ((extract_low _ _ 16 5 (by decide)).trans ((extract_low _ _ 16 5 (by decide)).trans (extract_high _ _)))
    ((extract_low _ _ 11 5 (by decide)).trans ((extract_low _ _ 11 5 (by decide)).trans ((extract_low _ _ 11 5 (by decide)).trans (extract_high _ _))))
    ((extract_low _ _ 6 5 (by decide)).trans ((extract_low _ _ 6 5 (by decide)).trans ((extract_low _ _ 6 5 (by decide)).trans ((extract_low _ _ 6 5 (by decide)).trans (extract_high _ _)))))
    ((extract_low _ _ 0 6 (by decide)).trans ((extract_low _ _ 0 6 (by decide)).trans ((extract_low _ _ 0 6 (by decide)).trans ((extract_low _ _ 0 6 (by decide)).trans ((extract_low _ _ 0 6 (by decide)).trans (extract_all _))))))

/-- Major 0x20: the format of its word. -/
theorem unpack_of_20 (w : BitVec 32) (g : BitVec 4) (d : BitVec 5) (a : BitVec 5) (b : BitVec 5) (qd : BitVec 1) (qa : BitVec 1) (qb : BitVec 1) (u : BitVec 1) (fn : BitVec 3)
    (h0 : w.extractLsb' 26 6 = 0x20#6) (h1 : w.extractLsb' 22 4 = g) (h2 : w.extractLsb' 17 5 = d) (h3 : w.extractLsb' 12 5 = a) (h4 : w.extractLsb' 7 5 = b) (h5 : w.extractLsb' 6 1 = qd) (h6 : w.extractLsb' 5 1 = qa) (h7 : w.extractLsb' 4 1 = qb) (h8 : w.extractLsb' 3 1 = u) (h9 : w.extractLsb' 0 3 = fn) :
    unpack w = some (Fields.vv 0x20#6 g d a b qd qa qb u fn) := by
  unfold unpack
  simp only [h0, h1, h2, h3, h4, h5, h6, h7, h8, h9]
  rfl

/-- Major 0x20: its packed word. -/
theorem unpack_pack_20 (g : BitVec 4) (d : BitVec 5) (a : BitVec 5) (b : BitVec 5) (qd : BitVec 1) (qa : BitVec 1) (qb : BitVec 1) (u : BitVec 1) (fn : BitVec 3) :
    unpack (Fields.pack (Fields.vv 0x20#6 g d a b qd qa qb u fn)) = some (Fields.vv 0x20#6 g d a b qd qa qb u fn) :=
  unpack_of_20 _ g d a b qd qa qb u fn
    (extract_high _ _)
    ((extract_low _ _ 22 4 (by decide)).trans (extract_high _ _))
    ((extract_low _ _ 17 5 (by decide)).trans ((extract_low _ _ 17 5 (by decide)).trans (extract_high _ _)))
    ((extract_low _ _ 12 5 (by decide)).trans ((extract_low _ _ 12 5 (by decide)).trans ((extract_low _ _ 12 5 (by decide)).trans (extract_high _ _))))
    ((extract_low _ _ 7 5 (by decide)).trans ((extract_low _ _ 7 5 (by decide)).trans ((extract_low _ _ 7 5 (by decide)).trans ((extract_low _ _ 7 5 (by decide)).trans (extract_high _ _)))))
    ((extract_low _ _ 6 1 (by decide)).trans ((extract_low _ _ 6 1 (by decide)).trans ((extract_low _ _ 6 1 (by decide)).trans ((extract_low _ _ 6 1 (by decide)).trans ((extract_low _ _ 6 1 (by decide)).trans (extract_high _ _))))))
    ((extract_low _ _ 5 1 (by decide)).trans ((extract_low _ _ 5 1 (by decide)).trans ((extract_low _ _ 5 1 (by decide)).trans ((extract_low _ _ 5 1 (by decide)).trans ((extract_low _ _ 5 1 (by decide)).trans ((extract_low _ _ 5 1 (by decide)).trans (extract_high _ _)))))))
    ((extract_low _ _ 4 1 (by decide)).trans ((extract_low _ _ 4 1 (by decide)).trans ((extract_low _ _ 4 1 (by decide)).trans ((extract_low _ _ 4 1 (by decide)).trans ((extract_low _ _ 4 1 (by decide)).trans ((extract_low _ _ 4 1 (by decide)).trans ((extract_low _ _ 4 1 (by decide)).trans (extract_high _ _))))))))
    ((extract_low _ _ 3 1 (by decide)).trans ((extract_low _ _ 3 1 (by decide)).trans ((extract_low _ _ 3 1 (by decide)).trans ((extract_low _ _ 3 1 (by decide)).trans ((extract_low _ _ 3 1 (by decide)).trans ((extract_low _ _ 3 1 (by decide)).trans ((extract_low _ _ 3 1 (by decide)).trans ((extract_low _ _ 3 1 (by decide)).trans (extract_high _ _)))))))))
    ((extract_low _ _ 0 3 (by decide)).trans ((extract_low _ _ 0 3 (by decide)).trans ((extract_low _ _ 0 3 (by decide)).trans ((extract_low _ _ 0 3 (by decide)).trans ((extract_low _ _ 0 3 (by decide)).trans ((extract_low _ _ 0 3 (by decide)).trans ((extract_low _ _ 0 3 (by decide)).trans ((extract_low _ _ 0 3 (by decide)).trans ((extract_low _ _ 0 3 (by decide)).trans (extract_all _))))))))))

/-- Major 0x21: the format of its word. -/
theorem unpack_of_21 (w : BitVec 32) (g : BitVec 4) (d : BitVec 5) (a : BitVec 5) (b : BitVec 5) (qd : BitVec 1) (qa : BitVec 1) (qb : BitVec 1) (u : BitVec 1) (fn : BitVec 3)
    (h0 : w.extractLsb' 26 6 = 0x21#6) (h1 : w.extractLsb' 22 4 = g) (h2 : w.extractLsb' 17 5 = d) (h3 : w.extractLsb' 12 5 = a) (h4 : w.extractLsb' 7 5 = b) (h5 : w.extractLsb' 6 1 = qd) (h6 : w.extractLsb' 5 1 = qa) (h7 : w.extractLsb' 4 1 = qb) (h8 : w.extractLsb' 3 1 = u) (h9 : w.extractLsb' 0 3 = fn) :
    unpack w = some (Fields.vv 0x21#6 g d a b qd qa qb u fn) := by
  unfold unpack
  simp only [h0, h1, h2, h3, h4, h5, h6, h7, h8, h9]
  rfl

/-- Major 0x21: its packed word. -/
theorem unpack_pack_21 (g : BitVec 4) (d : BitVec 5) (a : BitVec 5) (b : BitVec 5) (qd : BitVec 1) (qa : BitVec 1) (qb : BitVec 1) (u : BitVec 1) (fn : BitVec 3) :
    unpack (Fields.pack (Fields.vv 0x21#6 g d a b qd qa qb u fn)) = some (Fields.vv 0x21#6 g d a b qd qa qb u fn) :=
  unpack_of_21 _ g d a b qd qa qb u fn
    (extract_high _ _)
    ((extract_low _ _ 22 4 (by decide)).trans (extract_high _ _))
    ((extract_low _ _ 17 5 (by decide)).trans ((extract_low _ _ 17 5 (by decide)).trans (extract_high _ _)))
    ((extract_low _ _ 12 5 (by decide)).trans ((extract_low _ _ 12 5 (by decide)).trans ((extract_low _ _ 12 5 (by decide)).trans (extract_high _ _))))
    ((extract_low _ _ 7 5 (by decide)).trans ((extract_low _ _ 7 5 (by decide)).trans ((extract_low _ _ 7 5 (by decide)).trans ((extract_low _ _ 7 5 (by decide)).trans (extract_high _ _)))))
    ((extract_low _ _ 6 1 (by decide)).trans ((extract_low _ _ 6 1 (by decide)).trans ((extract_low _ _ 6 1 (by decide)).trans ((extract_low _ _ 6 1 (by decide)).trans ((extract_low _ _ 6 1 (by decide)).trans (extract_high _ _))))))
    ((extract_low _ _ 5 1 (by decide)).trans ((extract_low _ _ 5 1 (by decide)).trans ((extract_low _ _ 5 1 (by decide)).trans ((extract_low _ _ 5 1 (by decide)).trans ((extract_low _ _ 5 1 (by decide)).trans ((extract_low _ _ 5 1 (by decide)).trans (extract_high _ _)))))))
    ((extract_low _ _ 4 1 (by decide)).trans ((extract_low _ _ 4 1 (by decide)).trans ((extract_low _ _ 4 1 (by decide)).trans ((extract_low _ _ 4 1 (by decide)).trans ((extract_low _ _ 4 1 (by decide)).trans ((extract_low _ _ 4 1 (by decide)).trans ((extract_low _ _ 4 1 (by decide)).trans (extract_high _ _))))))))
    ((extract_low _ _ 3 1 (by decide)).trans ((extract_low _ _ 3 1 (by decide)).trans ((extract_low _ _ 3 1 (by decide)).trans ((extract_low _ _ 3 1 (by decide)).trans ((extract_low _ _ 3 1 (by decide)).trans ((extract_low _ _ 3 1 (by decide)).trans ((extract_low _ _ 3 1 (by decide)).trans ((extract_low _ _ 3 1 (by decide)).trans (extract_high _ _)))))))))
    ((extract_low _ _ 0 3 (by decide)).trans ((extract_low _ _ 0 3 (by decide)).trans ((extract_low _ _ 0 3 (by decide)).trans ((extract_low _ _ 0 3 (by decide)).trans ((extract_low _ _ 0 3 (by decide)).trans ((extract_low _ _ 0 3 (by decide)).trans ((extract_low _ _ 0 3 (by decide)).trans ((extract_low _ _ 0 3 (by decide)).trans ((extract_low _ _ 0 3 (by decide)).trans (extract_all _))))))))))

/-- Major 0x22: the format of its word. -/
theorem unpack_of_22 (w : BitVec 32) (g : BitVec 4) (d : BitVec 5) (a : BitVec 5) (b : BitVec 5) (qd : BitVec 1) (qa : BitVec 1) (qb : BitVec 1) (u : BitVec 1) (fn : BitVec 3)
    (h0 : w.extractLsb' 26 6 = 0x22#6) (h1 : w.extractLsb' 22 4 = g) (h2 : w.extractLsb' 17 5 = d) (h3 : w.extractLsb' 12 5 = a) (h4 : w.extractLsb' 7 5 = b) (h5 : w.extractLsb' 6 1 = qd) (h6 : w.extractLsb' 5 1 = qa) (h7 : w.extractLsb' 4 1 = qb) (h8 : w.extractLsb' 3 1 = u) (h9 : w.extractLsb' 0 3 = fn) :
    unpack w = some (Fields.vv 0x22#6 g d a b qd qa qb u fn) := by
  unfold unpack
  simp only [h0, h1, h2, h3, h4, h5, h6, h7, h8, h9]
  rfl

/-- Major 0x22: its packed word. -/
theorem unpack_pack_22 (g : BitVec 4) (d : BitVec 5) (a : BitVec 5) (b : BitVec 5) (qd : BitVec 1) (qa : BitVec 1) (qb : BitVec 1) (u : BitVec 1) (fn : BitVec 3) :
    unpack (Fields.pack (Fields.vv 0x22#6 g d a b qd qa qb u fn)) = some (Fields.vv 0x22#6 g d a b qd qa qb u fn) :=
  unpack_of_22 _ g d a b qd qa qb u fn
    (extract_high _ _)
    ((extract_low _ _ 22 4 (by decide)).trans (extract_high _ _))
    ((extract_low _ _ 17 5 (by decide)).trans ((extract_low _ _ 17 5 (by decide)).trans (extract_high _ _)))
    ((extract_low _ _ 12 5 (by decide)).trans ((extract_low _ _ 12 5 (by decide)).trans ((extract_low _ _ 12 5 (by decide)).trans (extract_high _ _))))
    ((extract_low _ _ 7 5 (by decide)).trans ((extract_low _ _ 7 5 (by decide)).trans ((extract_low _ _ 7 5 (by decide)).trans ((extract_low _ _ 7 5 (by decide)).trans (extract_high _ _)))))
    ((extract_low _ _ 6 1 (by decide)).trans ((extract_low _ _ 6 1 (by decide)).trans ((extract_low _ _ 6 1 (by decide)).trans ((extract_low _ _ 6 1 (by decide)).trans ((extract_low _ _ 6 1 (by decide)).trans (extract_high _ _))))))
    ((extract_low _ _ 5 1 (by decide)).trans ((extract_low _ _ 5 1 (by decide)).trans ((extract_low _ _ 5 1 (by decide)).trans ((extract_low _ _ 5 1 (by decide)).trans ((extract_low _ _ 5 1 (by decide)).trans ((extract_low _ _ 5 1 (by decide)).trans (extract_high _ _)))))))
    ((extract_low _ _ 4 1 (by decide)).trans ((extract_low _ _ 4 1 (by decide)).trans ((extract_low _ _ 4 1 (by decide)).trans ((extract_low _ _ 4 1 (by decide)).trans ((extract_low _ _ 4 1 (by decide)).trans ((extract_low _ _ 4 1 (by decide)).trans ((extract_low _ _ 4 1 (by decide)).trans (extract_high _ _))))))))
    ((extract_low _ _ 3 1 (by decide)).trans ((extract_low _ _ 3 1 (by decide)).trans ((extract_low _ _ 3 1 (by decide)).trans ((extract_low _ _ 3 1 (by decide)).trans ((extract_low _ _ 3 1 (by decide)).trans ((extract_low _ _ 3 1 (by decide)).trans ((extract_low _ _ 3 1 (by decide)).trans ((extract_low _ _ 3 1 (by decide)).trans (extract_high _ _)))))))))
    ((extract_low _ _ 0 3 (by decide)).trans ((extract_low _ _ 0 3 (by decide)).trans ((extract_low _ _ 0 3 (by decide)).trans ((extract_low _ _ 0 3 (by decide)).trans ((extract_low _ _ 0 3 (by decide)).trans ((extract_low _ _ 0 3 (by decide)).trans ((extract_low _ _ 0 3 (by decide)).trans ((extract_low _ _ 0 3 (by decide)).trans ((extract_low _ _ 0 3 (by decide)).trans (extract_all _))))))))))

/-- Major 0x23: the format of its word. -/
theorem unpack_of_23 (w : BitVec 32) (g : BitVec 4) (d : BitVec 5) (a : BitVec 5) (b : BitVec 5) (qd : BitVec 1) (qa : BitVec 1) (qb : BitVec 1) (u : BitVec 1) (fn : BitVec 3)
    (h0 : w.extractLsb' 26 6 = 0x23#6) (h1 : w.extractLsb' 22 4 = g) (h2 : w.extractLsb' 17 5 = d) (h3 : w.extractLsb' 12 5 = a) (h4 : w.extractLsb' 7 5 = b) (h5 : w.extractLsb' 6 1 = qd) (h6 : w.extractLsb' 5 1 = qa) (h7 : w.extractLsb' 4 1 = qb) (h8 : w.extractLsb' 3 1 = u) (h9 : w.extractLsb' 0 3 = fn) :
    unpack w = some (Fields.vv 0x23#6 g d a b qd qa qb u fn) := by
  unfold unpack
  simp only [h0, h1, h2, h3, h4, h5, h6, h7, h8, h9]
  rfl

/-- Major 0x23: its packed word. -/
theorem unpack_pack_23 (g : BitVec 4) (d : BitVec 5) (a : BitVec 5) (b : BitVec 5) (qd : BitVec 1) (qa : BitVec 1) (qb : BitVec 1) (u : BitVec 1) (fn : BitVec 3) :
    unpack (Fields.pack (Fields.vv 0x23#6 g d a b qd qa qb u fn)) = some (Fields.vv 0x23#6 g d a b qd qa qb u fn) :=
  unpack_of_23 _ g d a b qd qa qb u fn
    (extract_high _ _)
    ((extract_low _ _ 22 4 (by decide)).trans (extract_high _ _))
    ((extract_low _ _ 17 5 (by decide)).trans ((extract_low _ _ 17 5 (by decide)).trans (extract_high _ _)))
    ((extract_low _ _ 12 5 (by decide)).trans ((extract_low _ _ 12 5 (by decide)).trans ((extract_low _ _ 12 5 (by decide)).trans (extract_high _ _))))
    ((extract_low _ _ 7 5 (by decide)).trans ((extract_low _ _ 7 5 (by decide)).trans ((extract_low _ _ 7 5 (by decide)).trans ((extract_low _ _ 7 5 (by decide)).trans (extract_high _ _)))))
    ((extract_low _ _ 6 1 (by decide)).trans ((extract_low _ _ 6 1 (by decide)).trans ((extract_low _ _ 6 1 (by decide)).trans ((extract_low _ _ 6 1 (by decide)).trans ((extract_low _ _ 6 1 (by decide)).trans (extract_high _ _))))))
    ((extract_low _ _ 5 1 (by decide)).trans ((extract_low _ _ 5 1 (by decide)).trans ((extract_low _ _ 5 1 (by decide)).trans ((extract_low _ _ 5 1 (by decide)).trans ((extract_low _ _ 5 1 (by decide)).trans ((extract_low _ _ 5 1 (by decide)).trans (extract_high _ _)))))))
    ((extract_low _ _ 4 1 (by decide)).trans ((extract_low _ _ 4 1 (by decide)).trans ((extract_low _ _ 4 1 (by decide)).trans ((extract_low _ _ 4 1 (by decide)).trans ((extract_low _ _ 4 1 (by decide)).trans ((extract_low _ _ 4 1 (by decide)).trans ((extract_low _ _ 4 1 (by decide)).trans (extract_high _ _))))))))
    ((extract_low _ _ 3 1 (by decide)).trans ((extract_low _ _ 3 1 (by decide)).trans ((extract_low _ _ 3 1 (by decide)).trans ((extract_low _ _ 3 1 (by decide)).trans ((extract_low _ _ 3 1 (by decide)).trans ((extract_low _ _ 3 1 (by decide)).trans ((extract_low _ _ 3 1 (by decide)).trans ((extract_low _ _ 3 1 (by decide)).trans (extract_high _ _)))))))))
    ((extract_low _ _ 0 3 (by decide)).trans ((extract_low _ _ 0 3 (by decide)).trans ((extract_low _ _ 0 3 (by decide)).trans ((extract_low _ _ 0 3 (by decide)).trans ((extract_low _ _ 0 3 (by decide)).trans ((extract_low _ _ 0 3 (by decide)).trans ((extract_low _ _ 0 3 (by decide)).trans ((extract_low _ _ 0 3 (by decide)).trans ((extract_low _ _ 0 3 (by decide)).trans (extract_all _))))))))))

/-- Major 0x24: the format of its word. -/
theorem unpack_of_24 (w : BitVec 32) (g : BitVec 4) (d : BitVec 5) (a : BitVec 5) (b : BitVec 5) (qd : BitVec 1) (qa : BitVec 1) (qb : BitVec 1) (u : BitVec 1) (fn : BitVec 3)
    (h0 : w.extractLsb' 26 6 = 0x24#6) (h1 : w.extractLsb' 22 4 = g) (h2 : w.extractLsb' 17 5 = d) (h3 : w.extractLsb' 12 5 = a) (h4 : w.extractLsb' 7 5 = b) (h5 : w.extractLsb' 6 1 = qd) (h6 : w.extractLsb' 5 1 = qa) (h7 : w.extractLsb' 4 1 = qb) (h8 : w.extractLsb' 3 1 = u) (h9 : w.extractLsb' 0 3 = fn) :
    unpack w = some (Fields.vv 0x24#6 g d a b qd qa qb u fn) := by
  unfold unpack
  simp only [h0, h1, h2, h3, h4, h5, h6, h7, h8, h9]
  rfl

/-- Major 0x24: its packed word. -/
theorem unpack_pack_24 (g : BitVec 4) (d : BitVec 5) (a : BitVec 5) (b : BitVec 5) (qd : BitVec 1) (qa : BitVec 1) (qb : BitVec 1) (u : BitVec 1) (fn : BitVec 3) :
    unpack (Fields.pack (Fields.vv 0x24#6 g d a b qd qa qb u fn)) = some (Fields.vv 0x24#6 g d a b qd qa qb u fn) :=
  unpack_of_24 _ g d a b qd qa qb u fn
    (extract_high _ _)
    ((extract_low _ _ 22 4 (by decide)).trans (extract_high _ _))
    ((extract_low _ _ 17 5 (by decide)).trans ((extract_low _ _ 17 5 (by decide)).trans (extract_high _ _)))
    ((extract_low _ _ 12 5 (by decide)).trans ((extract_low _ _ 12 5 (by decide)).trans ((extract_low _ _ 12 5 (by decide)).trans (extract_high _ _))))
    ((extract_low _ _ 7 5 (by decide)).trans ((extract_low _ _ 7 5 (by decide)).trans ((extract_low _ _ 7 5 (by decide)).trans ((extract_low _ _ 7 5 (by decide)).trans (extract_high _ _)))))
    ((extract_low _ _ 6 1 (by decide)).trans ((extract_low _ _ 6 1 (by decide)).trans ((extract_low _ _ 6 1 (by decide)).trans ((extract_low _ _ 6 1 (by decide)).trans ((extract_low _ _ 6 1 (by decide)).trans (extract_high _ _))))))
    ((extract_low _ _ 5 1 (by decide)).trans ((extract_low _ _ 5 1 (by decide)).trans ((extract_low _ _ 5 1 (by decide)).trans ((extract_low _ _ 5 1 (by decide)).trans ((extract_low _ _ 5 1 (by decide)).trans ((extract_low _ _ 5 1 (by decide)).trans (extract_high _ _)))))))
    ((extract_low _ _ 4 1 (by decide)).trans ((extract_low _ _ 4 1 (by decide)).trans ((extract_low _ _ 4 1 (by decide)).trans ((extract_low _ _ 4 1 (by decide)).trans ((extract_low _ _ 4 1 (by decide)).trans ((extract_low _ _ 4 1 (by decide)).trans ((extract_low _ _ 4 1 (by decide)).trans (extract_high _ _))))))))
    ((extract_low _ _ 3 1 (by decide)).trans ((extract_low _ _ 3 1 (by decide)).trans ((extract_low _ _ 3 1 (by decide)).trans ((extract_low _ _ 3 1 (by decide)).trans ((extract_low _ _ 3 1 (by decide)).trans ((extract_low _ _ 3 1 (by decide)).trans ((extract_low _ _ 3 1 (by decide)).trans ((extract_low _ _ 3 1 (by decide)).trans (extract_high _ _)))))))))
    ((extract_low _ _ 0 3 (by decide)).trans ((extract_low _ _ 0 3 (by decide)).trans ((extract_low _ _ 0 3 (by decide)).trans ((extract_low _ _ 0 3 (by decide)).trans ((extract_low _ _ 0 3 (by decide)).trans ((extract_low _ _ 0 3 (by decide)).trans ((extract_low _ _ 0 3 (by decide)).trans ((extract_low _ _ 0 3 (by decide)).trans ((extract_low _ _ 0 3 (by decide)).trans (extract_all _))))))))))

/-- Major 0x25: the format of its word. -/
theorem unpack_of_25 (w : BitVec 32) (g : BitVec 4) (d : BitVec 5) (a : BitVec 5) (b : BitVec 5) (qd : BitVec 1) (qa : BitVec 1) (qb : BitVec 1) (u : BitVec 1) (fn : BitVec 3)
    (h0 : w.extractLsb' 26 6 = 0x25#6) (h1 : w.extractLsb' 22 4 = g) (h2 : w.extractLsb' 17 5 = d) (h3 : w.extractLsb' 12 5 = a) (h4 : w.extractLsb' 7 5 = b) (h5 : w.extractLsb' 6 1 = qd) (h6 : w.extractLsb' 5 1 = qa) (h7 : w.extractLsb' 4 1 = qb) (h8 : w.extractLsb' 3 1 = u) (h9 : w.extractLsb' 0 3 = fn) :
    unpack w = some (Fields.vv 0x25#6 g d a b qd qa qb u fn) := by
  unfold unpack
  simp only [h0, h1, h2, h3, h4, h5, h6, h7, h8, h9]
  rfl

/-- Major 0x25: its packed word. -/
theorem unpack_pack_25 (g : BitVec 4) (d : BitVec 5) (a : BitVec 5) (b : BitVec 5) (qd : BitVec 1) (qa : BitVec 1) (qb : BitVec 1) (u : BitVec 1) (fn : BitVec 3) :
    unpack (Fields.pack (Fields.vv 0x25#6 g d a b qd qa qb u fn)) = some (Fields.vv 0x25#6 g d a b qd qa qb u fn) :=
  unpack_of_25 _ g d a b qd qa qb u fn
    (extract_high _ _)
    ((extract_low _ _ 22 4 (by decide)).trans (extract_high _ _))
    ((extract_low _ _ 17 5 (by decide)).trans ((extract_low _ _ 17 5 (by decide)).trans (extract_high _ _)))
    ((extract_low _ _ 12 5 (by decide)).trans ((extract_low _ _ 12 5 (by decide)).trans ((extract_low _ _ 12 5 (by decide)).trans (extract_high _ _))))
    ((extract_low _ _ 7 5 (by decide)).trans ((extract_low _ _ 7 5 (by decide)).trans ((extract_low _ _ 7 5 (by decide)).trans ((extract_low _ _ 7 5 (by decide)).trans (extract_high _ _)))))
    ((extract_low _ _ 6 1 (by decide)).trans ((extract_low _ _ 6 1 (by decide)).trans ((extract_low _ _ 6 1 (by decide)).trans ((extract_low _ _ 6 1 (by decide)).trans ((extract_low _ _ 6 1 (by decide)).trans (extract_high _ _))))))
    ((extract_low _ _ 5 1 (by decide)).trans ((extract_low _ _ 5 1 (by decide)).trans ((extract_low _ _ 5 1 (by decide)).trans ((extract_low _ _ 5 1 (by decide)).trans ((extract_low _ _ 5 1 (by decide)).trans ((extract_low _ _ 5 1 (by decide)).trans (extract_high _ _)))))))
    ((extract_low _ _ 4 1 (by decide)).trans ((extract_low _ _ 4 1 (by decide)).trans ((extract_low _ _ 4 1 (by decide)).trans ((extract_low _ _ 4 1 (by decide)).trans ((extract_low _ _ 4 1 (by decide)).trans ((extract_low _ _ 4 1 (by decide)).trans ((extract_low _ _ 4 1 (by decide)).trans (extract_high _ _))))))))
    ((extract_low _ _ 3 1 (by decide)).trans ((extract_low _ _ 3 1 (by decide)).trans ((extract_low _ _ 3 1 (by decide)).trans ((extract_low _ _ 3 1 (by decide)).trans ((extract_low _ _ 3 1 (by decide)).trans ((extract_low _ _ 3 1 (by decide)).trans ((extract_low _ _ 3 1 (by decide)).trans ((extract_low _ _ 3 1 (by decide)).trans (extract_high _ _)))))))))
    ((extract_low _ _ 0 3 (by decide)).trans ((extract_low _ _ 0 3 (by decide)).trans ((extract_low _ _ 0 3 (by decide)).trans ((extract_low _ _ 0 3 (by decide)).trans ((extract_low _ _ 0 3 (by decide)).trans ((extract_low _ _ 0 3 (by decide)).trans ((extract_low _ _ 0 3 (by decide)).trans ((extract_low _ _ 0 3 (by decide)).trans ((extract_low _ _ 0 3 (by decide)).trans (extract_all _))))))))))

/-- Major 0x26: the format of its word. -/
theorem unpack_of_26 (w : BitVec 32) (g : BitVec 4) (d : BitVec 5) (a : BitVec 5) (b : BitVec 5) (qd : BitVec 1) (qa : BitVec 1) (qb : BitVec 1) (u : BitVec 1) (fn : BitVec 3)
    (h0 : w.extractLsb' 26 6 = 0x26#6) (h1 : w.extractLsb' 22 4 = g) (h2 : w.extractLsb' 17 5 = d) (h3 : w.extractLsb' 12 5 = a) (h4 : w.extractLsb' 7 5 = b) (h5 : w.extractLsb' 6 1 = qd) (h6 : w.extractLsb' 5 1 = qa) (h7 : w.extractLsb' 4 1 = qb) (h8 : w.extractLsb' 3 1 = u) (h9 : w.extractLsb' 0 3 = fn) :
    unpack w = some (Fields.vv 0x26#6 g d a b qd qa qb u fn) := by
  unfold unpack
  simp only [h0, h1, h2, h3, h4, h5, h6, h7, h8, h9]
  rfl

/-- Major 0x26: its packed word. -/
theorem unpack_pack_26 (g : BitVec 4) (d : BitVec 5) (a : BitVec 5) (b : BitVec 5) (qd : BitVec 1) (qa : BitVec 1) (qb : BitVec 1) (u : BitVec 1) (fn : BitVec 3) :
    unpack (Fields.pack (Fields.vv 0x26#6 g d a b qd qa qb u fn)) = some (Fields.vv 0x26#6 g d a b qd qa qb u fn) :=
  unpack_of_26 _ g d a b qd qa qb u fn
    (extract_high _ _)
    ((extract_low _ _ 22 4 (by decide)).trans (extract_high _ _))
    ((extract_low _ _ 17 5 (by decide)).trans ((extract_low _ _ 17 5 (by decide)).trans (extract_high _ _)))
    ((extract_low _ _ 12 5 (by decide)).trans ((extract_low _ _ 12 5 (by decide)).trans ((extract_low _ _ 12 5 (by decide)).trans (extract_high _ _))))
    ((extract_low _ _ 7 5 (by decide)).trans ((extract_low _ _ 7 5 (by decide)).trans ((extract_low _ _ 7 5 (by decide)).trans ((extract_low _ _ 7 5 (by decide)).trans (extract_high _ _)))))
    ((extract_low _ _ 6 1 (by decide)).trans ((extract_low _ _ 6 1 (by decide)).trans ((extract_low _ _ 6 1 (by decide)).trans ((extract_low _ _ 6 1 (by decide)).trans ((extract_low _ _ 6 1 (by decide)).trans (extract_high _ _))))))
    ((extract_low _ _ 5 1 (by decide)).trans ((extract_low _ _ 5 1 (by decide)).trans ((extract_low _ _ 5 1 (by decide)).trans ((extract_low _ _ 5 1 (by decide)).trans ((extract_low _ _ 5 1 (by decide)).trans ((extract_low _ _ 5 1 (by decide)).trans (extract_high _ _)))))))
    ((extract_low _ _ 4 1 (by decide)).trans ((extract_low _ _ 4 1 (by decide)).trans ((extract_low _ _ 4 1 (by decide)).trans ((extract_low _ _ 4 1 (by decide)).trans ((extract_low _ _ 4 1 (by decide)).trans ((extract_low _ _ 4 1 (by decide)).trans ((extract_low _ _ 4 1 (by decide)).trans (extract_high _ _))))))))
    ((extract_low _ _ 3 1 (by decide)).trans ((extract_low _ _ 3 1 (by decide)).trans ((extract_low _ _ 3 1 (by decide)).trans ((extract_low _ _ 3 1 (by decide)).trans ((extract_low _ _ 3 1 (by decide)).trans ((extract_low _ _ 3 1 (by decide)).trans ((extract_low _ _ 3 1 (by decide)).trans ((extract_low _ _ 3 1 (by decide)).trans (extract_high _ _)))))))))
    ((extract_low _ _ 0 3 (by decide)).trans ((extract_low _ _ 0 3 (by decide)).trans ((extract_low _ _ 0 3 (by decide)).trans ((extract_low _ _ 0 3 (by decide)).trans ((extract_low _ _ 0 3 (by decide)).trans ((extract_low _ _ 0 3 (by decide)).trans ((extract_low _ _ 0 3 (by decide)).trans ((extract_low _ _ 0 3 (by decide)).trans ((extract_low _ _ 0 3 (by decide)).trans (extract_all _))))))))))

/-- Major 0x27: the format of its word. -/
theorem unpack_of_27 (w : BitVec 32) (g : BitVec 4) (d : BitVec 5) (a : BitVec 5) (b : BitVec 5) (qd : BitVec 1) (qa : BitVec 1) (qb : BitVec 1) (u : BitVec 1) (fn : BitVec 3)
    (h0 : w.extractLsb' 26 6 = 0x27#6) (h1 : w.extractLsb' 22 4 = g) (h2 : w.extractLsb' 17 5 = d) (h3 : w.extractLsb' 12 5 = a) (h4 : w.extractLsb' 7 5 = b) (h5 : w.extractLsb' 6 1 = qd) (h6 : w.extractLsb' 5 1 = qa) (h7 : w.extractLsb' 4 1 = qb) (h8 : w.extractLsb' 3 1 = u) (h9 : w.extractLsb' 0 3 = fn) :
    unpack w = some (Fields.vv 0x27#6 g d a b qd qa qb u fn) := by
  unfold unpack
  simp only [h0, h1, h2, h3, h4, h5, h6, h7, h8, h9]
  rfl

/-- Major 0x27: its packed word. -/
theorem unpack_pack_27 (g : BitVec 4) (d : BitVec 5) (a : BitVec 5) (b : BitVec 5) (qd : BitVec 1) (qa : BitVec 1) (qb : BitVec 1) (u : BitVec 1) (fn : BitVec 3) :
    unpack (Fields.pack (Fields.vv 0x27#6 g d a b qd qa qb u fn)) = some (Fields.vv 0x27#6 g d a b qd qa qb u fn) :=
  unpack_of_27 _ g d a b qd qa qb u fn
    (extract_high _ _)
    ((extract_low _ _ 22 4 (by decide)).trans (extract_high _ _))
    ((extract_low _ _ 17 5 (by decide)).trans ((extract_low _ _ 17 5 (by decide)).trans (extract_high _ _)))
    ((extract_low _ _ 12 5 (by decide)).trans ((extract_low _ _ 12 5 (by decide)).trans ((extract_low _ _ 12 5 (by decide)).trans (extract_high _ _))))
    ((extract_low _ _ 7 5 (by decide)).trans ((extract_low _ _ 7 5 (by decide)).trans ((extract_low _ _ 7 5 (by decide)).trans ((extract_low _ _ 7 5 (by decide)).trans (extract_high _ _)))))
    ((extract_low _ _ 6 1 (by decide)).trans ((extract_low _ _ 6 1 (by decide)).trans ((extract_low _ _ 6 1 (by decide)).trans ((extract_low _ _ 6 1 (by decide)).trans ((extract_low _ _ 6 1 (by decide)).trans (extract_high _ _))))))
    ((extract_low _ _ 5 1 (by decide)).trans ((extract_low _ _ 5 1 (by decide)).trans ((extract_low _ _ 5 1 (by decide)).trans ((extract_low _ _ 5 1 (by decide)).trans ((extract_low _ _ 5 1 (by decide)).trans ((extract_low _ _ 5 1 (by decide)).trans (extract_high _ _)))))))
    ((extract_low _ _ 4 1 (by decide)).trans ((extract_low _ _ 4 1 (by decide)).trans ((extract_low _ _ 4 1 (by decide)).trans ((extract_low _ _ 4 1 (by decide)).trans ((extract_low _ _ 4 1 (by decide)).trans ((extract_low _ _ 4 1 (by decide)).trans ((extract_low _ _ 4 1 (by decide)).trans (extract_high _ _))))))))
    ((extract_low _ _ 3 1 (by decide)).trans ((extract_low _ _ 3 1 (by decide)).trans ((extract_low _ _ 3 1 (by decide)).trans ((extract_low _ _ 3 1 (by decide)).trans ((extract_low _ _ 3 1 (by decide)).trans ((extract_low _ _ 3 1 (by decide)).trans ((extract_low _ _ 3 1 (by decide)).trans ((extract_low _ _ 3 1 (by decide)).trans (extract_high _ _)))))))))
    ((extract_low _ _ 0 3 (by decide)).trans ((extract_low _ _ 0 3 (by decide)).trans ((extract_low _ _ 0 3 (by decide)).trans ((extract_low _ _ 0 3 (by decide)).trans ((extract_low _ _ 0 3 (by decide)).trans ((extract_low _ _ 0 3 (by decide)).trans ((extract_low _ _ 0 3 (by decide)).trans ((extract_low _ _ 0 3 (by decide)).trans ((extract_low _ _ 0 3 (by decide)).trans (extract_all _))))))))))

/-- Major 0x28: the format of its word. -/
theorem unpack_of_28 (w : BitVec 32) (g : BitVec 4) (d : BitVec 5) (a : BitVec 5) (b : BitVec 5) (qd : BitVec 1) (qa : BitVec 1) (qb : BitVec 1) (u : BitVec 1) (fn : BitVec 3)
    (h0 : w.extractLsb' 26 6 = 0x28#6) (h1 : w.extractLsb' 22 4 = g) (h2 : w.extractLsb' 17 5 = d) (h3 : w.extractLsb' 12 5 = a) (h4 : w.extractLsb' 7 5 = b) (h5 : w.extractLsb' 6 1 = qd) (h6 : w.extractLsb' 5 1 = qa) (h7 : w.extractLsb' 4 1 = qb) (h8 : w.extractLsb' 3 1 = u) (h9 : w.extractLsb' 0 3 = fn) :
    unpack w = some (Fields.vv 0x28#6 g d a b qd qa qb u fn) := by
  unfold unpack
  simp only [h0, h1, h2, h3, h4, h5, h6, h7, h8, h9]
  rfl

/-- Major 0x28: its packed word. -/
theorem unpack_pack_28 (g : BitVec 4) (d : BitVec 5) (a : BitVec 5) (b : BitVec 5) (qd : BitVec 1) (qa : BitVec 1) (qb : BitVec 1) (u : BitVec 1) (fn : BitVec 3) :
    unpack (Fields.pack (Fields.vv 0x28#6 g d a b qd qa qb u fn)) = some (Fields.vv 0x28#6 g d a b qd qa qb u fn) :=
  unpack_of_28 _ g d a b qd qa qb u fn
    (extract_high _ _)
    ((extract_low _ _ 22 4 (by decide)).trans (extract_high _ _))
    ((extract_low _ _ 17 5 (by decide)).trans ((extract_low _ _ 17 5 (by decide)).trans (extract_high _ _)))
    ((extract_low _ _ 12 5 (by decide)).trans ((extract_low _ _ 12 5 (by decide)).trans ((extract_low _ _ 12 5 (by decide)).trans (extract_high _ _))))
    ((extract_low _ _ 7 5 (by decide)).trans ((extract_low _ _ 7 5 (by decide)).trans ((extract_low _ _ 7 5 (by decide)).trans ((extract_low _ _ 7 5 (by decide)).trans (extract_high _ _)))))
    ((extract_low _ _ 6 1 (by decide)).trans ((extract_low _ _ 6 1 (by decide)).trans ((extract_low _ _ 6 1 (by decide)).trans ((extract_low _ _ 6 1 (by decide)).trans ((extract_low _ _ 6 1 (by decide)).trans (extract_high _ _))))))
    ((extract_low _ _ 5 1 (by decide)).trans ((extract_low _ _ 5 1 (by decide)).trans ((extract_low _ _ 5 1 (by decide)).trans ((extract_low _ _ 5 1 (by decide)).trans ((extract_low _ _ 5 1 (by decide)).trans ((extract_low _ _ 5 1 (by decide)).trans (extract_high _ _)))))))
    ((extract_low _ _ 4 1 (by decide)).trans ((extract_low _ _ 4 1 (by decide)).trans ((extract_low _ _ 4 1 (by decide)).trans ((extract_low _ _ 4 1 (by decide)).trans ((extract_low _ _ 4 1 (by decide)).trans ((extract_low _ _ 4 1 (by decide)).trans ((extract_low _ _ 4 1 (by decide)).trans (extract_high _ _))))))))
    ((extract_low _ _ 3 1 (by decide)).trans ((extract_low _ _ 3 1 (by decide)).trans ((extract_low _ _ 3 1 (by decide)).trans ((extract_low _ _ 3 1 (by decide)).trans ((extract_low _ _ 3 1 (by decide)).trans ((extract_low _ _ 3 1 (by decide)).trans ((extract_low _ _ 3 1 (by decide)).trans ((extract_low _ _ 3 1 (by decide)).trans (extract_high _ _)))))))))
    ((extract_low _ _ 0 3 (by decide)).trans ((extract_low _ _ 0 3 (by decide)).trans ((extract_low _ _ 0 3 (by decide)).trans ((extract_low _ _ 0 3 (by decide)).trans ((extract_low _ _ 0 3 (by decide)).trans ((extract_low _ _ 0 3 (by decide)).trans ((extract_low _ _ 0 3 (by decide)).trans ((extract_low _ _ 0 3 (by decide)).trans ((extract_low _ _ 0 3 (by decide)).trans (extract_all _))))))))))

/-- Major 0x29: the format of its word. -/
theorem unpack_of_29 (w : BitVec 32) (g : BitVec 4) (d : BitVec 5) (a : BitVec 5) (b : BitVec 5) (qd : BitVec 1) (qa : BitVec 1) (qb : BitVec 1) (u : BitVec 1) (fn : BitVec 3)
    (h0 : w.extractLsb' 26 6 = 0x29#6) (h1 : w.extractLsb' 22 4 = g) (h2 : w.extractLsb' 17 5 = d) (h3 : w.extractLsb' 12 5 = a) (h4 : w.extractLsb' 7 5 = b) (h5 : w.extractLsb' 6 1 = qd) (h6 : w.extractLsb' 5 1 = qa) (h7 : w.extractLsb' 4 1 = qb) (h8 : w.extractLsb' 3 1 = u) (h9 : w.extractLsb' 0 3 = fn) :
    unpack w = some (Fields.vv 0x29#6 g d a b qd qa qb u fn) := by
  unfold unpack
  simp only [h0, h1, h2, h3, h4, h5, h6, h7, h8, h9]
  rfl

/-- Major 0x29: its packed word. -/
theorem unpack_pack_29 (g : BitVec 4) (d : BitVec 5) (a : BitVec 5) (b : BitVec 5) (qd : BitVec 1) (qa : BitVec 1) (qb : BitVec 1) (u : BitVec 1) (fn : BitVec 3) :
    unpack (Fields.pack (Fields.vv 0x29#6 g d a b qd qa qb u fn)) = some (Fields.vv 0x29#6 g d a b qd qa qb u fn) :=
  unpack_of_29 _ g d a b qd qa qb u fn
    (extract_high _ _)
    ((extract_low _ _ 22 4 (by decide)).trans (extract_high _ _))
    ((extract_low _ _ 17 5 (by decide)).trans ((extract_low _ _ 17 5 (by decide)).trans (extract_high _ _)))
    ((extract_low _ _ 12 5 (by decide)).trans ((extract_low _ _ 12 5 (by decide)).trans ((extract_low _ _ 12 5 (by decide)).trans (extract_high _ _))))
    ((extract_low _ _ 7 5 (by decide)).trans ((extract_low _ _ 7 5 (by decide)).trans ((extract_low _ _ 7 5 (by decide)).trans ((extract_low _ _ 7 5 (by decide)).trans (extract_high _ _)))))
    ((extract_low _ _ 6 1 (by decide)).trans ((extract_low _ _ 6 1 (by decide)).trans ((extract_low _ _ 6 1 (by decide)).trans ((extract_low _ _ 6 1 (by decide)).trans ((extract_low _ _ 6 1 (by decide)).trans (extract_high _ _))))))
    ((extract_low _ _ 5 1 (by decide)).trans ((extract_low _ _ 5 1 (by decide)).trans ((extract_low _ _ 5 1 (by decide)).trans ((extract_low _ _ 5 1 (by decide)).trans ((extract_low _ _ 5 1 (by decide)).trans ((extract_low _ _ 5 1 (by decide)).trans (extract_high _ _)))))))
    ((extract_low _ _ 4 1 (by decide)).trans ((extract_low _ _ 4 1 (by decide)).trans ((extract_low _ _ 4 1 (by decide)).trans ((extract_low _ _ 4 1 (by decide)).trans ((extract_low _ _ 4 1 (by decide)).trans ((extract_low _ _ 4 1 (by decide)).trans ((extract_low _ _ 4 1 (by decide)).trans (extract_high _ _))))))))
    ((extract_low _ _ 3 1 (by decide)).trans ((extract_low _ _ 3 1 (by decide)).trans ((extract_low _ _ 3 1 (by decide)).trans ((extract_low _ _ 3 1 (by decide)).trans ((extract_low _ _ 3 1 (by decide)).trans ((extract_low _ _ 3 1 (by decide)).trans ((extract_low _ _ 3 1 (by decide)).trans ((extract_low _ _ 3 1 (by decide)).trans (extract_high _ _)))))))))
    ((extract_low _ _ 0 3 (by decide)).trans ((extract_low _ _ 0 3 (by decide)).trans ((extract_low _ _ 0 3 (by decide)).trans ((extract_low _ _ 0 3 (by decide)).trans ((extract_low _ _ 0 3 (by decide)).trans ((extract_low _ _ 0 3 (by decide)).trans ((extract_low _ _ 0 3 (by decide)).trans ((extract_low _ _ 0 3 (by decide)).trans ((extract_low _ _ 0 3 (by decide)).trans (extract_all _))))))))))

/-- Major 0x2a: the format of its word. -/
theorem unpack_of_2a (w : BitVec 32) (g : BitVec 4) (d : BitVec 5) (a : BitVec 5) (b : BitVec 5) (qd : BitVec 1) (qa : BitVec 1) (qb : BitVec 1) (u : BitVec 1) (fn : BitVec 3)
    (h0 : w.extractLsb' 26 6 = 0x2a#6) (h1 : w.extractLsb' 22 4 = g) (h2 : w.extractLsb' 17 5 = d) (h3 : w.extractLsb' 12 5 = a) (h4 : w.extractLsb' 7 5 = b) (h5 : w.extractLsb' 6 1 = qd) (h6 : w.extractLsb' 5 1 = qa) (h7 : w.extractLsb' 4 1 = qb) (h8 : w.extractLsb' 3 1 = u) (h9 : w.extractLsb' 0 3 = fn) :
    unpack w = some (Fields.vv 0x2a#6 g d a b qd qa qb u fn) := by
  unfold unpack
  simp only [h0, h1, h2, h3, h4, h5, h6, h7, h8, h9]
  rfl

/-- Major 0x2a: its packed word. -/
theorem unpack_pack_2a (g : BitVec 4) (d : BitVec 5) (a : BitVec 5) (b : BitVec 5) (qd : BitVec 1) (qa : BitVec 1) (qb : BitVec 1) (u : BitVec 1) (fn : BitVec 3) :
    unpack (Fields.pack (Fields.vv 0x2a#6 g d a b qd qa qb u fn)) = some (Fields.vv 0x2a#6 g d a b qd qa qb u fn) :=
  unpack_of_2a _ g d a b qd qa qb u fn
    (extract_high _ _)
    ((extract_low _ _ 22 4 (by decide)).trans (extract_high _ _))
    ((extract_low _ _ 17 5 (by decide)).trans ((extract_low _ _ 17 5 (by decide)).trans (extract_high _ _)))
    ((extract_low _ _ 12 5 (by decide)).trans ((extract_low _ _ 12 5 (by decide)).trans ((extract_low _ _ 12 5 (by decide)).trans (extract_high _ _))))
    ((extract_low _ _ 7 5 (by decide)).trans ((extract_low _ _ 7 5 (by decide)).trans ((extract_low _ _ 7 5 (by decide)).trans ((extract_low _ _ 7 5 (by decide)).trans (extract_high _ _)))))
    ((extract_low _ _ 6 1 (by decide)).trans ((extract_low _ _ 6 1 (by decide)).trans ((extract_low _ _ 6 1 (by decide)).trans ((extract_low _ _ 6 1 (by decide)).trans ((extract_low _ _ 6 1 (by decide)).trans (extract_high _ _))))))
    ((extract_low _ _ 5 1 (by decide)).trans ((extract_low _ _ 5 1 (by decide)).trans ((extract_low _ _ 5 1 (by decide)).trans ((extract_low _ _ 5 1 (by decide)).trans ((extract_low _ _ 5 1 (by decide)).trans ((extract_low _ _ 5 1 (by decide)).trans (extract_high _ _)))))))
    ((extract_low _ _ 4 1 (by decide)).trans ((extract_low _ _ 4 1 (by decide)).trans ((extract_low _ _ 4 1 (by decide)).trans ((extract_low _ _ 4 1 (by decide)).trans ((extract_low _ _ 4 1 (by decide)).trans ((extract_low _ _ 4 1 (by decide)).trans ((extract_low _ _ 4 1 (by decide)).trans (extract_high _ _))))))))
    ((extract_low _ _ 3 1 (by decide)).trans ((extract_low _ _ 3 1 (by decide)).trans ((extract_low _ _ 3 1 (by decide)).trans ((extract_low _ _ 3 1 (by decide)).trans ((extract_low _ _ 3 1 (by decide)).trans ((extract_low _ _ 3 1 (by decide)).trans ((extract_low _ _ 3 1 (by decide)).trans ((extract_low _ _ 3 1 (by decide)).trans (extract_high _ _)))))))))
    ((extract_low _ _ 0 3 (by decide)).trans ((extract_low _ _ 0 3 (by decide)).trans ((extract_low _ _ 0 3 (by decide)).trans ((extract_low _ _ 0 3 (by decide)).trans ((extract_low _ _ 0 3 (by decide)).trans ((extract_low _ _ 0 3 (by decide)).trans ((extract_low _ _ 0 3 (by decide)).trans ((extract_low _ _ 0 3 (by decide)).trans ((extract_low _ _ 0 3 (by decide)).trans (extract_all _))))))))))

/-- Major 0x2b: the format of its word. -/
theorem unpack_of_2b (w : BitVec 32) (g : BitVec 4) (pd : BitVec 3) (a : BitVec 5) (b : BitVec 5) (qa : BitVec 1) (qb : BitVec 1) (cc : BitVec 3) (t : BitVec 3) (u : BitVec 1)
    (h0 : w.extractLsb' 26 6 = 0x2b#6) (h1 : w.extractLsb' 22 4 = g) (h2 : w.extractLsb' 19 3 = pd) (h3 : w.extractLsb' 14 5 = a) (h4 : w.extractLsb' 9 5 = b) (h5 : w.extractLsb' 8 1 = qa) (h6 : w.extractLsb' 7 1 = qb) (h7 : w.extractLsb' 4 3 = cc) (h8 : w.extractLsb' 1 3 = t) (h9 : w.extractLsb' 0 1 = u) :
    unpack w = some (Fields.vc 0x2b#6 g pd a b qa qb cc t u) := by
  unfold unpack
  simp only [h0, h1, h2, h3, h4, h5, h6, h7, h8, h9]
  rfl

/-- Major 0x2b: its packed word. -/
theorem unpack_pack_2b (g : BitVec 4) (pd : BitVec 3) (a : BitVec 5) (b : BitVec 5) (qa : BitVec 1) (qb : BitVec 1) (cc : BitVec 3) (t : BitVec 3) (u : BitVec 1) :
    unpack (Fields.pack (Fields.vc 0x2b#6 g pd a b qa qb cc t u)) = some (Fields.vc 0x2b#6 g pd a b qa qb cc t u) :=
  unpack_of_2b _ g pd a b qa qb cc t u
    (extract_high _ _)
    ((extract_low _ _ 22 4 (by decide)).trans (extract_high _ _))
    ((extract_low _ _ 19 3 (by decide)).trans ((extract_low _ _ 19 3 (by decide)).trans (extract_high _ _)))
    ((extract_low _ _ 14 5 (by decide)).trans ((extract_low _ _ 14 5 (by decide)).trans ((extract_low _ _ 14 5 (by decide)).trans (extract_high _ _))))
    ((extract_low _ _ 9 5 (by decide)).trans ((extract_low _ _ 9 5 (by decide)).trans ((extract_low _ _ 9 5 (by decide)).trans ((extract_low _ _ 9 5 (by decide)).trans (extract_high _ _)))))
    ((extract_low _ _ 8 1 (by decide)).trans ((extract_low _ _ 8 1 (by decide)).trans ((extract_low _ _ 8 1 (by decide)).trans ((extract_low _ _ 8 1 (by decide)).trans ((extract_low _ _ 8 1 (by decide)).trans (extract_high _ _))))))
    ((extract_low _ _ 7 1 (by decide)).trans ((extract_low _ _ 7 1 (by decide)).trans ((extract_low _ _ 7 1 (by decide)).trans ((extract_low _ _ 7 1 (by decide)).trans ((extract_low _ _ 7 1 (by decide)).trans ((extract_low _ _ 7 1 (by decide)).trans (extract_high _ _)))))))
    ((extract_low _ _ 4 3 (by decide)).trans ((extract_low _ _ 4 3 (by decide)).trans ((extract_low _ _ 4 3 (by decide)).trans ((extract_low _ _ 4 3 (by decide)).trans ((extract_low _ _ 4 3 (by decide)).trans ((extract_low _ _ 4 3 (by decide)).trans ((extract_low _ _ 4 3 (by decide)).trans (extract_high _ _))))))))
    ((extract_low _ _ 1 3 (by decide)).trans ((extract_low _ _ 1 3 (by decide)).trans ((extract_low _ _ 1 3 (by decide)).trans ((extract_low _ _ 1 3 (by decide)).trans ((extract_low _ _ 1 3 (by decide)).trans ((extract_low _ _ 1 3 (by decide)).trans ((extract_low _ _ 1 3 (by decide)).trans ((extract_low _ _ 1 3 (by decide)).trans (extract_high _ _)))))))))
    ((extract_low _ _ 0 1 (by decide)).trans ((extract_low _ _ 0 1 (by decide)).trans ((extract_low _ _ 0 1 (by decide)).trans ((extract_low _ _ 0 1 (by decide)).trans ((extract_low _ _ 0 1 (by decide)).trans ((extract_low _ _ 0 1 (by decide)).trans ((extract_low _ _ 0 1 (by decide)).trans ((extract_low _ _ 0 1 (by decide)).trans ((extract_low _ _ 0 1 (by decide)).trans (extract_all _))))))))))

/-- Major 0x2c: the format of its word. -/
theorem unpack_of_2c (w : BitVec 32) (g : BitVec 4) (d : BitVec 5) (a : BitVec 5) (qd : BitVec 1) (qa : BitVec 1) (u : BitVec 1) (t : BitVec 3) (fn : BitVec 3) (z : BitVec 3)
    (h0 : w.extractLsb' 26 6 = 0x2c#6) (h1 : w.extractLsb' 22 4 = g) (h2 : w.extractLsb' 17 5 = d) (h3 : w.extractLsb' 12 5 = a) (h4 : w.extractLsb' 11 1 = qd) (h5 : w.extractLsb' 10 1 = qa) (h6 : w.extractLsb' 9 1 = u) (h7 : w.extractLsb' 6 3 = t) (h8 : w.extractLsb' 3 3 = fn) (h9 : w.extractLsb' 0 3 = z) :
    unpack w = some (Fields.vr 0x2c#6 g d a qd qa u t fn z) := by
  unfold unpack
  simp only [h0, h1, h2, h3, h4, h5, h6, h7, h8, h9]
  rfl

/-- Major 0x2c: its packed word. -/
theorem unpack_pack_2c (g : BitVec 4) (d : BitVec 5) (a : BitVec 5) (qd : BitVec 1) (qa : BitVec 1) (u : BitVec 1) (t : BitVec 3) (fn : BitVec 3) (z : BitVec 3) :
    unpack (Fields.pack (Fields.vr 0x2c#6 g d a qd qa u t fn z)) = some (Fields.vr 0x2c#6 g d a qd qa u t fn z) :=
  unpack_of_2c _ g d a qd qa u t fn z
    (extract_high _ _)
    ((extract_low _ _ 22 4 (by decide)).trans (extract_high _ _))
    ((extract_low _ _ 17 5 (by decide)).trans ((extract_low _ _ 17 5 (by decide)).trans (extract_high _ _)))
    ((extract_low _ _ 12 5 (by decide)).trans ((extract_low _ _ 12 5 (by decide)).trans ((extract_low _ _ 12 5 (by decide)).trans (extract_high _ _))))
    ((extract_low _ _ 11 1 (by decide)).trans ((extract_low _ _ 11 1 (by decide)).trans ((extract_low _ _ 11 1 (by decide)).trans ((extract_low _ _ 11 1 (by decide)).trans (extract_high _ _)))))
    ((extract_low _ _ 10 1 (by decide)).trans ((extract_low _ _ 10 1 (by decide)).trans ((extract_low _ _ 10 1 (by decide)).trans ((extract_low _ _ 10 1 (by decide)).trans ((extract_low _ _ 10 1 (by decide)).trans (extract_high _ _))))))
    ((extract_low _ _ 9 1 (by decide)).trans ((extract_low _ _ 9 1 (by decide)).trans ((extract_low _ _ 9 1 (by decide)).trans ((extract_low _ _ 9 1 (by decide)).trans ((extract_low _ _ 9 1 (by decide)).trans ((extract_low _ _ 9 1 (by decide)).trans (extract_high _ _)))))))
    ((extract_low _ _ 6 3 (by decide)).trans ((extract_low _ _ 6 3 (by decide)).trans ((extract_low _ _ 6 3 (by decide)).trans ((extract_low _ _ 6 3 (by decide)).trans ((extract_low _ _ 6 3 (by decide)).trans ((extract_low _ _ 6 3 (by decide)).trans ((extract_low _ _ 6 3 (by decide)).trans (extract_high _ _))))))))
    ((extract_low _ _ 3 3 (by decide)).trans ((extract_low _ _ 3 3 (by decide)).trans ((extract_low _ _ 3 3 (by decide)).trans ((extract_low _ _ 3 3 (by decide)).trans ((extract_low _ _ 3 3 (by decide)).trans ((extract_low _ _ 3 3 (by decide)).trans ((extract_low _ _ 3 3 (by decide)).trans ((extract_low _ _ 3 3 (by decide)).trans (extract_high _ _)))))))))
    ((extract_low _ _ 0 3 (by decide)).trans ((extract_low _ _ 0 3 (by decide)).trans ((extract_low _ _ 0 3 (by decide)).trans ((extract_low _ _ 0 3 (by decide)).trans ((extract_low _ _ 0 3 (by decide)).trans ((extract_low _ _ 0 3 (by decide)).trans ((extract_low _ _ 0 3 (by decide)).trans ((extract_low _ _ 0 3 (by decide)).trans ((extract_low _ _ 0 3 (by decide)).trans (extract_all _))))))))))

/-- Major 0x2d: the format of its word. -/
theorem unpack_of_2d (w : BitVec 32) (g : BitVec 4) (d : BitVec 5) (a : BitVec 5) (qd : BitVec 1) (s : BitVec 1) (off : BitVec 10)
    (h0 : w.extractLsb' 26 6 = 0x2d#6) (h1 : w.extractLsb' 22 4 = g) (h2 : w.extractLsb' 17 5 = d) (h3 : w.extractLsb' 12 5 = a) (h4 : w.extractLsb' 11 1 = qd) (h5 : w.extractLsb' 10 1 = s) (h6 : w.extractLsb' 0 10 = off) :
    unpack w = some (Fields.vm 0x2d#6 g d a qd s off) := by
  unfold unpack
  simp only [h0, h1, h2, h3, h4, h5, h6]
  rfl

/-- Major 0x2d: its packed word. -/
theorem unpack_pack_2d (g : BitVec 4) (d : BitVec 5) (a : BitVec 5) (qd : BitVec 1) (s : BitVec 1) (off : BitVec 10) :
    unpack (Fields.pack (Fields.vm 0x2d#6 g d a qd s off)) = some (Fields.vm 0x2d#6 g d a qd s off) :=
  unpack_of_2d _ g d a qd s off
    (extract_high _ _)
    ((extract_low _ _ 22 4 (by decide)).trans (extract_high _ _))
    ((extract_low _ _ 17 5 (by decide)).trans ((extract_low _ _ 17 5 (by decide)).trans (extract_high _ _)))
    ((extract_low _ _ 12 5 (by decide)).trans ((extract_low _ _ 12 5 (by decide)).trans ((extract_low _ _ 12 5 (by decide)).trans (extract_high _ _))))
    ((extract_low _ _ 11 1 (by decide)).trans ((extract_low _ _ 11 1 (by decide)).trans ((extract_low _ _ 11 1 (by decide)).trans ((extract_low _ _ 11 1 (by decide)).trans (extract_high _ _)))))
    ((extract_low _ _ 10 1 (by decide)).trans ((extract_low _ _ 10 1 (by decide)).trans ((extract_low _ _ 10 1 (by decide)).trans ((extract_low _ _ 10 1 (by decide)).trans ((extract_low _ _ 10 1 (by decide)).trans (extract_high _ _))))))
    ((extract_low _ _ 0 10 (by decide)).trans ((extract_low _ _ 0 10 (by decide)).trans ((extract_low _ _ 0 10 (by decide)).trans ((extract_low _ _ 0 10 (by decide)).trans ((extract_low _ _ 0 10 (by decide)).trans ((extract_low _ _ 0 10 (by decide)).trans (extract_all _)))))))

/-- Major 0x2e: the format of its word. -/
theorem unpack_of_2e (w : BitVec 32) (g : BitVec 4) (d : BitVec 5) (a : BitVec 5) (b : BitVec 5) (qd : BitVec 1) (qb : BitVec 1) (esz : BitVec 2) (fn : BitVec 3)
    (h0 : w.extractLsb' 26 6 = 0x2e#6) (h1 : w.extractLsb' 22 4 = g) (h2 : w.extractLsb' 17 5 = d) (h3 : w.extractLsb' 12 5 = a) (h4 : w.extractLsb' 7 5 = b) (h5 : w.extractLsb' 6 1 = qd) (h6 : w.extractLsb' 5 1 = qb) (h7 : w.extractLsb' 3 2 = esz) (h8 : w.extractLsb' 0 3 = fn) :
    unpack w = some (Fields.vx 0x2e#6 g d a b qd qb esz fn) := by
  unfold unpack
  simp only [h0, h1, h2, h3, h4, h5, h6, h7, h8]
  rfl

/-- Major 0x2e: its packed word. -/
theorem unpack_pack_2e (g : BitVec 4) (d : BitVec 5) (a : BitVec 5) (b : BitVec 5) (qd : BitVec 1) (qb : BitVec 1) (esz : BitVec 2) (fn : BitVec 3) :
    unpack (Fields.pack (Fields.vx 0x2e#6 g d a b qd qb esz fn)) = some (Fields.vx 0x2e#6 g d a b qd qb esz fn) :=
  unpack_of_2e _ g d a b qd qb esz fn
    (extract_high _ _)
    ((extract_low _ _ 22 4 (by decide)).trans (extract_high _ _))
    ((extract_low _ _ 17 5 (by decide)).trans ((extract_low _ _ 17 5 (by decide)).trans (extract_high _ _)))
    ((extract_low _ _ 12 5 (by decide)).trans ((extract_low _ _ 12 5 (by decide)).trans ((extract_low _ _ 12 5 (by decide)).trans (extract_high _ _))))
    ((extract_low _ _ 7 5 (by decide)).trans ((extract_low _ _ 7 5 (by decide)).trans ((extract_low _ _ 7 5 (by decide)).trans ((extract_low _ _ 7 5 (by decide)).trans (extract_high _ _)))))
    ((extract_low _ _ 6 1 (by decide)).trans ((extract_low _ _ 6 1 (by decide)).trans ((extract_low _ _ 6 1 (by decide)).trans ((extract_low _ _ 6 1 (by decide)).trans ((extract_low _ _ 6 1 (by decide)).trans (extract_high _ _))))))
    ((extract_low _ _ 5 1 (by decide)).trans ((extract_low _ _ 5 1 (by decide)).trans ((extract_low _ _ 5 1 (by decide)).trans ((extract_low _ _ 5 1 (by decide)).trans ((extract_low _ _ 5 1 (by decide)).trans ((extract_low _ _ 5 1 (by decide)).trans (extract_high _ _)))))))
    ((extract_low _ _ 3 2 (by decide)).trans ((extract_low _ _ 3 2 (by decide)).trans ((extract_low _ _ 3 2 (by decide)).trans ((extract_low _ _ 3 2 (by decide)).trans ((extract_low _ _ 3 2 (by decide)).trans ((extract_low _ _ 3 2 (by decide)).trans ((extract_low _ _ 3 2 (by decide)).trans (extract_high _ _))))))))
    ((extract_low _ _ 0 3 (by decide)).trans ((extract_low _ _ 0 3 (by decide)).trans ((extract_low _ _ 0 3 (by decide)).trans ((extract_low _ _ 0 3 (by decide)).trans ((extract_low _ _ 0 3 (by decide)).trans ((extract_low _ _ 0 3 (by decide)).trans ((extract_low _ _ 0 3 (by decide)).trans ((extract_low _ _ 0 3 (by decide)).trans (extract_all _)))))))))

/-- Major 0x2f: the format of its word. -/
theorem unpack_of_2f (w : BitVec 32) (g : BitVec 4) (d : BitVec 5) (a : BitVec 5) (c : BitVec 4) (sat : BitVec 1) (qd : BitVec 1) (qa : BitVec 1) (rnd : BitVec 3) (tgt : BitVec 2)
    (h0 : w.extractLsb' 26 6 = 0x2f#6) (h1 : w.extractLsb' 22 4 = g) (h2 : w.extractLsb' 17 5 = d) (h3 : w.extractLsb' 12 5 = a) (h4 : w.extractLsb' 8 4 = c) (h5 : w.extractLsb' 7 1 = sat) (h6 : w.extractLsb' 6 1 = qd) (h7 : w.extractLsb' 5 1 = qa) (h8 : w.extractLsb' 2 3 = rnd) (h9 : w.extractLsb' 0 2 = tgt) :
    unpack w = some (Fields.cn 0x2f#6 g d a c sat qd qa rnd tgt) := by
  unfold unpack
  simp only [h0, h1, h2, h3, h4, h5, h6, h7, h8, h9]
  rfl

/-- Major 0x2f: its packed word. -/
theorem unpack_pack_2f (g : BitVec 4) (d : BitVec 5) (a : BitVec 5) (c : BitVec 4) (sat : BitVec 1) (qd : BitVec 1) (qa : BitVec 1) (rnd : BitVec 3) (tgt : BitVec 2) :
    unpack (Fields.pack (Fields.cn 0x2f#6 g d a c sat qd qa rnd tgt)) = some (Fields.cn 0x2f#6 g d a c sat qd qa rnd tgt) :=
  unpack_of_2f _ g d a c sat qd qa rnd tgt
    (extract_high _ _)
    ((extract_low _ _ 22 4 (by decide)).trans (extract_high _ _))
    ((extract_low _ _ 17 5 (by decide)).trans ((extract_low _ _ 17 5 (by decide)).trans (extract_high _ _)))
    ((extract_low _ _ 12 5 (by decide)).trans ((extract_low _ _ 12 5 (by decide)).trans ((extract_low _ _ 12 5 (by decide)).trans (extract_high _ _))))
    ((extract_low _ _ 8 4 (by decide)).trans ((extract_low _ _ 8 4 (by decide)).trans ((extract_low _ _ 8 4 (by decide)).trans ((extract_low _ _ 8 4 (by decide)).trans (extract_high _ _)))))
    ((extract_low _ _ 7 1 (by decide)).trans ((extract_low _ _ 7 1 (by decide)).trans ((extract_low _ _ 7 1 (by decide)).trans ((extract_low _ _ 7 1 (by decide)).trans ((extract_low _ _ 7 1 (by decide)).trans (extract_high _ _))))))
    ((extract_low _ _ 6 1 (by decide)).trans ((extract_low _ _ 6 1 (by decide)).trans ((extract_low _ _ 6 1 (by decide)).trans ((extract_low _ _ 6 1 (by decide)).trans ((extract_low _ _ 6 1 (by decide)).trans ((extract_low _ _ 6 1 (by decide)).trans (extract_high _ _)))))))
    ((extract_low _ _ 5 1 (by decide)).trans ((extract_low _ _ 5 1 (by decide)).trans ((extract_low _ _ 5 1 (by decide)).trans ((extract_low _ _ 5 1 (by decide)).trans ((extract_low _ _ 5 1 (by decide)).trans ((extract_low _ _ 5 1 (by decide)).trans ((extract_low _ _ 5 1 (by decide)).trans (extract_high _ _))))))))
    ((extract_low _ _ 2 3 (by decide)).trans ((extract_low _ _ 2 3 (by decide)).trans ((extract_low _ _ 2 3 (by decide)).trans ((extract_low _ _ 2 3 (by decide)).trans ((extract_low _ _ 2 3 (by decide)).trans ((extract_low _ _ 2 3 (by decide)).trans ((extract_low _ _ 2 3 (by decide)).trans ((extract_low _ _ 2 3 (by decide)).trans (extract_high _ _)))))))))
    ((extract_low _ _ 0 2 (by decide)).trans ((extract_low _ _ 0 2 (by decide)).trans ((extract_low _ _ 0 2 (by decide)).trans ((extract_low _ _ 0 2 (by decide)).trans ((extract_low _ _ 0 2 (by decide)).trans ((extract_low _ _ 0 2 (by decide)).trans ((extract_low _ _ 0 2 (by decide)).trans ((extract_low _ _ 0 2 (by decide)).trans ((extract_low _ _ 0 2 (by decide)).trans (extract_all _))))))))))

/-- Major 0x30: the format of its word. -/
theorem unpack_of_30 (w : BitVec 32) (g : BitVec 4) (d : BitVec 5) (a : BitVec 5) (c : BitVec 4) (sat : BitVec 1) (qd : BitVec 1) (qa : BitVec 1) (rnd : BitVec 3) (tgt : BitVec 2)
    (h0 : w.extractLsb' 26 6 = 0x30#6) (h1 : w.extractLsb' 22 4 = g) (h2 : w.extractLsb' 17 5 = d) (h3 : w.extractLsb' 12 5 = a) (h4 : w.extractLsb' 8 4 = c) (h5 : w.extractLsb' 7 1 = sat) (h6 : w.extractLsb' 6 1 = qd) (h7 : w.extractLsb' 5 1 = qa) (h8 : w.extractLsb' 2 3 = rnd) (h9 : w.extractLsb' 0 2 = tgt) :
    unpack w = some (Fields.cn 0x30#6 g d a c sat qd qa rnd tgt) := by
  unfold unpack
  simp only [h0, h1, h2, h3, h4, h5, h6, h7, h8, h9]
  rfl

/-- Major 0x30: its packed word. -/
theorem unpack_pack_30 (g : BitVec 4) (d : BitVec 5) (a : BitVec 5) (c : BitVec 4) (sat : BitVec 1) (qd : BitVec 1) (qa : BitVec 1) (rnd : BitVec 3) (tgt : BitVec 2) :
    unpack (Fields.pack (Fields.cn 0x30#6 g d a c sat qd qa rnd tgt)) = some (Fields.cn 0x30#6 g d a c sat qd qa rnd tgt) :=
  unpack_of_30 _ g d a c sat qd qa rnd tgt
    (extract_high _ _)
    ((extract_low _ _ 22 4 (by decide)).trans (extract_high _ _))
    ((extract_low _ _ 17 5 (by decide)).trans ((extract_low _ _ 17 5 (by decide)).trans (extract_high _ _)))
    ((extract_low _ _ 12 5 (by decide)).trans ((extract_low _ _ 12 5 (by decide)).trans ((extract_low _ _ 12 5 (by decide)).trans (extract_high _ _))))
    ((extract_low _ _ 8 4 (by decide)).trans ((extract_low _ _ 8 4 (by decide)).trans ((extract_low _ _ 8 4 (by decide)).trans ((extract_low _ _ 8 4 (by decide)).trans (extract_high _ _)))))
    ((extract_low _ _ 7 1 (by decide)).trans ((extract_low _ _ 7 1 (by decide)).trans ((extract_low _ _ 7 1 (by decide)).trans ((extract_low _ _ 7 1 (by decide)).trans ((extract_low _ _ 7 1 (by decide)).trans (extract_high _ _))))))
    ((extract_low _ _ 6 1 (by decide)).trans ((extract_low _ _ 6 1 (by decide)).trans ((extract_low _ _ 6 1 (by decide)).trans ((extract_low _ _ 6 1 (by decide)).trans ((extract_low _ _ 6 1 (by decide)).trans ((extract_low _ _ 6 1 (by decide)).trans (extract_high _ _)))))))
    ((extract_low _ _ 5 1 (by decide)).trans ((extract_low _ _ 5 1 (by decide)).trans ((extract_low _ _ 5 1 (by decide)).trans ((extract_low _ _ 5 1 (by decide)).trans ((extract_low _ _ 5 1 (by decide)).trans ((extract_low _ _ 5 1 (by decide)).trans ((extract_low _ _ 5 1 (by decide)).trans (extract_high _ _))))))))
    ((extract_low _ _ 2 3 (by decide)).trans ((extract_low _ _ 2 3 (by decide)).trans ((extract_low _ _ 2 3 (by decide)).trans ((extract_low _ _ 2 3 (by decide)).trans ((extract_low _ _ 2 3 (by decide)).trans ((extract_low _ _ 2 3 (by decide)).trans ((extract_low _ _ 2 3 (by decide)).trans ((extract_low _ _ 2 3 (by decide)).trans (extract_high _ _)))))))))
    ((extract_low _ _ 0 2 (by decide)).trans ((extract_low _ _ 0 2 (by decide)).trans ((extract_low _ _ 0 2 (by decide)).trans ((extract_low _ _ 0 2 (by decide)).trans ((extract_low _ _ 0 2 (by decide)).trans ((extract_low _ _ 0 2 (by decide)).trans ((extract_low _ _ 0 2 (by decide)).trans ((extract_low _ _ 0 2 (by decide)).trans ((extract_low _ _ 0 2 (by decide)).trans (extract_all _))))))))))

/-- Major 0x31: the format of its word. -/
theorem unpack_of_31 (w : BitVec 32) (g : BitVec 4) (d : BitVec 5) (a : BitVec 5) (qd : BitVec 1) (qa : BitVec 1) (fr : BitVec 3) (rnd : BitVec 3) (z : BitVec 4)
    (h0 : w.extractLsb' 26 6 = 0x31#6) (h1 : w.extractLsb' 22 4 = g) (h2 : w.extractLsb' 17 5 = d) (h3 : w.extractLsb' 12 5 = a) (h4 : w.extractLsb' 11 1 = qd) (h5 : w.extractLsb' 10 1 = qa) (h6 : w.extractLsb' 7 3 = fr) (h7 : w.extractLsb' 4 3 = rnd) (h8 : w.extractLsb' 0 4 = z) :
    unpack w = some (Fields.cw 0x31#6 g d a qd qa fr rnd z) := by
  unfold unpack
  simp only [h0, h1, h2, h3, h4, h5, h6, h7, h8]
  rfl

/-- Major 0x31: its packed word. -/
theorem unpack_pack_31 (g : BitVec 4) (d : BitVec 5) (a : BitVec 5) (qd : BitVec 1) (qa : BitVec 1) (fr : BitVec 3) (rnd : BitVec 3) (z : BitVec 4) :
    unpack (Fields.pack (Fields.cw 0x31#6 g d a qd qa fr rnd z)) = some (Fields.cw 0x31#6 g d a qd qa fr rnd z) :=
  unpack_of_31 _ g d a qd qa fr rnd z
    (extract_high _ _)
    ((extract_low _ _ 22 4 (by decide)).trans (extract_high _ _))
    ((extract_low _ _ 17 5 (by decide)).trans ((extract_low _ _ 17 5 (by decide)).trans (extract_high _ _)))
    ((extract_low _ _ 12 5 (by decide)).trans ((extract_low _ _ 12 5 (by decide)).trans ((extract_low _ _ 12 5 (by decide)).trans (extract_high _ _))))
    ((extract_low _ _ 11 1 (by decide)).trans ((extract_low _ _ 11 1 (by decide)).trans ((extract_low _ _ 11 1 (by decide)).trans ((extract_low _ _ 11 1 (by decide)).trans (extract_high _ _)))))
    ((extract_low _ _ 10 1 (by decide)).trans ((extract_low _ _ 10 1 (by decide)).trans ((extract_low _ _ 10 1 (by decide)).trans ((extract_low _ _ 10 1 (by decide)).trans ((extract_low _ _ 10 1 (by decide)).trans (extract_high _ _))))))
    ((extract_low _ _ 7 3 (by decide)).trans ((extract_low _ _ 7 3 (by decide)).trans ((extract_low _ _ 7 3 (by decide)).trans ((extract_low _ _ 7 3 (by decide)).trans ((extract_low _ _ 7 3 (by decide)).trans ((extract_low _ _ 7 3 (by decide)).trans (extract_high _ _)))))))
    ((extract_low _ _ 4 3 (by decide)).trans ((extract_low _ _ 4 3 (by decide)).trans ((extract_low _ _ 4 3 (by decide)).trans ((extract_low _ _ 4 3 (by decide)).trans ((extract_low _ _ 4 3 (by decide)).trans ((extract_low _ _ 4 3 (by decide)).trans ((extract_low _ _ 4 3 (by decide)).trans (extract_high _ _))))))))
    ((extract_low _ _ 0 4 (by decide)).trans ((extract_low _ _ 0 4 (by decide)).trans ((extract_low _ _ 0 4 (by decide)).trans ((extract_low _ _ 0 4 (by decide)).trans ((extract_low _ _ 0 4 (by decide)).trans ((extract_low _ _ 0 4 (by decide)).trans ((extract_low _ _ 0 4 (by decide)).trans ((extract_low _ _ 0 4 (by decide)).trans (extract_all _)))))))))

/-- Major 0x32: the format of its word. -/
theorem unpack_of_32 (w : BitVec 32) (g : BitVec 4) (d : BitVec 5) (a : BitVec 5) (qd : BitVec 1) (qa : BitVec 1) (dir : BitVec 1) (rnd : BitVec 3) (z : BitVec 6)
    (h0 : w.extractLsb' 26 6 = 0x32#6) (h1 : w.extractLsb' 22 4 = g) (h2 : w.extractLsb' 17 5 = d) (h3 : w.extractLsb' 12 5 = a) (h4 : w.extractLsb' 11 1 = qd) (h5 : w.extractLsb' 10 1 = qa) (h6 : w.extractLsb' 9 1 = dir) (h7 : w.extractLsb' 6 3 = rnd) (h8 : w.extractLsb' 0 6 = z) :
    unpack w = some (Fields.fx 0x32#6 g d a qd qa dir rnd z) := by
  unfold unpack
  simp only [h0, h1, h2, h3, h4, h5, h6, h7, h8]
  rfl

/-- Major 0x32: its packed word. -/
theorem unpack_pack_32 (g : BitVec 4) (d : BitVec 5) (a : BitVec 5) (qd : BitVec 1) (qa : BitVec 1) (dir : BitVec 1) (rnd : BitVec 3) (z : BitVec 6) :
    unpack (Fields.pack (Fields.fx 0x32#6 g d a qd qa dir rnd z)) = some (Fields.fx 0x32#6 g d a qd qa dir rnd z) :=
  unpack_of_32 _ g d a qd qa dir rnd z
    (extract_high _ _)
    ((extract_low _ _ 22 4 (by decide)).trans (extract_high _ _))
    ((extract_low _ _ 17 5 (by decide)).trans ((extract_low _ _ 17 5 (by decide)).trans (extract_high _ _)))
    ((extract_low _ _ 12 5 (by decide)).trans ((extract_low _ _ 12 5 (by decide)).trans ((extract_low _ _ 12 5 (by decide)).trans (extract_high _ _))))
    ((extract_low _ _ 11 1 (by decide)).trans ((extract_low _ _ 11 1 (by decide)).trans ((extract_low _ _ 11 1 (by decide)).trans ((extract_low _ _ 11 1 (by decide)).trans (extract_high _ _)))))
    ((extract_low _ _ 10 1 (by decide)).trans ((extract_low _ _ 10 1 (by decide)).trans ((extract_low _ _ 10 1 (by decide)).trans ((extract_low _ _ 10 1 (by decide)).trans ((extract_low _ _ 10 1 (by decide)).trans (extract_high _ _))))))
    ((extract_low _ _ 9 1 (by decide)).trans ((extract_low _ _ 9 1 (by decide)).trans ((extract_low _ _ 9 1 (by decide)).trans ((extract_low _ _ 9 1 (by decide)).trans ((extract_low _ _ 9 1 (by decide)).trans ((extract_low _ _ 9 1 (by decide)).trans (extract_high _ _)))))))
    ((extract_low _ _ 6 3 (by decide)).trans ((extract_low _ _ 6 3 (by decide)).trans ((extract_low _ _ 6 3 (by decide)).trans ((extract_low _ _ 6 3 (by decide)).trans ((extract_low _ _ 6 3 (by decide)).trans ((extract_low _ _ 6 3 (by decide)).trans ((extract_low _ _ 6 3 (by decide)).trans (extract_high _ _))))))))
    ((extract_low _ _ 0 6 (by decide)).trans ((extract_low _ _ 0 6 (by decide)).trans ((extract_low _ _ 0 6 (by decide)).trans ((extract_low _ _ 0 6 (by decide)).trans ((extract_low _ _ 0 6 (by decide)).trans ((extract_low _ _ 0 6 (by decide)).trans ((extract_low _ _ 0 6 (by decide)).trans ((extract_low _ _ 0 6 (by decide)).trans (extract_all _)))))))))

/-- Major 0x33: the format of its word. -/
theorem unpack_of_33 (w : BitVec 32) (g : BitVec 4) (d : BitVec 5) (a : BitVec 5) (c : BitVec 5) (qa : BitVec 1) (blk : BitVec 3) (rnd : BitVec 3)
    (h0 : w.extractLsb' 26 6 = 0x33#6) (h1 : w.extractLsb' 22 4 = g) (h2 : w.extractLsb' 17 5 = d) (h3 : w.extractLsb' 12 5 = a) (h4 : w.extractLsb' 7 5 = c) (h5 : w.extractLsb' 6 1 = qa) (h6 : w.extractLsb' 3 3 = blk) (h7 : w.extractLsb' 0 3 = rnd) :
    unpack w = some (Fields.qx 0x33#6 g d a c qa blk rnd) := by
  unfold unpack
  simp only [h0, h1, h2, h3, h4, h5, h6, h7]
  rfl

/-- Major 0x33: its packed word. -/
theorem unpack_pack_33 (g : BitVec 4) (d : BitVec 5) (a : BitVec 5) (c : BitVec 5) (qa : BitVec 1) (blk : BitVec 3) (rnd : BitVec 3) :
    unpack (Fields.pack (Fields.qx 0x33#6 g d a c qa blk rnd)) = some (Fields.qx 0x33#6 g d a c qa blk rnd) :=
  unpack_of_33 _ g d a c qa blk rnd
    (extract_high _ _)
    ((extract_low _ _ 22 4 (by decide)).trans (extract_high _ _))
    ((extract_low _ _ 17 5 (by decide)).trans ((extract_low _ _ 17 5 (by decide)).trans (extract_high _ _)))
    ((extract_low _ _ 12 5 (by decide)).trans ((extract_low _ _ 12 5 (by decide)).trans ((extract_low _ _ 12 5 (by decide)).trans (extract_high _ _))))
    ((extract_low _ _ 7 5 (by decide)).trans ((extract_low _ _ 7 5 (by decide)).trans ((extract_low _ _ 7 5 (by decide)).trans ((extract_low _ _ 7 5 (by decide)).trans (extract_high _ _)))))
    ((extract_low _ _ 6 1 (by decide)).trans ((extract_low _ _ 6 1 (by decide)).trans ((extract_low _ _ 6 1 (by decide)).trans ((extract_low _ _ 6 1 (by decide)).trans ((extract_low _ _ 6 1 (by decide)).trans (extract_high _ _))))))
    ((extract_low _ _ 3 3 (by decide)).trans ((extract_low _ _ 3 3 (by decide)).trans ((extract_low _ _ 3 3 (by decide)).trans ((extract_low _ _ 3 3 (by decide)).trans ((extract_low _ _ 3 3 (by decide)).trans ((extract_low _ _ 3 3 (by decide)).trans (extract_high _ _)))))))
    ((extract_low _ _ 0 3 (by decide)).trans ((extract_low _ _ 0 3 (by decide)).trans ((extract_low _ _ 0 3 (by decide)).trans ((extract_low _ _ 0 3 (by decide)).trans ((extract_low _ _ 0 3 (by decide)).trans ((extract_low _ _ 0 3 (by decide)).trans ((extract_low _ _ 0 3 (by decide)).trans (extract_all _))))))))

/-- Major 0x34: the format of its word. -/
theorem unpack_of_34 (w : BitVec 32) (g : BitVec 4) (d : BitVec 5) (a : BitVec 5) (c : BitVec 5) (qd : BitVec 1) (blk : BitVec 3) (z : BitVec 3)
    (h0 : w.extractLsb' 26 6 = 0x34#6) (h1 : w.extractLsb' 22 4 = g) (h2 : w.extractLsb' 17 5 = d) (h3 : w.extractLsb' 12 5 = a) (h4 : w.extractLsb' 7 5 = c) (h5 : w.extractLsb' 6 1 = qd) (h6 : w.extractLsb' 3 3 = blk) (h7 : w.extractLsb' 0 3 = z) :
    unpack w = some (Fields.dq 0x34#6 g d a c qd blk z) := by
  unfold unpack
  simp only [h0, h1, h2, h3, h4, h5, h6, h7]
  rfl

/-- Major 0x34: its packed word. -/
theorem unpack_pack_34 (g : BitVec 4) (d : BitVec 5) (a : BitVec 5) (c : BitVec 5) (qd : BitVec 1) (blk : BitVec 3) (z : BitVec 3) :
    unpack (Fields.pack (Fields.dq 0x34#6 g d a c qd blk z)) = some (Fields.dq 0x34#6 g d a c qd blk z) :=
  unpack_of_34 _ g d a c qd blk z
    (extract_high _ _)
    ((extract_low _ _ 22 4 (by decide)).trans (extract_high _ _))
    ((extract_low _ _ 17 5 (by decide)).trans ((extract_low _ _ 17 5 (by decide)).trans (extract_high _ _)))
    ((extract_low _ _ 12 5 (by decide)).trans ((extract_low _ _ 12 5 (by decide)).trans ((extract_low _ _ 12 5 (by decide)).trans (extract_high _ _))))
    ((extract_low _ _ 7 5 (by decide)).trans ((extract_low _ _ 7 5 (by decide)).trans ((extract_low _ _ 7 5 (by decide)).trans ((extract_low _ _ 7 5 (by decide)).trans (extract_high _ _)))))
    ((extract_low _ _ 6 1 (by decide)).trans ((extract_low _ _ 6 1 (by decide)).trans ((extract_low _ _ 6 1 (by decide)).trans ((extract_low _ _ 6 1 (by decide)).trans ((extract_low _ _ 6 1 (by decide)).trans (extract_high _ _))))))
    ((extract_low _ _ 3 3 (by decide)).trans ((extract_low _ _ 3 3 (by decide)).trans ((extract_low _ _ 3 3 (by decide)).trans ((extract_low _ _ 3 3 (by decide)).trans ((extract_low _ _ 3 3 (by decide)).trans ((extract_low _ _ 3 3 (by decide)).trans (extract_high _ _)))))))
    ((extract_low _ _ 0 3 (by decide)).trans ((extract_low _ _ 0 3 (by decide)).trans ((extract_low _ _ 0 3 (by decide)).trans ((extract_low _ _ 0 3 (by decide)).trans ((extract_low _ _ 0 3 (by decide)).trans ((extract_low _ _ 0 3 (by decide)).trans ((extract_low _ _ 0 3 (by decide)).trans (extract_all _))))))))

/-- Major 0x35: the format of its word. -/
theorem unpack_of_35 (w : BitVec 32) (idx : BitVec 6) (a : BitVec 5) (off : BitVec 15)
    (h0 : w.extractLsb' 26 6 = 0x35#6) (h1 : w.extractLsb' 20 6 = idx) (h2 : w.extractLsb' 15 5 = a) (h3 : w.extractLsb' 0 15 = off) :
    unpack w = some (Fields.tl 0x35#6 idx a off) := by
  unfold unpack
  simp only [h0, h1, h2, h3]
  rfl

/-- Major 0x35: its packed word. -/
theorem unpack_pack_35 (idx : BitVec 6) (a : BitVec 5) (off : BitVec 15) :
    unpack (Fields.pack (Fields.tl 0x35#6 idx a off)) = some (Fields.tl 0x35#6 idx a off) :=
  unpack_of_35 _ idx a off
    (extract_high _ _)
    ((extract_low _ _ 20 6 (by decide)).trans (extract_high _ _))
    ((extract_low _ _ 15 5 (by decide)).trans ((extract_low _ _ 15 5 (by decide)).trans (extract_high _ _)))
    ((extract_low _ _ 0 15 (by decide)).trans ((extract_low _ _ 0 15 (by decide)).trans ((extract_low _ _ 0 15 (by decide)).trans (extract_all _))))

/-- Major 0x36: the format of its word. -/
theorem unpack_of_36 (w : BitVec 32) (idx : BitVec 6) (sel : BitVec 4) (val : BitVec 16)
    (h0 : w.extractLsb' 26 6 = 0x36#6) (h1 : w.extractLsb' 20 6 = idx) (h2 : w.extractLsb' 16 4 = sel) (h3 : w.extractLsb' 0 16 = val) :
    unpack w = some (Fields.tx 0x36#6 idx sel val) := by
  unfold unpack
  simp only [h0, h1, h2, h3]
  rfl

/-- Major 0x36: its packed word. -/
theorem unpack_pack_36 (idx : BitVec 6) (sel : BitVec 4) (val : BitVec 16) :
    unpack (Fields.pack (Fields.tx 0x36#6 idx sel val)) = some (Fields.tx 0x36#6 idx sel val) :=
  unpack_of_36 _ idx sel val
    (extract_high _ _)
    ((extract_low _ _ 20 6 (by decide)).trans (extract_high _ _))
    ((extract_low _ _ 16 4 (by decide)).trans ((extract_low _ _ 16 4 (by decide)).trans (extract_high _ _)))
    ((extract_low _ _ 0 16 (by decide)).trans ((extract_low _ _ 0 16 (by decide)).trans ((extract_low _ _ 0 16 (by decide)).trans (extract_all _))))

/-- Major 0x37: the format of its word. -/
theorem unpack_of_37 (w : BitVec 32) (idx : BitVec 6) (sel : BitVec 4) (a : BitVec 5) (z : BitVec 11)
    (h0 : w.extractLsb' 26 6 = 0x37#6) (h1 : w.extractLsb' 20 6 = idx) (h2 : w.extractLsb' 16 4 = sel) (h3 : w.extractLsb' 11 5 = a) (h4 : w.extractLsb' 0 11 = z) :
    unpack w = some (Fields.tg 0x37#6 idx sel a z) := by
  unfold unpack
  simp only [h0, h1, h2, h3, h4]
  rfl

/-- Major 0x37: its packed word. -/
theorem unpack_pack_37 (idx : BitVec 6) (sel : BitVec 4) (a : BitVec 5) (z : BitVec 11) :
    unpack (Fields.pack (Fields.tg 0x37#6 idx sel a z)) = some (Fields.tg 0x37#6 idx sel a z) :=
  unpack_of_37 _ idx sel a z
    (extract_high _ _)
    ((extract_low _ _ 20 6 (by decide)).trans (extract_high _ _))
    ((extract_low _ _ 16 4 (by decide)).trans ((extract_low _ _ 16 4 (by decide)).trans (extract_high _ _)))
    ((extract_low _ _ 11 5 (by decide)).trans ((extract_low _ _ 11 5 (by decide)).trans ((extract_low _ _ 11 5 (by decide)).trans (extract_high _ _))))
    ((extract_low _ _ 0 11 (by decide)).trans ((extract_low _ _ 0 11 (by decide)).trans ((extract_low _ _ 0 11 (by decide)).trans ((extract_low _ _ 0 11 (by decide)).trans (extract_all _)))))

/-- Major 0x38: the format of its word. -/
theorem unpack_of_38 (w : BitVec 32) (d : BitVec 5) (a : BitVec 5) (b : BitVec 5) (x : BitVec 5) (fn : BitVec 6)
    (h0 : w.extractLsb' 26 6 = 0x38#6) (h1 : w.extractLsb' 21 5 = d) (h2 : w.extractLsb' 16 5 = a) (h3 : w.extractLsb' 11 5 = b) (h4 : w.extractLsb' 6 5 = x) (h5 : w.extractLsb' 0 6 = fn) :
    unpack w = some (Fields.sc 0x38#6 d a b x fn) := by
  unfold unpack
  simp only [h0, h1, h2, h3, h4, h5]
  rfl

/-- Major 0x38: its packed word. -/
theorem unpack_pack_38 (d : BitVec 5) (a : BitVec 5) (b : BitVec 5) (x : BitVec 5) (fn : BitVec 6) :
    unpack (Fields.pack (Fields.sc 0x38#6 d a b x fn)) = some (Fields.sc 0x38#6 d a b x fn) :=
  unpack_of_38 _ d a b x fn
    (extract_high _ _)
    ((extract_low _ _ 21 5 (by decide)).trans (extract_high _ _))
    ((extract_low _ _ 16 5 (by decide)).trans ((extract_low _ _ 16 5 (by decide)).trans (extract_high _ _)))
    ((extract_low _ _ 11 5 (by decide)).trans ((extract_low _ _ 11 5 (by decide)).trans ((extract_low _ _ 11 5 (by decide)).trans (extract_high _ _))))
    ((extract_low _ _ 6 5 (by decide)).trans ((extract_low _ _ 6 5 (by decide)).trans ((extract_low _ _ 6 5 (by decide)).trans ((extract_low _ _ 6 5 (by decide)).trans (extract_high _ _)))))
    ((extract_low _ _ 0 6 (by decide)).trans ((extract_low _ _ 0 6 (by decide)).trans ((extract_low _ _ 0 6 (by decide)).trans ((extract_low _ _ 0 6 (by decide)).trans ((extract_low _ _ 0 6 (by decide)).trans (extract_all _))))))

/-- Major 0x39: the format of its word. -/
theorem unpack_of_39 (w : BitVec 32) (d : BitVec 5) (a : BitVec 5) (b : BitVec 5) (x : BitVec 5) (fn : BitVec 6)
    (h0 : w.extractLsb' 26 6 = 0x39#6) (h1 : w.extractLsb' 21 5 = d) (h2 : w.extractLsb' 16 5 = a) (h3 : w.extractLsb' 11 5 = b) (h4 : w.extractLsb' 6 5 = x) (h5 : w.extractLsb' 0 6 = fn) :
    unpack w = some (Fields.sc 0x39#6 d a b x fn) := by
  unfold unpack
  simp only [h0, h1, h2, h3, h4, h5]
  rfl

/-- Major 0x39: its packed word. -/
theorem unpack_pack_39 (d : BitVec 5) (a : BitVec 5) (b : BitVec 5) (x : BitVec 5) (fn : BitVec 6) :
    unpack (Fields.pack (Fields.sc 0x39#6 d a b x fn)) = some (Fields.sc 0x39#6 d a b x fn) :=
  unpack_of_39 _ d a b x fn
    (extract_high _ _)
    ((extract_low _ _ 21 5 (by decide)).trans (extract_high _ _))
    ((extract_low _ _ 16 5 (by decide)).trans ((extract_low _ _ 16 5 (by decide)).trans (extract_high _ _)))
    ((extract_low _ _ 11 5 (by decide)).trans ((extract_low _ _ 11 5 (by decide)).trans ((extract_low _ _ 11 5 (by decide)).trans (extract_high _ _))))
    ((extract_low _ _ 6 5 (by decide)).trans ((extract_low _ _ 6 5 (by decide)).trans ((extract_low _ _ 6 5 (by decide)).trans ((extract_low _ _ 6 5 (by decide)).trans (extract_high _ _)))))
    ((extract_low _ _ 0 6 (by decide)).trans ((extract_low _ _ 0 6 (by decide)).trans ((extract_low _ _ 0 6 (by decide)).trans ((extract_low _ _ 0 6 (by decide)).trans ((extract_low _ _ 0 6 (by decide)).trans (extract_all _))))))

/-- Major 0x3a: the format of its word. -/
theorem unpack_of_3a (w : BitVec 32) (d : BitVec 5) (a : BitVec 5) (b : BitVec 5) (x : BitVec 5) (fn : BitVec 6)
    (h0 : w.extractLsb' 26 6 = 0x3a#6) (h1 : w.extractLsb' 21 5 = d) (h2 : w.extractLsb' 16 5 = a) (h3 : w.extractLsb' 11 5 = b) (h4 : w.extractLsb' 6 5 = x) (h5 : w.extractLsb' 0 6 = fn) :
    unpack w = some (Fields.sc 0x3a#6 d a b x fn) := by
  unfold unpack
  simp only [h0, h1, h2, h3, h4, h5]
  rfl

/-- Major 0x3a: its packed word. -/
theorem unpack_pack_3a (d : BitVec 5) (a : BitVec 5) (b : BitVec 5) (x : BitVec 5) (fn : BitVec 6) :
    unpack (Fields.pack (Fields.sc 0x3a#6 d a b x fn)) = some (Fields.sc 0x3a#6 d a b x fn) :=
  unpack_of_3a _ d a b x fn
    (extract_high _ _)
    ((extract_low _ _ 21 5 (by decide)).trans (extract_high _ _))
    ((extract_low _ _ 16 5 (by decide)).trans ((extract_low _ _ 16 5 (by decide)).trans (extract_high _ _)))
    ((extract_low _ _ 11 5 (by decide)).trans ((extract_low _ _ 11 5 (by decide)).trans ((extract_low _ _ 11 5 (by decide)).trans (extract_high _ _))))
    ((extract_low _ _ 6 5 (by decide)).trans ((extract_low _ _ 6 5 (by decide)).trans ((extract_low _ _ 6 5 (by decide)).trans ((extract_low _ _ 6 5 (by decide)).trans (extract_high _ _)))))
    ((extract_low _ _ 0 6 (by decide)).trans ((extract_low _ _ 0 6 (by decide)).trans ((extract_low _ _ 0 6 (by decide)).trans ((extract_low _ _ 0 6 (by decide)).trans ((extract_low _ _ 0 6 (by decide)).trans (extract_all _))))))

/-- Major 0x3f: the format of its word. -/
theorem unpack_of_3f (w : BitVec 32) (d : BitVec 5) (a : BitVec 5) (b : BitVec 5) (x : BitVec 5) (fn : BitVec 6)
    (h0 : w.extractLsb' 26 6 = 0x3f#6) (h1 : w.extractLsb' 21 5 = d) (h2 : w.extractLsb' 16 5 = a) (h3 : w.extractLsb' 11 5 = b) (h4 : w.extractLsb' 6 5 = x) (h5 : w.extractLsb' 0 6 = fn) :
    unpack w = some (Fields.sc 0x3f#6 d a b x fn) := by
  unfold unpack
  simp only [h0, h1, h2, h3, h4, h5]
  rfl

/-- Major 0x3f: its packed word. -/
theorem unpack_pack_3f (d : BitVec 5) (a : BitVec 5) (b : BitVec 5) (x : BitVec 5) (fn : BitVec 6) :
    unpack (Fields.pack (Fields.sc 0x3f#6 d a b x fn)) = some (Fields.sc 0x3f#6 d a b x fn) :=
  unpack_of_3f _ d a b x fn
    (extract_high _ _)
    ((extract_low _ _ 21 5 (by decide)).trans (extract_high _ _))
    ((extract_low _ _ 16 5 (by decide)).trans ((extract_low _ _ 16 5 (by decide)).trans (extract_high _ _)))
    ((extract_low _ _ 11 5 (by decide)).trans ((extract_low _ _ 11 5 (by decide)).trans ((extract_low _ _ 11 5 (by decide)).trans (extract_high _ _))))
    ((extract_low _ _ 6 5 (by decide)).trans ((extract_low _ _ 6 5 (by decide)).trans ((extract_low _ _ 6 5 (by decide)).trans ((extract_low _ _ 6 5 (by decide)).trans (extract_high _ _)))))
    ((extract_low _ _ 0 6 (by decide)).trans ((extract_low _ _ 0 6 (by decide)).trans ((extract_low _ _ 0 6 (by decide)).trans ((extract_low _ _ 0 6 (by decide)).trans ((extract_low _ _ 0 6 (by decide)).trans (extract_all _))))))

end Sys2Proof.Laws
end

