-- ==== Sys2Proof/Laws/PerInstr.lean ====
section
/-!
SUPPORT. The encoding of every instruction, constructor by constructor: the fields of a well-formed instruction come back
from its packed word, and the codes in them come back as the instruction (R247 to R254).
-/

-- One declaration at a time, so that the package as one text compiles in little memory.
set_option Elab.async false

namespace Sys2Proof.Laws
set_option linter.unusedSimpArgs false

/-! ### Codes (R248, R251) -/

/-- The code of a guard comes back. -/
theorem guard_ofBits_bits (g : Guard) : Guard.ofBits g.bits = g := by
  cases g with
  | pred k => revert k; decide
  | stage n => revert n; decide

/-- The bit of a flag comes back. -/
theorem bit_eq_one (b : Bool) : (bit b == 1#1) = b := by cases b <;> rfl

/-- The code of a Cc comes back. -/
theorem cc_ofBits_bits (x : Cc) : Cc.ofBits x.bits = some x := by cases x <;> rfl

/-- The code of a VType comes back. -/
theorem vType_ofBits_bits (x : VType) : VType.ofBits x.bits = some x := by cases x <;> rfl

/-- The code of a Rnd comes back. -/
theorem rnd_ofBits_bits (x : Rnd) : Rnd.ofBits x.bits = some x := by cases x <;> rfl

/-- The code of a Scope comes back. -/
theorem scope_ofBits_bits (x : Scope) : Scope.ofBits x.bits = some x := by cases x <;> rfl

/-- The code of a Order comes back. -/
theorem order_ofBits_bits (x : Order) : Order.ofBits x.bits = some x := by cases x <;> rfl

/-- The code of a Esz comes back. -/
theorem esz_ofBits_bits (x : Esz) : Esz.ofBits x.bits = some x := by cases x <;> rfl

/-- The code of a Blk comes back. -/
theorem blk_ofBits_bits (x : Blk) : Blk.ofBits x.bits = some x := by cases x <;> rfl

/-- The code of a NarrowFp comes back. -/
theorem narrowFp_ofBits_bits (x : NarrowFp) : NarrowFp.ofBits x.bits = some x := by cases x <;> rfl

/-- The code of a NarrowInt comes back. -/
theorem narrowInt_ofBits_bits (x : NarrowInt) : NarrowInt.ofBits x.bits = some x := by cases x <;> rfl

/-- The code of a WidenFrom comes back. -/
theorem widenFrom_ofBits_bits (x : WidenFrom) : WidenFrom.ofBits x.bits = some x := by cases x <;> rfl

/-- The two halves of a 10-bit operand. -/
theorem halves (n : BitVec 10) : n.extractLsb' 5 5 ++ n.extractLsb' 0 5 = n := by
  have : ∀ m : BitVec 10, m.extractLsb' 5 5 ++ m.extractLsb' 0 5 = m := by decide
  exact this n

/-- A loop level in a 5-bit operand field comes back. -/
theorem low_two (x : BitVec 2) : (0#3 ++ x).extractLsb' 0 2 = x := by revert x; decide

/-- A predicate number in a 5-bit operand field comes back. -/
theorem low_three (x : BitVec 3) : (0#2 ++ x).extractLsb' 0 3 = x := by revert x; decide

/-- A predicate number in a guard field comes back. -/
theorem low_three_guard (x : BitVec 3) : (0#1 ++ x).extractLsb' 0 3 = x := by revert x; decide

/-- The counter register of a loop comes back. -/
theorem loop_count (x : BitVec 5) : (x ++ 0#6).extractLsb' 6 5 = x := by revert x; decide

/-- The values of three bits. -/
theorem three_bits (k : BitVec 3) :
    k = 0#3 ∨ k = 1#3 ∨ k = 2#3 ∨ k = 3#3 ∨ k = 4#3 ∨ k = 5#3 ∨ k = 6#3 ∨ k = 7#3 := by revert k; decide

namespace RoundTrip

/-- The fields that the encoding tables give an instruction come back from its word, and the instruction from them. -/
def Statement (i : Instr) : Prop :=
  ∀ f, fieldsOf i = some f → wellFormed i = true → unpack f.pack = some f ∧ f.instr = some i

theorem add (g : Guard) (d : Reg) (a : Reg) (b : Reg) : Statement (.add g d a b) := by
  intro f hf hw
  cases hf
  exact ⟨unpack_pack_01 .., by simp only [Fields.instr, ofMajor01, guard_ofBits_bits]; rfl⟩
theorem sub (g : Guard) (d : Reg) (a : Reg) (b : Reg) : Statement (.sub g d a b) := by
  intro f hf hw
  cases hf
  exact ⟨unpack_pack_01 .., by simp only [Fields.instr, ofMajor01, guard_ofBits_bits]; rfl⟩
theorem mul (g : Guard) (d : Reg) (a : Reg) (b : Reg) : Statement (.mul g d a b) := by
  intro f hf hw
  cases hf
  exact ⟨unpack_pack_01 .., by simp only [Fields.instr, ofMajor01, guard_ofBits_bits]; rfl⟩
theorem mulhI (g : Guard) (d : Reg) (a : Reg) (b : Reg) : Statement (.mulhI g d a b) := by
  intro f hf hw
  cases hf
  exact ⟨unpack_pack_01 .., by simp only [Fields.instr, ofMajor01, guard_ofBits_bits]; rfl⟩
theorem mulhN (g : Guard) (d : Reg) (a : Reg) (b : Reg) : Statement (.mulhN g d a b) := by
  intro f hf hw
  cases hf
  exact ⟨unpack_pack_01 .., by simp only [Fields.instr, ofMajor01, guard_ofBits_bits]; rfl⟩
theorem divI (g : Guard) (d : Reg) (a : Reg) (b : Reg) : Statement (.divI g d a b) := by
  intro f hf hw
  cases hf
  exact ⟨unpack_pack_01 .., by simp only [Fields.instr, ofMajor01, guard_ofBits_bits]; rfl⟩
theorem divN (g : Guard) (d : Reg) (a : Reg) (b : Reg) : Statement (.divN g d a b) := by
  intro f hf hw
  cases hf
  exact ⟨unpack_pack_01 .., by simp only [Fields.instr, ofMajor01, guard_ofBits_bits]; rfl⟩
theorem remI (g : Guard) (d : Reg) (a : Reg) (b : Reg) : Statement (.remI g d a b) := by
  intro f hf hw
  cases hf
  exact ⟨unpack_pack_01 .., by simp only [Fields.instr, ofMajor01, guard_ofBits_bits]; rfl⟩
theorem remN (g : Guard) (d : Reg) (a : Reg) (b : Reg) : Statement (.remN g d a b) := by
  intro f hf hw
  cases hf
  exact ⟨unpack_pack_01 .., by simp only [Fields.instr, ofMajor01, guard_ofBits_bits]; rfl⟩
theorem madd (g : Guard) (d : Reg) (a : Reg) (b : Reg) : Statement (.madd g d a b) := by
  intro f hf hw
  cases hf
  exact ⟨unpack_pack_01 .., by simp only [Fields.instr, ofMajor01, guard_ofBits_bits]; rfl⟩
theorem and (g : Guard) (d : Reg) (a : Reg) (b : Reg) : Statement (.and g d a b) := by
  intro f hf hw
  cases hf
  exact ⟨unpack_pack_01 .., by simp only [Fields.instr, ofMajor01, guard_ofBits_bits]; rfl⟩
theorem or (g : Guard) (d : Reg) (a : Reg) (b : Reg) : Statement (.or g d a b) := by
  intro f hf hw
  cases hf
  exact ⟨unpack_pack_01 .., by simp only [Fields.instr, ofMajor01, guard_ofBits_bits]; rfl⟩
theorem xor (g : Guard) (d : Reg) (a : Reg) (b : Reg) : Statement (.xor g d a b) := by
  intro f hf hw
  cases hf
  exact ⟨unpack_pack_01 .., by simp only [Fields.instr, ofMajor01, guard_ofBits_bits]; rfl⟩
theorem shl (g : Guard) (d : Reg) (a : Reg) (b : Reg) : Statement (.shl g d a b) := by
  intro f hf hw
  cases hf
  exact ⟨unpack_pack_01 .., by simp only [Fields.instr, ofMajor01, guard_ofBits_bits]; rfl⟩
theorem shrI (g : Guard) (d : Reg) (a : Reg) (b : Reg) : Statement (.shrI g d a b) := by
  intro f hf hw
  cases hf
  exact ⟨unpack_pack_01 .., by simp only [Fields.instr, ofMajor01, guard_ofBits_bits]; rfl⟩
theorem shrN (g : Guard) (d : Reg) (a : Reg) (b : Reg) : Statement (.shrN g d a b) := by
  intro f hf hw
  cases hf
  exact ⟨unpack_pack_01 .., by simp only [Fields.instr, ofMajor01, guard_ofBits_bits]; rfl⟩
theorem rot (g : Guard) (d : Reg) (a : Reg) (b : Reg) : Statement (.rot g d a b) := by
  intro f hf hw
  cases hf
  exact ⟨unpack_pack_01 .., by simp only [Fields.instr, ofMajor01, guard_ofBits_bits]; rfl⟩
theorem clz (g : Guard) (d : Reg) (a : Reg) : Statement (.clz g d a) := by
  intro f hf hw
  cases hf
  exact ⟨unpack_pack_01 .., by simp only [Fields.instr, ofMajor01, guard_ofBits_bits]; rfl⟩
theorem ctz (g : Guard) (d : Reg) (a : Reg) : Statement (.ctz g d a) := by
  intro f hf hw
  cases hf
  exact ⟨unpack_pack_01 .., by simp only [Fields.instr, ofMajor01, guard_ofBits_bits]; rfl⟩
theorem popc (g : Guard) (d : Reg) (a : Reg) : Statement (.popc g d a) := by
  intro f hf hw
  cases hf
  exact ⟨unpack_pack_01 .., by simp only [Fields.instr, ofMajor01, guard_ofBits_bits]; rfl⟩
theorem minI (g : Guard) (d : Reg) (a : Reg) (b : Reg) : Statement (.minI g d a b) := by
  intro f hf hw
  cases hf
  exact ⟨unpack_pack_01 .., by simp only [Fields.instr, ofMajor01, guard_ofBits_bits]; rfl⟩
theorem maxI (g : Guard) (d : Reg) (a : Reg) (b : Reg) : Statement (.maxI g d a b) := by
  intro f hf hw
  cases hf
  exact ⟨unpack_pack_01 .., by simp only [Fields.instr, ofMajor01, guard_ofBits_bits]; rfl⟩
theorem minN (g : Guard) (d : Reg) (a : Reg) (b : Reg) : Statement (.minN g d a b) := by
  intro f hf hw
  cases hf
  exact ⟨unpack_pack_01 .., by simp only [Fields.instr, ofMajor01, guard_ofBits_bits]; rfl⟩
theorem maxN (g : Guard) (d : Reg) (a : Reg) (b : Reg) : Statement (.maxN g d a b) := by
  intro f hf hw
  cases hf
  exact ⟨unpack_pack_01 .., by simp only [Fields.instr, ofMajor01, guard_ofBits_bits]; rfl⟩
theorem setCc (g : Guard) (cc : Cc) (d : Reg) (a : Reg) (b : Reg) : Statement (.setCc g cc d a b) := by
  intro f hf hw
  cases hf
  exact ⟨unpack_pack_01 .., by cases cc <;> (simp only [Fields.instr, ofMajor01, guard_ofBits_bits]; try rfl)⟩
theorem sel (g : Guard) (d : Reg) (a : Reg) (b : Reg) (k : PReg) : Statement (.sel g d a b k) := by
  intro f hf hw
  cases hf
  exact ⟨unpack_pack_01 .., by rcases three_bits k with rfl | rfl | rfl | rfl | rfl | rfl | rfl | rfl <;> (simp only [Fields.instr, ofMajor01, guard_ofBits_bits]; rfl)⟩
theorem addi (d : Reg) (a : Reg) (imm : BitVec 16) : Statement (.addi d a imm) := by
  intro f hf hw
  cases hf
  exact ⟨unpack_pack_02 .., by simp only [Fields.instr, ofMajor02]; rfl⟩
theorem andi (d : Reg) (a : Reg) (imm : BitVec 16) : Statement (.andi d a imm) := by
  intro f hf hw
  cases hf
  exact ⟨unpack_pack_03 .., by simp only [Fields.instr, ofMajor03]; rfl⟩
theorem ori (d : Reg) (a : Reg) (imm : BitVec 16) : Statement (.ori d a imm) := by
  intro f hf hw
  cases hf
  exact ⟨unpack_pack_04 .., by simp only [Fields.instr, ofMajor04]; rfl⟩
theorem xori (d : Reg) (a : Reg) (imm : BitVec 16) : Statement (.xori d a imm) := by
  intro f hf hw
  cases hf
  exact ⟨unpack_pack_05 .., by simp only [Fields.instr, ofMajor05]; rfl⟩
theorem li (d : Reg) (imm : BitVec 21) : Statement (.li d imm) := by
  intro f hf hw
  cases hf
  exact ⟨unpack_pack_06 .., by simp only [Fields.instr, ofMajor06]; rfl⟩
theorem lih (d : Reg) (h : BitVec 2) (imm : BitVec 16) : Statement (.lih d h imm) := by
  intro f hf hw
  cases hf
  exact ⟨unpack_pack_07 .., by simp only [Fields.instr, ofMajor07]; simp [low_two]⟩
theorem lia (d : Reg) (imm : BitVec 21) : Statement (.lia d imm) := by
  intro f hf hw
  cases hf
  exact ⟨unpack_pack_08 .., by simp only [Fields.instr, ofMajor08]; rfl⟩
theorem bfx (d : Reg) (a : Reg) (pos : BitVec 6) (len1 : BitVec 6) : Statement (.bfx d a pos len1) := by
  intro f hf hw
  cases hf
  exact ⟨unpack_pack_09 .., by simp only [Fields.instr, ofMajor09]; rfl⟩
theorem bfxI (d : Reg) (a : Reg) (pos : BitVec 6) (len1 : BitVec 6) : Statement (.bfxI d a pos len1) := by
  intro f hf hw
  cases hf
  exact ⟨unpack_pack_09 .., by simp only [Fields.instr, ofMajor09]; rfl⟩
theorem bfi (d : Reg) (a : Reg) (pos : BitVec 6) (len1 : BitVec 6) : Statement (.bfi d a pos len1) := by
  intro f hf hw
  cases hf
  exact ⟨unpack_pack_09 .., by simp only [Fields.instr, ofMajor09]; rfl⟩
theorem shli (d : Reg) (a : Reg) (n : BitVec 6) : Statement (.shli d a n) := by
  intro f hf hw
  cases hf
  exact ⟨unpack_pack_09 .., by simp only [Fields.instr, ofMajor09]; rfl⟩
theorem shriI (d : Reg) (a : Reg) (n : BitVec 6) : Statement (.shriI d a n) := by
  intro f hf hw
  cases hf
  exact ⟨unpack_pack_09 .., by simp only [Fields.instr, ofMajor09]; rfl⟩
theorem shriN (d : Reg) (a : Reg) (n : BitVec 6) : Statement (.shriN d a n) := by
  intro f hf hw
  cases hf
  exact ⟨unpack_pack_09 .., by simp only [Fields.instr, ofMajor09]; rfl⟩
theorem b (off : BitVec 26) : Statement (.b off) := by
  intro f hf hw
  cases hf
  exact ⟨unpack_pack_0a .., by simp only [Fields.instr, ofMajor0A]; rfl⟩
theorem call (off : BitVec 26) : Statement (.call off) := by
  intro f hf hw
  cases hf
  exact ⟨unpack_pack_0b .., by simp only [Fields.instr, ofMajor0B]; rfl⟩
theorem bcCc (cc : Cc) (a : Reg) (off : BitVec 17) : Statement (.bcCc cc a off) := by
  intro f hf hw
  cases hf
  exact ⟨unpack_pack_0c .., by cases cc <;> (simp only [Fields.instr, ofMajor0C]; try rfl)⟩
theorem bcmpCc (cc : Cc) (a : Reg) (b : Reg) (off : BitVec 12) : Statement (.bcmpCc cc a b off) := by
  intro f hf hw
  cases hf
  exact ⟨unpack_pack_0d .., by cases cc <;> (simp only [Fields.instr, ofMajor0D]; try rfl)⟩
theorem callr (a : Reg) : Statement (.callr a) := by
  intro f hf hw
  cases hf
  exact ⟨unpack_pack_0e .., by simp only [Fields.instr, ofMajor0E]; rfl⟩
theorem ret : Statement (.ret) := by
  intro f hf hw
  cases hf
  exact ⟨unpack_pack_0e .., by simp only [Fields.instr, ofMajor0E]; rfl⟩
theorem jr (a : Reg) : Statement (.jr a) := by
  intro f hf hw
  cases hf
  exact ⟨unpack_pack_0e .., by simp only [Fields.instr, ofMajor0E]; rfl⟩
theorem tend : Statement (.tend) := by
  intro f hf hw
  cases hf
  exact ⟨unpack_pack_0e .., by simp only [Fields.instr, ofMajor0E]; rfl⟩
theorem tyield : Statement (.tyield) := by
  intro f hf hw
  cases hf
  exact ⟨unpack_pack_0e .., by simp only [Fields.instr, ofMajor0E]; rfl⟩
theorem tyieldTimeout : Statement (.tyieldTimeout) := by intro f hf; simp [fieldsOf] at hf
theorem trap (n : BitVec 10) : Statement (.trap n) := by
  intro f hf hw
  cases hf
  exact ⟨unpack_pack_0e .., by simp only [Fields.instr, ofMajor0E]; simp [halves]⟩
theorem brk (n : BitVec 10) : Statement (.brk n) := by
  intro f hf hw
  cases hf
  exact ⟨unpack_pack_0e .., by simp only [Fields.instr, ofMajor0E]; simp [halves]⟩
theorem sysc (n : BitVec 10) : Statement (.sysc n) := by
  intro f hf hw
  cases hf
  exact ⟨unpack_pack_0e .., by simp only [Fields.instr, ofMajor0E]; simp [halves]⟩
theorem loop (lvl : BitVec 2) (rot : Bool) (cnt : BitVec 11) (len : BitVec 12) : Statement (.loop lvl rot cnt len) := by
  intro f hf hw
  cases hf
  exact ⟨unpack_pack_0f .., by simp only [Fields.instr, ofMajor0F, bit_eq_one]; rfl⟩
theorem loopr (lvl : BitVec 2) (rot : Bool) (a : Reg) (len : BitVec 12) : Statement (.loopr lvl rot a len) := by
  intro f hf hw
  cases hf
  exact ⟨unpack_pack_10 .., by simp only [Fields.instr, ofMajor10, bit_eq_one]; simp [loop_count]⟩
theorem lbrk (lvl : BitVec 2) : Statement (.lbrk lvl) := by
  intro f hf hw
  cases hf
  exact ⟨unpack_pack_11 .., by simp only [Fields.instr, ofMajor11]; simp [low_two]⟩
theorem lbrkl (lvl : BitVec 2) (k : PReg) : Statement (.lbrkl lvl k) := by
  intro f hf hw
  cases hf
  exact ⟨unpack_pack_11 .., by simp only [Fields.instr, ofMajor11]; simp [low_two, low_three]⟩
theorem lnext (lvl : BitVec 2) : Statement (.lnext lvl) := by
  intro f hf hw
  cases hf
  exact ⟨unpack_pack_11 .., by simp only [Fields.instr, ofMajor11]; simp [low_two]⟩
theorem qallot (d : Reg) (a : Reg) : Statement (.qallot d a) := by
  intro f hf hw
  cases hf
  exact ⟨unpack_pack_11 .., by simp only [Fields.instr, ofMajor11]; rfl⟩
theorem qfree (d : Reg) (a : Reg) : Statement (.qfree d a) := by
  intro f hf hw
  cases hf
  exact ⟨unpack_pack_11 .., by simp only [Fields.instr, ofMajor11]; rfl⟩
theorem lsave (a : Reg) : Statement (.lsave a) := by
  intro f hf hw
  cases hf
  exact ⟨unpack_pack_11 .., by simp only [Fields.instr, ofMajor11]; rfl⟩
theorem lrest (a : Reg) : Statement (.lrest a) := by
  intro f hf hw
  cases hf
  exact ⟨unpack_pack_11 .., by simp only [Fields.instr, ofMajor11]; rfl⟩
theorem ldI8 (g : Guard) (d : Reg) (a : Reg) (off : BitVec 9) : Statement (.ldI8 g d a off) := by
  intro f hf hw
  cases hf
  exact ⟨unpack_pack_12 .., by simp only [Fields.instr, ofMajor12, guard_ofBits_bits]; rfl⟩
theorem ldN8 (g : Guard) (d : Reg) (a : Reg) (off : BitVec 9) : Statement (.ldN8 g d a off) := by
  intro f hf hw
  cases hf
  exact ⟨unpack_pack_12 .., by simp only [Fields.instr, ofMajor12, guard_ofBits_bits]; rfl⟩
theorem ldI16 (g : Guard) (d : Reg) (a : Reg) (off : BitVec 9) : Statement (.ldI16 g d a off) := by
  intro f hf hw
  cases hf
  exact ⟨unpack_pack_12 .., by simp only [Fields.instr, ofMajor12, guard_ofBits_bits]; rfl⟩
theorem ldN16 (g : Guard) (d : Reg) (a : Reg) (off : BitVec 9) : Statement (.ldN16 g d a off) := by
  intro f hf hw
  cases hf
  exact ⟨unpack_pack_12 .., by simp only [Fields.instr, ofMajor12, guard_ofBits_bits]; rfl⟩
theorem ldI32 (g : Guard) (d : Reg) (a : Reg) (off : BitVec 9) : Statement (.ldI32 g d a off) := by
  intro f hf hw
  cases hf
  exact ⟨unpack_pack_12 .., by simp only [Fields.instr, ofMajor12, guard_ofBits_bits]; rfl⟩
theorem ldN32 (g : Guard) (d : Reg) (a : Reg) (off : BitVec 9) : Statement (.ldN32 g d a off) := by
  intro f hf hw
  cases hf
  exact ⟨unpack_pack_12 .., by simp only [Fields.instr, ofMajor12, guard_ofBits_bits]; rfl⟩
theorem ldD (g : Guard) (d : Reg) (a : Reg) (off : BitVec 9) : Statement (.ldD g d a off) := by
  intro f hf hw
  cases hf
  exact ⟨unpack_pack_12 .., by simp only [Fields.instr, ofMajor12, guard_ofBits_bits]; rfl⟩
theorem stB (g : Guard) (d : Reg) (a : Reg) (off : BitVec 9) : Statement (.stB g d a off) := by
  intro f hf hw
  cases hf
  exact ⟨unpack_pack_13 .., by simp only [Fields.instr, ofMajor13, guard_ofBits_bits]; rfl⟩
theorem stH (g : Guard) (d : Reg) (a : Reg) (off : BitVec 9) : Statement (.stH g d a off) := by
  intro f hf hw
  cases hf
  exact ⟨unpack_pack_13 .., by simp only [Fields.instr, ofMajor13, guard_ofBits_bits]; rfl⟩
theorem stW (g : Guard) (d : Reg) (a : Reg) (off : BitVec 9) : Statement (.stW g d a off) := by
  intro f hf hw
  cases hf
  exact ⟨unpack_pack_13 .., by simp only [Fields.instr, ofMajor13, guard_ofBits_bits]; rfl⟩
theorem stD (g : Guard) (d : Reg) (a : Reg) (off : BitVec 9) : Statement (.stD g d a off) := by
  intro f hf hw
  cases hf
  exact ⟨unpack_pack_13 .., by simp only [Fields.instr, ofMajor13, guard_ofBits_bits]; rfl⟩
theorem ldAcq (s : Scope) (d : Reg) (a : Reg) : Statement (.ldAcq s d a) := by
  intro f hf hw
  cases hf
  exact ⟨unpack_pack_14 .., by cases s <;> (simp only [Fields.instr, ofMajor14]; try rfl)⟩
theorem stRel (s : Scope) (a : Reg) (b : Reg) : Statement (.stRel s a b) := by
  intro f hf hw
  cases hf
  exact ⟨unpack_pack_14 .., by cases s <;> (simp only [Fields.instr, ofMajor14]; try rfl)⟩
theorem fenceS (s : Scope) : Statement (.fenceS s) := by
  intro f hf hw
  cases hf
  exact ⟨unpack_pack_14 .., by cases s <;> (simp only [Fields.instr, ofMajor14]; try rfl)⟩
theorem pref (a : Reg) : Statement (.pref a) := by
  intro f hf hw
  cases hf
  exact ⟨unpack_pack_14 .., by simp only [Fields.instr, ofMajor14]; rfl⟩
end RoundTrip
theorem RoundTrip.seal (d : Reg) (a : Reg) (b : Reg) : RoundTrip.Statement (.seal d a b) := by
  intro f hf hw
  cases hf
  exact ⟨unpack_pack_14 .., by simp only [Fields.instr, ofMajor14]; rfl⟩
namespace RoundTrip
end RoundTrip
theorem RoundTrip.unseal (d : Reg) (a : Reg) (b : Reg) : RoundTrip.Statement (.unseal d a b) := by
  intro f hf hw
  cases hf
  exact ⟨unpack_pack_14 .., by simp only [Fields.instr, ofMajor14]; rfl⟩
namespace RoundTrip
theorem amoAdd (o : Order) (s : Scope) (w : Bool) (d : Reg) (a : Reg) (b : Reg) : Statement (.amoAdd o s w d a b) := by
  intro f hf hw
  cases hf
  exact ⟨unpack_pack_15 .., by cases o <;> cases s <;> cases w <;> (simp only [Fields.instr, ofMajor15, bit_eq_one]; try rfl)⟩
theorem amoAnd (o : Order) (s : Scope) (w : Bool) (d : Reg) (a : Reg) (b : Reg) : Statement (.amoAnd o s w d a b) := by
  intro f hf hw
  cases hf
  exact ⟨unpack_pack_15 .., by cases o <;> cases s <;> cases w <;> (simp only [Fields.instr, ofMajor15, bit_eq_one]; try rfl)⟩
theorem amoOr (o : Order) (s : Scope) (w : Bool) (d : Reg) (a : Reg) (b : Reg) : Statement (.amoOr o s w d a b) := by
  intro f hf hw
  cases hf
  exact ⟨unpack_pack_15 .., by cases o <;> cases s <;> cases w <;> (simp only [Fields.instr, ofMajor15, bit_eq_one]; try rfl)⟩
theorem amoXor (o : Order) (s : Scope) (w : Bool) (d : Reg) (a : Reg) (b : Reg) : Statement (.amoXor o s w d a b) := by
  intro f hf hw
  cases hf
  exact ⟨unpack_pack_15 .., by cases o <;> cases s <;> cases w <;> (simp only [Fields.instr, ofMajor15, bit_eq_one]; try rfl)⟩
theorem amoMinI (o : Order) (s : Scope) (w : Bool) (d : Reg) (a : Reg) (b : Reg) : Statement (.amoMinI o s w d a b) := by
  intro f hf hw
  cases hf
  exact ⟨unpack_pack_15 .., by cases o <;> cases s <;> cases w <;> (simp only [Fields.instr, ofMajor15, bit_eq_one]; try rfl)⟩
theorem amoMaxI (o : Order) (s : Scope) (w : Bool) (d : Reg) (a : Reg) (b : Reg) : Statement (.amoMaxI o s w d a b) := by
  intro f hf hw
  cases hf
  exact ⟨unpack_pack_15 .., by cases o <;> cases s <;> cases w <;> (simp only [Fields.instr, ofMajor15, bit_eq_one]; try rfl)⟩
theorem amoMinN (o : Order) (s : Scope) (w : Bool) (d : Reg) (a : Reg) (b : Reg) : Statement (.amoMinN o s w d a b) := by
  intro f hf hw
  cases hf
  exact ⟨unpack_pack_15 .., by cases o <;> cases s <;> cases w <;> (simp only [Fields.instr, ofMajor15, bit_eq_one]; try rfl)⟩
theorem amoMaxN (o : Order) (s : Scope) (w : Bool) (d : Reg) (a : Reg) (b : Reg) : Statement (.amoMaxN o s w d a b) := by
  intro f hf hw
  cases hf
  exact ⟨unpack_pack_15 .., by cases o <;> cases s <;> cases w <;> (simp only [Fields.instr, ofMajor15, bit_eq_one]; try rfl)⟩
theorem amoSwap (o : Order) (s : Scope) (w : Bool) (d : Reg) (a : Reg) (b : Reg) : Statement (.amoSwap o s w d a b) := by
  intro f hf hw
  cases hf
  exact ⟨unpack_pack_15 .., by cases o <;> cases s <;> cases w <;> (simp only [Fields.instr, ofMajor15, bit_eq_one]; try rfl)⟩
theorem amoCas (o : Order) (s : Scope) (w : Bool) (d : Reg) (a : Reg) (b : Reg) : Statement (.amoCas o s w d a b) := by
  intro f hf hw
  cases hf
  exact ⟨unpack_pack_15 .., by cases o <;> cases s <;> cases w <;> (simp only [Fields.instr, ofMajor15, bit_eq_one]; try rfl)⟩
theorem amoAddfx (o : Order) (s : Scope) (d : Reg) (a : Reg) (b : Reg) : Statement (.amoAddfx o s d a b) := by
  intro f hf hw
  cases hf
  exact ⟨unpack_pack_15 .., by cases o <;> cases s <;> (simp only [Fields.instr, ofMajor15]; try rfl)⟩
theorem amoAddf (o : Order) (s : Scope) (d : Reg) (a : Reg) (b : Reg) : Statement (.amoAddf o s d a b) := by
  intro f hf hw
  cases hf
  exact ⟨unpack_pack_15 .., by cases o <;> cases s <;> (simp only [Fields.instr, ofMajor15]; try rfl)⟩
theorem spawn (d : Reg) (a : Reg) (b : Reg) : Statement (.spawn d a b) := by
  intro f hf hw
  cases hf
  exact ⟨unpack_pack_16 .., by simp only [Fields.instr, ofMajor16]; rfl⟩
theorem push (d : Reg) (a : Reg) : Statement (.push d a) := by
  intro f hf hw
  cases hf
  exact ⟨unpack_pack_16 .., by simp only [Fields.instr, ofMajor16]; rfl⟩
theorem pushts (d : Reg) (a : Reg) (b : Reg) : Statement (.pushts d a b) := by
  intro f hf hw
  cases hf
  exact ⟨unpack_pack_16 .., by simp only [Fields.instr, ofMajor16]; rfl⟩
theorem twait (a : Reg) (b : Reg) : Statement (.twait a b) := by
  intro f hf hw
  cases hf
  exact ⟨unpack_pack_16 .., by simp only [Fields.instr, ofMajor16]; rfl⟩
theorem commitIrr : Statement (.commitIrr) := by
  intro f hf hw
  cases hf
  exact ⟨unpack_pack_16 .., by simp only [Fields.instr, ofMajor16]; rfl⟩
theorem sarm (d : Reg) (a : Reg) (b : Reg) : Statement (.sarm d a b) := by
  intro f hf hw
  cases hf
  exact ⟨unpack_pack_16 .., by simp only [Fields.instr, ofMajor16]; rfl⟩
theorem swait (a : Reg) (b : Reg) : Statement (.swait a b) := by
  intro f hf hw
  cases hf
  exact ⟨unpack_pack_16 .., by simp only [Fields.instr, ofMajor16]; rfl⟩
theorem sadd (s : Scope) (a : Reg) (b : Reg) : Statement (.sadd s a b) := by
  intro f hf hw
  cases hf
  exact ⟨unpack_pack_16 .., by cases s <;> (simp only [Fields.instr, ofMajor16]; try rfl)⟩
theorem xbarArr (s : Scope) (a : Reg) (b : Reg) : Statement (.xbarArr s a b) := by
  intro f hf hw
  cases hf
  exact ⟨unpack_pack_16 .., by cases s <;> (simp only [Fields.instr, ofMajor16]; try rfl)⟩
theorem barArr (a : Reg) : Statement (.barArr a) := by
  intro f hf hw
  cases hf
  exact ⟨unpack_pack_16 .., by simp only [Fields.instr, ofMajor16]; rfl⟩
theorem barWait (a : Reg) : Statement (.barWait a) := by
  intro f hf hw
  cases hf
  exact ⟨unpack_pack_16 .., by simp only [Fields.instr, ofMajor16]; rfl⟩
theorem lpatch (d : Reg) (a : Reg) (b : Reg) : Statement (.lpatch d a b) := by
  intro f hf hw
  cases hf
  exact ⟨unpack_pack_16 .., by simp only [Fields.instr, ofMajor16]; rfl⟩
theorem larm (d : Reg) (a : Reg) : Statement (.larm d a) := by
  intro f hf hw
  cases hf
  exact ⟨unpack_pack_16 .., by simp only [Fields.instr, ofMajor16]; rfl⟩
theorem wpost (d : Reg) (a : Reg) : Statement (.wpost d a) := by
  intro f hf hw
  cases hf
  exact ⟨unpack_pack_16 .., by simp only [Fields.instr, ofMajor16]; rfl⟩
theorem wquery (d : Reg) (a : Reg) : Statement (.wquery d a) := by
  intro f hf hw
  cases hf
  exact ⟨unpack_pack_16 .., by simp only [Fields.instr, ofMajor16]; rfl⟩
theorem cpLin (a : Reg) : Statement (.cpLin a) := by
  intro f hf hw
  cases hf
  exact ⟨unpack_pack_17 .., by simp only [Fields.instr, ofMajor17]; rfl⟩
theorem cpBox (a : Reg) : Statement (.cpBox a) := by
  intro f hf hw
  cases hf
  exact ⟨unpack_pack_17 .., by simp only [Fields.instr, ofMajor17]; rfl⟩
theorem cpGather (a : Reg) : Statement (.cpGather a) := by
  intro f hf hw
  cases hf
  exact ⟨unpack_pack_17 .., by simp only [Fields.instr, ofMajor17]; rfl⟩
theorem cpScatter (a : Reg) : Statement (.cpScatter a) := by
  intro f hf hw
  cases hf
  exact ⟨unpack_pack_17 .., by simp only [Fields.instr, ofMajor17]; rfl⟩
theorem cpRemote (a : Reg) : Statement (.cpRemote a) := by
  intro f hf hw
  cases hf
  exact ⟨unpack_pack_17 .., by simp only [Fields.instr, ofMajor17]; rfl⟩
theorem cpCancel (a : Reg) : Statement (.cpCancel a) := by
  intro f hf hw
  cases hf
  exact ⟨unpack_pack_17 .., by simp only [Fields.instr, ofMajor17]; rfl⟩
theorem krd (d : Reg) (n : BitVec 10) : Statement (.krd d n) := by
  intro f hf hw
  cases hf
  exact ⟨unpack_pack_3f .., by simp only [Fields.instr, ofMajor3F]; simp [halves]⟩
theorem kwr (a : Reg) (n : BitVec 10) : Statement (.kwr a n) := by
  intro f hf hw
  cases hf
  exact ⟨unpack_pack_3f .., by simp only [Fields.instr, ofMajor3F]; simp [halves]⟩
theorem eret : Statement (.eret) := by
  intro f hf hw
  cases hf
  exact ⟨unpack_pack_3f .., by simp only [Fields.instr, ofMajor3F]; rfl⟩
theorem idle : Statement (.idle) := by
  intro f hf hw
  cases hf
  exact ⟨unpack_pack_3f .., by simp only [Fields.instr, ofMajor3F]; rfl⟩
theorem idleTimeout : Statement (.idleTimeout) := by intro f hf; simp [fieldsOf] at hf
theorem ovl (a : Reg) (b : Reg) : Statement (.ovl a b) := by
  intro f hf hw
  cases hf
  exact ⟨unpack_pack_3f .., by simp only [Fields.instr, ofMajor3F]; rfl⟩
theorem tlbiVa (a : Reg) (b : Reg) : Statement (.tlbiVa a b) := by
  intro f hf hw
  cases hf
  exact ⟨unpack_pack_3f .., by simp only [Fields.instr, ofMajor3F]; rfl⟩
theorem tlbiAsid (a : Reg) : Statement (.tlbiAsid a) := by
  intro f hf hw
  cases hf
  exact ⟨unpack_pack_3f .., by simp only [Fields.instr, ofMajor3F]; rfl⟩
theorem tlbiAll : Statement (.tlbiAll) := by
  intro f hf hw
  cases hf
  exact ⟨unpack_pack_3f .., by simp only [Fields.instr, ofMajor3F]; rfl⟩
theorem vaddF32 (g : Guard) (u : Bool) (d : VOp) (a : VOp) (b : VOp) : Statement (.vaddF32 g u d a b) := by
  intro f hf hw
  cases hf
  exact ⟨unpack_pack_20 .., by simp only [Fields.instr, ofMajor20, guard_ofBits_bits, bit_eq_one]; rfl⟩
theorem vsubF32 (g : Guard) (u : Bool) (d : VOp) (a : VOp) (b : VOp) : Statement (.vsubF32 g u d a b) := by
  intro f hf hw
  cases hf
  exact ⟨unpack_pack_20 .., by simp only [Fields.instr, ofMajor20, guard_ofBits_bits, bit_eq_one]; rfl⟩
theorem vmulF32 (g : Guard) (u : Bool) (d : VOp) (a : VOp) (b : VOp) : Statement (.vmulF32 g u d a b) := by
  intro f hf hw
  cases hf
  exact ⟨unpack_pack_20 .., by simp only [Fields.instr, ofMajor20, guard_ofBits_bits, bit_eq_one]; rfl⟩
theorem vminF32 (g : Guard) (u : Bool) (d : VOp) (a : VOp) (b : VOp) : Statement (.vminF32 g u d a b) := by
  intro f hf hw
  cases hf
  exact ⟨unpack_pack_20 .., by simp only [Fields.instr, ofMajor20, guard_ofBits_bits, bit_eq_one]; rfl⟩
theorem vmaxF32 (g : Guard) (u : Bool) (d : VOp) (a : VOp) (b : VOp) : Statement (.vmaxF32 g u d a b) := by
  intro f hf hw
  cases hf
  exact ⟨unpack_pack_20 .., by simp only [Fields.instr, ofMajor20, guard_ofBits_bits, bit_eq_one]; rfl⟩
theorem vdivF32 (g : Guard) (u : Bool) (d : VOp) (a : VOp) (b : VOp) : Statement (.vdivF32 g u d a b) := by
  intro f hf hw
  cases hf
  exact ⟨unpack_pack_20 .., by simp only [Fields.instr, ofMajor20, guard_ofBits_bits, bit_eq_one]; rfl⟩
theorem vfmaF32 (g : Guard) (u : Bool) (d : VOp) (a : VOp) (b : VOp) : Statement (.vfmaF32 g u d a b) := by
  intro f hf hw
  cases hf
  exact ⟨unpack_pack_20 .., by simp only [Fields.instr, ofMajor20, guard_ofBits_bits, bit_eq_one]; rfl⟩
theorem vfmsF32 (g : Guard) (u : Bool) (d : VOp) (a : VOp) (b : VOp) : Statement (.vfmsF32 g u d a b) := by
  intro f hf hw
  cases hf
  exact ⟨unpack_pack_20 .., by simp only [Fields.instr, ofMajor20, guard_ofBits_bits, bit_eq_one]; rfl⟩
theorem vfnmaF32 (g : Guard) (u : Bool) (d : VOp) (a : VOp) (b : VOp) : Statement (.vfnmaF32 g u d a b) := by
  intro f hf hw
  cases hf
  exact ⟨unpack_pack_21 .., by simp only [Fields.instr, ofMajor21, guard_ofBits_bits, bit_eq_one]; rfl⟩
theorem vabsF32 (g : Guard) (u : Bool) (d : VOp) (a : VOp) : Statement (.vabsF32 g u d a) := by
  intro f hf hw
  cases hf
  exact ⟨unpack_pack_21 .., by simp only [Fields.instr, ofMajor21, guard_ofBits_bits, bit_eq_one]; rfl⟩
theorem vnegF32 (g : Guard) (u : Bool) (d : VOp) (a : VOp) : Statement (.vnegF32 g u d a) := by
  intro f hf hw
  cases hf
  exact ⟨unpack_pack_21 .., by simp only [Fields.instr, ofMajor21, guard_ofBits_bits, bit_eq_one]; rfl⟩
theorem vsqrtF32 (g : Guard) (u : Bool) (d : VOp) (a : VOp) : Statement (.vsqrtF32 g u d a) := by
  intro f hf hw
  cases hf
  exact ⟨unpack_pack_21 .., by simp only [Fields.instr, ofMajor21, guard_ofBits_bits, bit_eq_one]; rfl⟩
theorem vrsqrtF32 (g : Guard) (u : Bool) (d : VOp) (a : VOp) : Statement (.vrsqrtF32 g u d a) := by
  intro f hf hw
  cases hf
  exact ⟨unpack_pack_21 .., by simp only [Fields.instr, ofMajor21, guard_ofBits_bits, bit_eq_one]; rfl⟩
theorem vexp2F32 (g : Guard) (u : Bool) (d : VOp) (a : VOp) : Statement (.vexp2F32 g u d a) := by
  intro f hf hw
  cases hf
  exact ⟨unpack_pack_21 .., by simp only [Fields.instr, ofMajor21, guard_ofBits_bits, bit_eq_one]; rfl⟩
theorem vlog2F32 (g : Guard) (u : Bool) (d : VOp) (a : VOp) : Statement (.vlog2F32 g u d a) := by
  intro f hf hw
  cases hf
  exact ⟨unpack_pack_21 .., by simp only [Fields.instr, ofMajor21, guard_ofBits_bits, bit_eq_one]; rfl⟩
theorem vaddF16 (g : Guard) (u : Bool) (d : VOp) (a : VOp) (b : VOp) : Statement (.vaddF16 g u d a b) := by
  intro f hf hw
  cases hf
  exact ⟨unpack_pack_22 .., by simp only [Fields.instr, ofMajor22, guard_ofBits_bits, bit_eq_one]; rfl⟩
theorem vsubF16 (g : Guard) (u : Bool) (d : VOp) (a : VOp) (b : VOp) : Statement (.vsubF16 g u d a b) := by
  intro f hf hw
  cases hf
  exact ⟨unpack_pack_22 .., by simp only [Fields.instr, ofMajor22, guard_ofBits_bits, bit_eq_one]; rfl⟩
theorem vmulF16 (g : Guard) (u : Bool) (d : VOp) (a : VOp) (b : VOp) : Statement (.vmulF16 g u d a b) := by
  intro f hf hw
  cases hf
  exact ⟨unpack_pack_22 .., by simp only [Fields.instr, ofMajor22, guard_ofBits_bits, bit_eq_one]; rfl⟩
theorem vminF16 (g : Guard) (u : Bool) (d : VOp) (a : VOp) (b : VOp) : Statement (.vminF16 g u d a b) := by
  intro f hf hw
  cases hf
  exact ⟨unpack_pack_22 .., by simp only [Fields.instr, ofMajor22, guard_ofBits_bits, bit_eq_one]; rfl⟩
theorem vmaxF16 (g : Guard) (u : Bool) (d : VOp) (a : VOp) (b : VOp) : Statement (.vmaxF16 g u d a b) := by
  intro f hf hw
  cases hf
  exact ⟨unpack_pack_22 .., by simp only [Fields.instr, ofMajor22, guard_ofBits_bits, bit_eq_one]; rfl⟩
theorem vdivF16 (g : Guard) (u : Bool) (d : VOp) (a : VOp) (b : VOp) : Statement (.vdivF16 g u d a b) := by
  intro f hf hw
  cases hf
  exact ⟨unpack_pack_22 .., by simp only [Fields.instr, ofMajor22, guard_ofBits_bits, bit_eq_one]; rfl⟩
theorem vfmaF16 (g : Guard) (u : Bool) (d : VOp) (a : VOp) (b : VOp) : Statement (.vfmaF16 g u d a b) := by
  intro f hf hw
  cases hf
  exact ⟨unpack_pack_22 .., by simp only [Fields.instr, ofMajor22, guard_ofBits_bits, bit_eq_one]; rfl⟩
theorem vfmsF16 (g : Guard) (u : Bool) (d : VOp) (a : VOp) (b : VOp) : Statement (.vfmsF16 g u d a b) := by
  intro f hf hw
  cases hf
  exact ⟨unpack_pack_22 .., by simp only [Fields.instr, ofMajor22, guard_ofBits_bits, bit_eq_one]; rfl⟩
theorem vfnmaF16 (g : Guard) (u : Bool) (d : VOp) (a : VOp) (b : VOp) : Statement (.vfnmaF16 g u d a b) := by
  intro f hf hw
  cases hf
  exact ⟨unpack_pack_23 .., by simp only [Fields.instr, ofMajor23, guard_ofBits_bits, bit_eq_one]; rfl⟩
theorem vabsF16 (g : Guard) (u : Bool) (d : VOp) (a : VOp) : Statement (.vabsF16 g u d a) := by
  intro f hf hw
  cases hf
  exact ⟨unpack_pack_23 .., by simp only [Fields.instr, ofMajor23, guard_ofBits_bits, bit_eq_one]; rfl⟩
theorem vnegF16 (g : Guard) (u : Bool) (d : VOp) (a : VOp) : Statement (.vnegF16 g u d a) := by
  intro f hf hw
  cases hf
  exact ⟨unpack_pack_23 .., by simp only [Fields.instr, ofMajor23, guard_ofBits_bits, bit_eq_one]; rfl⟩
theorem vsqrtF16 (g : Guard) (u : Bool) (d : VOp) (a : VOp) : Statement (.vsqrtF16 g u d a) := by
  intro f hf hw
  cases hf
  exact ⟨unpack_pack_23 .., by simp only [Fields.instr, ofMajor23, guard_ofBits_bits, bit_eq_one]; rfl⟩
theorem vrsqrtF16 (g : Guard) (u : Bool) (d : VOp) (a : VOp) : Statement (.vrsqrtF16 g u d a) := by
  intro f hf hw
  cases hf
  exact ⟨unpack_pack_23 .., by simp only [Fields.instr, ofMajor23, guard_ofBits_bits, bit_eq_one]; rfl⟩
theorem vexp2F16 (g : Guard) (u : Bool) (d : VOp) (a : VOp) : Statement (.vexp2F16 g u d a) := by
  intro f hf hw
  cases hf
  exact ⟨unpack_pack_23 .., by simp only [Fields.instr, ofMajor23, guard_ofBits_bits, bit_eq_one]; rfl⟩
theorem vlog2F16 (g : Guard) (u : Bool) (d : VOp) (a : VOp) : Statement (.vlog2F16 g u d a) := by
  intro f hf hw
  cases hf
  exact ⟨unpack_pack_23 .., by simp only [Fields.instr, ofMajor23, guard_ofBits_bits, bit_eq_one]; rfl⟩
theorem vaddBf16 (g : Guard) (u : Bool) (d : VOp) (a : VOp) (b : VOp) : Statement (.vaddBf16 g u d a b) := by
  intro f hf hw
  cases hf
  exact ⟨unpack_pack_24 .., by simp only [Fields.instr, ofMajor24, guard_ofBits_bits, bit_eq_one]; rfl⟩
theorem vsubBf16 (g : Guard) (u : Bool) (d : VOp) (a : VOp) (b : VOp) : Statement (.vsubBf16 g u d a b) := by
  intro f hf hw
  cases hf
  exact ⟨unpack_pack_24 .., by simp only [Fields.instr, ofMajor24, guard_ofBits_bits, bit_eq_one]; rfl⟩
theorem vmulBf16 (g : Guard) (u : Bool) (d : VOp) (a : VOp) (b : VOp) : Statement (.vmulBf16 g u d a b) := by
  intro f hf hw
  cases hf
  exact ⟨unpack_pack_24 .., by simp only [Fields.instr, ofMajor24, guard_ofBits_bits, bit_eq_one]; rfl⟩
theorem vminBf16 (g : Guard) (u : Bool) (d : VOp) (a : VOp) (b : VOp) : Statement (.vminBf16 g u d a b) := by
  intro f hf hw
  cases hf
  exact ⟨unpack_pack_24 .., by simp only [Fields.instr, ofMajor24, guard_ofBits_bits, bit_eq_one]; rfl⟩
theorem vmaxBf16 (g : Guard) (u : Bool) (d : VOp) (a : VOp) (b : VOp) : Statement (.vmaxBf16 g u d a b) := by
  intro f hf hw
  cases hf
  exact ⟨unpack_pack_24 .., by simp only [Fields.instr, ofMajor24, guard_ofBits_bits, bit_eq_one]; rfl⟩
theorem vdivBf16 (g : Guard) (u : Bool) (d : VOp) (a : VOp) (b : VOp) : Statement (.vdivBf16 g u d a b) := by
  intro f hf hw
  cases hf
  exact ⟨unpack_pack_24 .., by simp only [Fields.instr, ofMajor24, guard_ofBits_bits, bit_eq_one]; rfl⟩
theorem vfmaBf16 (g : Guard) (u : Bool) (d : VOp) (a : VOp) (b : VOp) : Statement (.vfmaBf16 g u d a b) := by
  intro f hf hw
  cases hf
  exact ⟨unpack_pack_24 .., by simp only [Fields.instr, ofMajor24, guard_ofBits_bits, bit_eq_one]; rfl⟩
theorem vfmsBf16 (g : Guard) (u : Bool) (d : VOp) (a : VOp) (b : VOp) : Statement (.vfmsBf16 g u d a b) := by
  intro f hf hw
  cases hf
  exact ⟨unpack_pack_24 .., by simp only [Fields.instr, ofMajor24, guard_ofBits_bits, bit_eq_one]; rfl⟩
theorem vfnmaBf16 (g : Guard) (u : Bool) (d : VOp) (a : VOp) (b : VOp) : Statement (.vfnmaBf16 g u d a b) := by
  intro f hf hw
  cases hf
  exact ⟨unpack_pack_25 .., by simp only [Fields.instr, ofMajor25, guard_ofBits_bits, bit_eq_one]; rfl⟩
theorem vabsBf16 (g : Guard) (u : Bool) (d : VOp) (a : VOp) : Statement (.vabsBf16 g u d a) := by
  intro f hf hw
  cases hf
  exact ⟨unpack_pack_25 .., by simp only [Fields.instr, ofMajor25, guard_ofBits_bits, bit_eq_one]; rfl⟩
theorem vnegBf16 (g : Guard) (u : Bool) (d : VOp) (a : VOp) : Statement (.vnegBf16 g u d a) := by
  intro f hf hw
  cases hf
  exact ⟨unpack_pack_25 .., by simp only [Fields.instr, ofMajor25, guard_ofBits_bits, bit_eq_one]; rfl⟩
theorem vsqrtBf16 (g : Guard) (u : Bool) (d : VOp) (a : VOp) : Statement (.vsqrtBf16 g u d a) := by
  intro f hf hw
  cases hf
  exact ⟨unpack_pack_25 .., by simp only [Fields.instr, ofMajor25, guard_ofBits_bits, bit_eq_one]; rfl⟩
theorem vrsqrtBf16 (g : Guard) (u : Bool) (d : VOp) (a : VOp) : Statement (.vrsqrtBf16 g u d a) := by
  intro f hf hw
  cases hf
  exact ⟨unpack_pack_25 .., by simp only [Fields.instr, ofMajor25, guard_ofBits_bits, bit_eq_one]; rfl⟩
theorem vexp2Bf16 (g : Guard) (u : Bool) (d : VOp) (a : VOp) : Statement (.vexp2Bf16 g u d a) := by
  intro f hf hw
  cases hf
  exact ⟨unpack_pack_25 .., by simp only [Fields.instr, ofMajor25, guard_ofBits_bits, bit_eq_one]; rfl⟩
theorem vlog2Bf16 (g : Guard) (u : Bool) (d : VOp) (a : VOp) : Statement (.vlog2Bf16 g u d a) := by
  intro f hf hw
  cases hf
  exact ⟨unpack_pack_25 .., by simp only [Fields.instr, ofMajor25, guard_ofBits_bits, bit_eq_one]; rfl⟩
theorem vaddI32 (g : Guard) (u : Bool) (d : VOp) (a : VOp) (b : VOp) : Statement (.vaddI32 g u d a b) := by
  intro f hf hw
  cases hf
  exact ⟨unpack_pack_26 .., by simp only [Fields.instr, ofMajor26, guard_ofBits_bits, bit_eq_one]; rfl⟩
theorem vsubI32 (g : Guard) (u : Bool) (d : VOp) (a : VOp) (b : VOp) : Statement (.vsubI32 g u d a b) := by
  intro f hf hw
  cases hf
  exact ⟨unpack_pack_26 .., by simp only [Fields.instr, ofMajor26, guard_ofBits_bits, bit_eq_one]; rfl⟩
theorem vmulI32 (g : Guard) (u : Bool) (d : VOp) (a : VOp) (b : VOp) : Statement (.vmulI32 g u d a b) := by
  intro f hf hw
  cases hf
  exact ⟨unpack_pack_26 .., by simp only [Fields.instr, ofMajor26, guard_ofBits_bits, bit_eq_one]; rfl⟩
theorem vminI32 (g : Guard) (u : Bool) (d : VOp) (a : VOp) (b : VOp) : Statement (.vminI32 g u d a b) := by
  intro f hf hw
  cases hf
  exact ⟨unpack_pack_26 .., by simp only [Fields.instr, ofMajor26, guard_ofBits_bits, bit_eq_one]; rfl⟩
theorem vmaxI32 (g : Guard) (u : Bool) (d : VOp) (a : VOp) (b : VOp) : Statement (.vmaxI32 g u d a b) := by
  intro f hf hw
  cases hf
  exact ⟨unpack_pack_26 .., by simp only [Fields.instr, ofMajor26, guard_ofBits_bits, bit_eq_one]; rfl⟩
theorem vminN32 (g : Guard) (u : Bool) (d : VOp) (a : VOp) (b : VOp) : Statement (.vminN32 g u d a b) := by
  intro f hf hw
  cases hf
  exact ⟨unpack_pack_26 .., by simp only [Fields.instr, ofMajor26, guard_ofBits_bits, bit_eq_one]; rfl⟩
theorem vmaxN32 (g : Guard) (u : Bool) (d : VOp) (a : VOp) (b : VOp) : Statement (.vmaxN32 g u d a b) := by
  intro f hf hw
  cases hf
  exact ⟨unpack_pack_26 .., by simp only [Fields.instr, ofMajor26, guard_ofBits_bits, bit_eq_one]; rfl⟩
theorem vabsI32 (g : Guard) (u : Bool) (d : VOp) (a : VOp) : Statement (.vabsI32 g u d a) := by
  intro f hf hw
  cases hf
  exact ⟨unpack_pack_26 .., by simp only [Fields.instr, ofMajor26, guard_ofBits_bits, bit_eq_one]; rfl⟩
theorem vaddI64 (g : Guard) (u : Bool) (d : VOp) (a : VOp) (b : VOp) : Statement (.vaddI64 g u d a b) := by
  intro f hf hw
  cases hf
  exact ⟨unpack_pack_27 .., by simp only [Fields.instr, ofMajor27, guard_ofBits_bits, bit_eq_one]; rfl⟩
theorem vsubI64 (g : Guard) (u : Bool) (d : VOp) (a : VOp) (b : VOp) : Statement (.vsubI64 g u d a b) := by
  intro f hf hw
  cases hf
  exact ⟨unpack_pack_27 .., by simp only [Fields.instr, ofMajor27, guard_ofBits_bits, bit_eq_one]; rfl⟩
theorem vmulI64 (g : Guard) (u : Bool) (d : VOp) (a : VOp) (b : VOp) : Statement (.vmulI64 g u d a b) := by
  intro f hf hw
  cases hf
  exact ⟨unpack_pack_27 .., by simp only [Fields.instr, ofMajor27, guard_ofBits_bits, bit_eq_one]; rfl⟩
theorem vminI64 (g : Guard) (u : Bool) (d : VOp) (a : VOp) (b : VOp) : Statement (.vminI64 g u d a b) := by
  intro f hf hw
  cases hf
  exact ⟨unpack_pack_27 .., by simp only [Fields.instr, ofMajor27, guard_ofBits_bits, bit_eq_one]; rfl⟩
theorem vmaxI64 (g : Guard) (u : Bool) (d : VOp) (a : VOp) (b : VOp) : Statement (.vmaxI64 g u d a b) := by
  intro f hf hw
  cases hf
  exact ⟨unpack_pack_27 .., by simp only [Fields.instr, ofMajor27, guard_ofBits_bits, bit_eq_one]; rfl⟩
theorem vminN64 (g : Guard) (u : Bool) (d : VOp) (a : VOp) (b : VOp) : Statement (.vminN64 g u d a b) := by
  intro f hf hw
  cases hf
  exact ⟨unpack_pack_27 .., by simp only [Fields.instr, ofMajor27, guard_ofBits_bits, bit_eq_one]; rfl⟩
theorem vmaxN64 (g : Guard) (u : Bool) (d : VOp) (a : VOp) (b : VOp) : Statement (.vmaxN64 g u d a b) := by
  intro f hf hw
  cases hf
  exact ⟨unpack_pack_27 .., by simp only [Fields.instr, ofMajor27, guard_ofBits_bits, bit_eq_one]; rfl⟩
theorem vabsI64 (g : Guard) (u : Bool) (d : VOp) (a : VOp) : Statement (.vabsI64 g u d a) := by
  intro f hf hw
  cases hf
  exact ⟨unpack_pack_27 .., by simp only [Fields.instr, ofMajor27, guard_ofBits_bits, bit_eq_one]; rfl⟩
theorem vnegI32 (g : Guard) (u : Bool) (d : VOp) (a : VOp) : Statement (.vnegI32 g u d a) := by
  intro f hf hw
  cases hf
  exact ⟨unpack_pack_28 .., by simp only [Fields.instr, ofMajor28, guard_ofBits_bits, bit_eq_one]; rfl⟩
theorem vshlI32 (g : Guard) (u : Bool) (d : VOp) (a : VOp) (b : VOp) : Statement (.vshlI32 g u d a b) := by
  intro f hf hw
  cases hf
  exact ⟨unpack_pack_28 .., by simp only [Fields.instr, ofMajor28, guard_ofBits_bits, bit_eq_one]; rfl⟩
theorem vshrI32 (g : Guard) (u : Bool) (d : VOp) (a : VOp) (b : VOp) : Statement (.vshrI32 g u d a b) := by
  intro f hf hw
  cases hf
  exact ⟨unpack_pack_28 .., by simp only [Fields.instr, ofMajor28, guard_ofBits_bits, bit_eq_one]; rfl⟩
theorem vshrN32 (g : Guard) (u : Bool) (d : VOp) (a : VOp) (b : VOp) : Statement (.vshrN32 g u d a b) := by
  intro f hf hw
  cases hf
  exact ⟨unpack_pack_28 .., by simp only [Fields.instr, ofMajor28, guard_ofBits_bits, bit_eq_one]; rfl⟩
theorem vnegI64 (g : Guard) (u : Bool) (d : VOp) (a : VOp) : Statement (.vnegI64 g u d a) := by
  intro f hf hw
  cases hf
  exact ⟨unpack_pack_28 .., by simp only [Fields.instr, ofMajor28, guard_ofBits_bits, bit_eq_one]; rfl⟩
theorem vshlI64 (g : Guard) (u : Bool) (d : VOp) (a : VOp) (b : VOp) : Statement (.vshlI64 g u d a b) := by
  intro f hf hw
  cases hf
  exact ⟨unpack_pack_28 .., by simp only [Fields.instr, ofMajor28, guard_ofBits_bits, bit_eq_one]; rfl⟩
theorem vshrI64 (g : Guard) (u : Bool) (d : VOp) (a : VOp) (b : VOp) : Statement (.vshrI64 g u d a b) := by
  intro f hf hw
  cases hf
  exact ⟨unpack_pack_28 .., by simp only [Fields.instr, ofMajor28, guard_ofBits_bits, bit_eq_one]; rfl⟩
theorem vshrN64 (g : Guard) (u : Bool) (d : VOp) (a : VOp) (b : VOp) : Statement (.vshrN64 g u d a b) := by
  intro f hf hw
  cases hf
  exact ⟨unpack_pack_28 .., by simp only [Fields.instr, ofMajor28, guard_ofBits_bits, bit_eq_one]; rfl⟩
theorem vand (g : Guard) (u : Bool) (d : VOp) (a : VOp) (b : VOp) : Statement (.vand g u d a b) := by
  intro f hf hw
  cases hf
  exact ⟨unpack_pack_29 .., by simp only [Fields.instr, ofMajor29, guard_ofBits_bits, bit_eq_one]; rfl⟩
theorem vor (g : Guard) (u : Bool) (d : VOp) (a : VOp) (b : VOp) : Statement (.vor g u d a b) := by
  intro f hf hw
  cases hf
  exact ⟨unpack_pack_29 .., by simp only [Fields.instr, ofMajor29, guard_ofBits_bits, bit_eq_one]; rfl⟩
theorem vxor (g : Guard) (u : Bool) (d : VOp) (a : VOp) (b : VOp) : Statement (.vxor g u d a b) := by
  intro f hf hw
  cases hf
  exact ⟨unpack_pack_29 .., by simp only [Fields.instr, ofMajor29, guard_ofBits_bits, bit_eq_one]; rfl⟩
theorem vnot (g : Guard) (u : Bool) (d : VOp) (a : VOp) : Statement (.vnot g u d a) := by
  intro f hf hw
  cases hf
  exact ⟨unpack_pack_29 .., by simp only [Fields.instr, ofMajor29, guard_ofBits_bits, bit_eq_one]; rfl⟩
theorem vmov (g : Guard) (u : Bool) (d : VOp) (a : VOp) : Statement (.vmov g u d a) := by
  intro f hf hw
  cases hf
  exact ⟨unpack_pack_29 .., by simp only [Fields.instr, ofMajor29, guard_ofBits_bits, bit_eq_one]; rfl⟩
theorem vperm (g : Guard) (u : Bool) (d : VOp) (a : VOp) (b : VOp) : Statement (.vperm g u d a b) := by
  intro f hf hw
  cases hf
  exact ⟨unpack_pack_29 .., by simp only [Fields.instr, ofMajor29, guard_ofBits_bits, bit_eq_one]; rfl⟩
theorem vshuf (g : Guard) (u : Bool) (d : VOp) (a : VOp) (b : VOp) : Statement (.vshuf g u d a b) := by
  intro f hf hw
  cases hf
  exact ⟨unpack_pack_29 .., by simp only [Fields.instr, ofMajor29, guard_ofBits_bits, bit_eq_one]; rfl⟩
theorem vbcast (g : Guard) (d : VOp) (a : Reg) : Statement (.vbcast g d a) := by
  intro f hf hw
  cases hf
  exact ⟨unpack_pack_29 .., by simp only [Fields.instr, ofMajor29, guard_ofBits_bits]; rfl⟩
theorem vsel (u : Bool) (d : VOp) (a : VOp) (b : VOp) (k : PReg) : Statement (.vsel u d a b k) := by
  intro f hf hw
  cases hf
  exact ⟨unpack_pack_2a .., by simp only [Fields.instr, ofMajor2A, bit_eq_one]; simp [low_three_guard]⟩
theorem vcmp (g : Guard) (cc : Cc) (t : VType) (u : Bool) (pd : PReg) (a : VOp) (b : VOp) : Statement (.vcmp g cc t u pd a b) := by
  intro f hf hw
  cases hf
  exact ⟨unpack_pack_2b .., by cases cc <;> (first | (simp [wellFormed, vcmpCcOk] at hw; done) | (cases t <;> simp [Fields.instr, ofMajor2B, guard_ofBits_bits, bit_eq_one] <;> rfl))⟩
theorem vredsum (g : Guard) (t : VType) (u : Bool) (d : Reg) (a : VOp) : Statement (.vredsum g t u d a) := by
  intro f hf hw
  cases hf
  exact ⟨unpack_pack_2c .., by cases t <;> (simp only [Fields.instr, ofMajor2C, guard_ofBits_bits, bit_eq_one]; try rfl)⟩
theorem vredmax (g : Guard) (t : VType) (u : Bool) (d : Reg) (a : VOp) : Statement (.vredmax g t u d a) := by
  intro f hf hw
  cases hf
  exact ⟨unpack_pack_2c .., by cases t <;> (simp only [Fields.instr, ofMajor2C, guard_ofBits_bits, bit_eq_one]; try rfl)⟩
theorem vredmin (g : Guard) (t : VType) (u : Bool) (d : Reg) (a : VOp) : Statement (.vredmin g t u d a) := by
  intro f hf hw
  cases hf
  exact ⟨unpack_pack_2c .., by cases t <;> (simp only [Fields.instr, ofMajor2C, guard_ofBits_bits, bit_eq_one]; try rfl)⟩
theorem vscan (g : Guard) (t : VType) (u : Bool) (d : VOp) (a : VOp) : Statement (.vscan g t u d a) := by
  intro f hf hw
  cases hf
  exact ⟨unpack_pack_2c .., by cases t <;> (simp only [Fields.instr, ofMajor2C, guard_ofBits_bits, bit_eq_one]; try rfl)⟩
theorem vhist (g : Guard) (u : Bool) (d : VOp) (a : VOp) : Statement (.vhist g u d a) := by
  intro f hf hw
  cases hf
  exact ⟨unpack_pack_2c .., by simp only [Fields.instr, ofMajor2C, guard_ofBits_bits, bit_eq_one]; rfl⟩
theorem vflip (g : Guard) (t : VType) (u : Bool) (d : VOp) (a : VOp) : Statement (.vflip g t u d a) := by
  intro f hf hw
  cases hf
  exact ⟨unpack_pack_2c .., by cases t <;> (simp only [Fields.instr, ofMajor2C, guard_ofBits_bits, bit_eq_one]; try rfl)⟩
theorem vld (g : Guard) (d : VOp) (a : Reg) (off : BitVec 10) : Statement (.vld g d a off) := by
  intro f hf hw
  cases hf
  exact ⟨unpack_pack_2d .., by simp only [Fields.instr, ofMajor2D, guard_ofBits_bits]; rfl⟩
theorem vst (g : Guard) (d : VOp) (a : Reg) (off : BitVec 10) : Statement (.vst g d a off) := by
  intro f hf hw
  cases hf
  exact ⟨unpack_pack_2d .., by simp only [Fields.instr, ofMajor2D, guard_ofBits_bits]; rfl⟩
theorem vldx (g : Guard) (e : Esz) (d : VOp) (a : Reg) (b : VOp) : Statement (.vldx g e d a b) := by
  intro f hf hw
  cases hf
  exact ⟨unpack_pack_2e .., by cases e <;> (simp only [Fields.instr, ofMajor2E, guard_ofBits_bits]; try rfl)⟩
theorem vstx (g : Guard) (e : Esz) (d : VOp) (a : Reg) (b : VOp) : Statement (.vstx g e d a b) := by
  intro f hf hw
  cases hf
  exact ⟨unpack_pack_2e .., by cases e <;> (simp only [Fields.instr, ofMajor2E, guard_ofBits_bits]; try rfl)⟩
theorem vldb (g : Guard) (e : Esz) (d : VOp) (a : Reg) : Statement (.vldb g e d a) := by
  intro f hf hw
  cases hf
  exact ⟨unpack_pack_2e .., by cases e <;> (simp only [Fields.instr, ofMajor2E, guard_ofBits_bits]; try rfl)⟩
theorem vcvtNarrowFp (g : Guard) (tgt : NarrowFp) (rnd : Rnd) (sat : Bool) (d : VOp) (a : VOp) (c : BitVec 4) : Statement (.vcvtNarrowFp g tgt rnd sat d a c) := by
  intro f hf hw
  cases hf
  exact ⟨unpack_pack_2f .., by cases tgt <;> cases rnd <;> (simp only [Fields.instr, ofMajor2F, guard_ofBits_bits, bit_eq_one]; try rfl)⟩
theorem vcvtNarrowInt (g : Guard) (tgt : NarrowInt) (rnd : Rnd) (sat : Bool) (d : VOp) (a : VOp) (c : BitVec 4) : Statement (.vcvtNarrowInt g tgt rnd sat d a c) := by
  intro f hf hw
  cases hf
  exact ⟨unpack_pack_30 .., by cases tgt <;> cases rnd <;> (simp only [Fields.instr, ofMajor30, guard_ofBits_bits, bit_eq_one]; try rfl)⟩
theorem vcvtWiden (g : Guard) (fr : WidenFrom) (rnd : Rnd) (d : VOp) (a : VOp) : Statement (.vcvtWiden g fr rnd d a) := by
  intro f hf hw
  cases hf
  exact ⟨unpack_pack_31 .., by cases fr <;> cases rnd <;> (simp only [Fields.instr, ofMajor31, guard_ofBits_bits]; try rfl)⟩
theorem vcvtFxToFx128 (g : Guard) (rnd : Rnd) (d : VOp) (a : VOp) : Statement (.vcvtFxToFx128 g rnd d a) := by
  intro f hf hw
  cases hf
  exact ⟨unpack_pack_32 .., by cases rnd <;> (simp only [Fields.instr, ofMajor32, guard_ofBits_bits]; try rfl)⟩
theorem vcvtFxFromFx128 (g : Guard) (d : VOp) (a : VOp) : Statement (.vcvtFxFromFx128 g d a) := by
  intro f hf hw
  cases hf
  exact ⟨unpack_pack_32 .., by simp only [Fields.instr, ofMajor32, guard_ofBits_bits]; rfl⟩
theorem vqMx (g : Guard) (blk : Blk) (rnd : Rnd) (d : VReg) (a : VOp) (c : Reg) : Statement (.vqMx g blk rnd d a c) := by
  intro f hf hw
  cases hf
  exact ⟨unpack_pack_33 .., by cases blk <;> cases rnd <;> (simp only [Fields.instr, ofMajor33, guard_ofBits_bits]; try rfl)⟩
theorem vdqMx (g : Guard) (blk : Blk) (d : VOp) (a : VReg) (c : Reg) : Statement (.vdqMx g blk d a c) := by
  intro f hf hw
  cases hf
  exact ⟨unpack_pack_34 .., by cases blk <;> (simp only [Fields.instr, ofMajor34, guard_ofBits_bits]; try rfl)⟩
theorem tload (idx : BitVec 6) (a : Reg) (off : BitVec 15) : Statement (.tload idx a off) := by
  intro f hf hw
  cases hf
  exact ⟨unpack_pack_35 .., by simp only [Fields.instr, ofMajor35]⟩
theorem tx (idx : BitVec 6) (sel : BitVec 4) (val : BitVec 16) : Statement (.tx idx sel val) := by
  intro f hf hw
  cases hf
  exact ⟨unpack_pack_36 .., by simp only [Fields.instr, ofMajor36]⟩
theorem tgang (idx : BitVec 6) (sel : BitVec 4) (a : Reg) : Statement (.tgang idx sel a) := by
  intro f hf hw
  cases hf
  exact ⟨unpack_pack_37 .., by simp only [Fields.instr, ofMajor37]⟩
theorem tfetch (a : Reg) (b : Reg) : Statement (.tfetch a b) := by
  intro f hf hw
  cases hf
  exact ⟨unpack_pack_38 .., by simp only [Fields.instr, ofMajor38]; rfl⟩
theorem tstream (a : Reg) (b : Reg) : Statement (.tstream a b) := by
  intro f hf hw
  cases hf
  exact ⟨unpack_pack_38 .., by simp only [Fields.instr, ofMajor38]; rfl⟩
theorem tgather (a : Reg) (b : Reg) : Statement (.tgather a b) := by
  intro f hf hw
  cases hf
  exact ⟨unpack_pack_38 .., by simp only [Fields.instr, ofMajor38]; rfl⟩
theorem tdrain (a : Reg) (b : Reg) : Statement (.tdrain a b) := by
  intro f hf hw
  cases hf
  exact ⟨unpack_pack_38 .., by simp only [Fields.instr, ofMajor38]; rfl⟩
theorem tred (a : Reg) (b : Reg) : Statement (.tred a b) := by
  intro f hf hw
  cases hf
  exact ⟨unpack_pack_38 .., by simp only [Fields.instr, ofMajor38]; rfl⟩
theorem prowGet (d : Reg) (a : Reg) : Statement (.prowGet d a) := by
  intro f hf hw
  cases hf
  exact ⟨unpack_pack_39 .., by simp only [Fields.instr, ofMajor39]; rfl⟩
theorem prowSet (a : Reg) (b : Reg) : Statement (.prowSet a b) := by
  intro f hf hw
  cases hf
  exact ⟨unpack_pack_39 .., by simp only [Fields.instr, ofMajor39]; rfl⟩
theorem prowClr (a : Reg) (b : Reg) : Statement (.prowClr a b) := by
  intro f hf hw
  cases hf
  exact ⟨unpack_pack_39 .., by simp only [Fields.instr, ofMajor39]; rfl⟩
theorem xsync : Statement (.xsync) := by
  intro f hf hw
  cases hf
  exact ⟨unpack_pack_3a .., by simp only [Fields.instr, ofMajor3A]; rfl⟩
theorem xsend (a : Reg) (b : Reg) : Statement (.xsend a b) := by
  intro f hf hw
  cases hf
  exact ⟨unpack_pack_3a .., by simp only [Fields.instr, ofMajor3A]; rfl⟩
theorem xmux (a : Reg) : Statement (.xmux a) := by
  intro f hf hw
  cases hf
  exact ⟨unpack_pack_3a .., by simp only [Fields.instr, ofMajor3A]; rfl⟩
theorem xrecv (a : Reg) (b : Reg) : Statement (.xrecv a b) := by
  intro f hf hw
  cases hf
  exact ⟨unpack_pack_3a .., by simp only [Fields.instr, ofMajor3A]; rfl⟩
theorem xvote (d : Reg) (a : Reg) : Statement (.xvote d a) := by
  intro f hf hw
  cases hf
  exact ⟨unpack_pack_3a .., by simp only [Fields.instr, ofMajor3A]; rfl⟩
theorem xred (a : Reg) (b : Reg) : Statement (.xred a b) := by
  intro f hf hw
  cases hf
  exact ⟨unpack_pack_3a .., by simp only [Fields.instr, ofMajor3A]; rfl⟩
theorem xdom (d : Reg) (a : Reg) : Statement (.xdom d a) := by
  intro f hf hw
  cases hf
  exact ⟨unpack_pack_3a .., by simp only [Fields.instr, ofMajor3A]; rfl⟩
theorem xarmAt (a : Reg) (b : Reg) : Statement (.xarmAt a b) := by
  intro f hf hw
  cases hf
  exact ⟨unpack_pack_3a .., by simp only [Fields.instr, ofMajor3A]; rfl⟩
theorem wtake (d : Reg) (a : Reg) : Statement (.wtake d a) := by
  intro f hf hw
  cases hf
  exact ⟨unpack_pack_3a .., by simp only [Fields.instr, ofMajor3A]; rfl⟩
theorem armedIssue : Statement (.armedIssue) := by intro f hf; simp [fieldsOf] at hf
theorem packageReset : Statement (.packageReset) := by intro f hf; simp [fieldsOf] at hf
theorem recoveryImageLoad : Statement (.recoveryImageLoad) := by intro f hf; simp [fieldsOf] at hf
theorem svnRaise : Statement (.svnRaise) := by intro f hf; simp [fieldsOf] at hf
theorem spdmRequest : Statement (.spdmRequest) := by intro f hf; simp [fieldsOf] at hf
theorem queueDescriptorWrite : Statement (.queueDescriptorWrite) := by intro f hf; simp [fieldsOf] at hf
theorem notify : Statement (.notify) := by intro f hf; simp [fieldsOf] at hf
theorem launch : Statement (.launch) := by intro f hf; simp [fieldsOf] at hf
theorem launchClaim : Statement (.launchClaim) := by intro f hf; simp [fieldsOf] at hf
theorem poolLaunch : Statement (.poolLaunch) := by intro f hf; simp [fieldsOf] at hf
theorem poolWrite : Statement (.poolWrite) := by intro f hf; simp [fieldsOf] at hf
theorem fence : Statement (.fence) := by intro f hf; simp [fieldsOf] at hf
theorem faultAnswer : Statement (.faultAnswer) := by intro f hf; simp [fieldsOf] at hf
theorem suspend : Statement (.suspend) := by intro f hf; simp [fieldsOf] at hf
theorem resume : Statement (.resume) := by intro f hf; simp [fieldsOf] at hf
theorem registerWrite : Statement (.registerWrite) := by intro f hf; simp [fieldsOf] at hf
theorem clmapWrite : Statement (.clmapWrite) := by intro f hf; simp [fieldsOf] at hf
theorem domainStart : Statement (.domainStart) := by intro f hf; simp [fieldsOf] at hf
theorem launchEnd : Statement (.launchEnd) := by intro f hf; simp [fieldsOf] at hf
theorem launchFaultEnd : Statement (.launchFaultEnd) := by intro f hf; simp [fieldsOf] at hf
theorem taskStart : Statement (.taskStart) := by intro f hf; simp [fieldsOf] at hf
theorem stealRequest : Statement (.stealRequest) := by intro f hf; simp [fieldsOf] at hf
theorem stealReply : Statement (.stealReply) := by intro f hf; simp [fieldsOf] at hf
theorem spawnArrival : Statement (.spawnArrival) := by intro f hf; simp [fieldsOf] at hf
theorem commit : Statement (.commit) := by intro f hf; simp [fieldsOf] at hf
theorem commitFrontMessage : Statement (.commitFrontMessage) := by intro f hf; simp [fieldsOf] at hf
theorem starvedFrontTimeout : Statement (.starvedFrontTimeout) := by intro f hf; simp [fieldsOf] at hf
theorem budgetOverrun : Statement (.budgetOverrun) := by intro f hf; simp [fieldsOf] at hf
theorem preemptionRequest : Statement (.preemptionRequest) := by intro f hf; simp [fieldsOf] at hf
theorem userInterruptEntry : Statement (.userInterruptEntry) := by intro f hf; simp [fieldsOf] at hf
theorem checkerPass : Statement (.checkerPass) := by intro f hf; simp [fieldsOf] at hf
theorem checkerMismatch : Statement (.checkerMismatch) := by intro f hf; simp [fieldsOf] at hf
theorem checkerRetry : Statement (.checkerRetry) := by intro f hf; simp [fieldsOf] at hf
theorem copyPiece : Statement (.copyPiece) := by intro f hf; simp [fieldsOf] at hf
theorem piecePush : Statement (.piecePush) := by intro f hf; simp [fieldsOf] at hf
theorem syncUpdate : Statement (.syncUpdate) := by intro f hf; simp [fieldsOf] at hf
theorem armEntryPush : Statement (.armEntryPush) := by intro f hf; simp [fieldsOf] at hf
theorem updateAcknowledgment : Statement (.updateAcknowledgment) := by intro f hf; simp [fieldsOf] at hf
theorem copyCompletion : Statement (.copyCompletion) := by intro f hf; simp [fieldsOf] at hf
theorem sliceRequest : Statement (.sliceRequest) := by intro f hf; simp [fieldsOf] at hf
theorem requestRetry : Statement (.requestRetry) := by intro f hf; simp [fieldsOf] at hf
theorem l2Fill : Statement (.l2Fill) := by intro f hf; simp [fieldsOf] at hf
theorem transactionBarrierUpdate : Statement (.transactionBarrierUpdate) := by intro f hf; simp [fieldsOf] at hf
theorem swaitPoll : Statement (.swaitPoll) := by intro f hf; simp [fieldsOf] at hf
theorem twaitRetry : Statement (.twaitRetry) := by intro f hf; simp [fieldsOf] at hf
theorem remotePaletteAccess : Statement (.remotePaletteAccess) := by intro f hf; simp [fieldsOf] at hf
theorem eccUncorrectable : Statement (.eccUncorrectable) := by intro f hf; simp [fieldsOf] at hf
theorem invalidationRequest : Statement (.invalidationRequest) := by intro f hf; simp [fieldsOf] at hf
theorem invalidationDrainEnd : Statement (.invalidationDrainEnd) := by intro f hf; simp [fieldsOf] at hf
theorem invalidationAcknowledge : Statement (.invalidationAcknowledge) := by intro f hf; simp [fieldsOf] at hf
theorem pageWalk : Statement (.pageWalk) := by intro f hf; simp [fieldsOf] at hf
theorem walkRetry : Statement (.walkRetry) := by intro f hf; simp [fieldsOf] at hf
theorem birsp : Statement (.birsp) := by intro f hf; simp [fieldsOf] at hf
theorem bisnp : Statement (.bisnp) := by intro f hf; simp [fieldsOf] at hf
theorem hostSnoop : Statement (.hostSnoop) := by intro f hf; simp [fieldsOf] at hf
theorem cxlMemWrite : Statement (.cxlMemWrite) := by intro f hf; simp [fieldsOf] at hf
theorem meshRouterFailure : Statement (.meshRouterFailure) := by intro f hf; simp [fieldsOf] at hf
theorem meshReroute : Statement (.meshReroute) := by intro f hf; simp [fieldsOf] at hf
theorem hbmTimedSlot : Statement (.hbmTimedSlot) := by intro f hf; simp [fieldsOf] at hf
theorem hbmDynamicSlot : Statement (.hbmDynamicSlot) := by intro f hf; simp [fieldsOf] at hf
theorem tstreamLineArrival : Statement (.tstreamLineArrival) := by intro f hf; simp [fieldsOf] at hf
theorem landingBufferWrite : Statement (.landingBufferWrite) := by intro f hf; simp [fieldsOf] at hf
theorem windowPortServe : Statement (.windowPortServe) := by intro f hf; simp [fieldsOf] at hf
theorem ringSlotDeparture : Statement (.ringSlotDeparture) := by intro f hf; simp [fieldsOf] at hf
theorem ringSlotArrival : Statement (.ringSlotArrival) := by intro f hf; simp [fieldsOf] at hf
theorem timedWriteAccept : Statement (.timedWriteAccept) := by intro f hf; simp [fieldsOf] at hf
theorem xsendWord : Statement (.xsendWord) := by intro f hf; simp [fieldsOf] at hf
theorem exchangeReceive : Statement (.exchangeReceive) := by intro f hf; simp [fieldsOf] at hf
theorem barrierRelease : Statement (.barrierRelease) := by intro f hf; simp [fieldsOf] at hf
theorem promotion : Statement (.promotion) := by intro f hf; simp [fieldsOf] at hf
theorem windowOpen : Statement (.windowOpen) := by intro f hf; simp [fieldsOf] at hf
theorem windowClose : Statement (.windowClose) := by intro f hf; simp [fieldsOf] at hf
theorem windowPostArrival : Statement (.windowPostArrival) := by intro f hf; simp [fieldsOf] at hf
theorem windowTimeout : Statement (.windowTimeout) := by intro f hf; simp [fieldsOf] at hf
theorem gangQueueEntry : Statement (.gangQueueEntry) := by intro f hf; simp [fieldsOf] at hf
theorem matrixOpComplete : Statement (.matrixOpComplete) := by intro f hf; simp [fieldsOf] at hf
theorem drainDelivery : Statement (.drainDelivery) := by intro f hf; simp [fieldsOf] at hf
theorem collectiveComplete : Statement (.collectiveComplete) := by intro f hf; simp [fieldsOf] at hf
theorem collectiveMemberLost : Statement (.collectiveMemberLost) := by intro f hf; simp [fieldsOf] at hf
theorem tileFaultHandling : Statement (.tileFaultHandling) := by intro f hf; simp [fieldsOf] at hf
theorem rollback : Statement (.rollback) := by intro f hf; simp [fieldsOf] at hf
theorem linkSlot : Statement (.linkSlot) := by intro f hf; simp [fieldsOf] at hf
theorem idleFlit : Statement (.idleFlit) := by intro f hf; simp [fieldsOf] at hf
theorem data : Statement (.data) := by intro f hf; simp [fieldsOf] at hf
theorem arrive : Statement (.arrive) := by intro f hf; simp [fieldsOf] at hf
theorem release : Statement (.release) := by intro f hf; simp [fieldsOf] at hf
theorem crossPackageRelease : Statement (.crossPackageRelease) := by intro f hf; simp [fieldsOf] at hf
theorem hold : Statement (.hold) := by intro f hf; simp [fieldsOf] at hf
theorem go : Statement (.go) := by intro f hf; simp [fieldsOf] at hf
theorem phaseClockResume : Statement (.phaseClockResume) := by intro f hf; simp [fieldsOf] at hf
theorem time : Statement (.time) := by intro f hf; simp [fieldsOf] at hf
theorem timeMeasurement : Statement (.timeMeasurement) := by intro f hf; simp [fieldsOf] at hf
theorem retry : Statement (.retry) := by intro f hf; simp [fieldsOf] at hf
theorem alarm : Statement (.alarm) := by intro f hf; simp [fieldsOf] at hf
theorem control : Statement (.control) := by intro f hf; simp [fieldsOf] at hf
theorem update : Statement (.update) := by intro f hf; simp [fieldsOf] at hf
theorem reservedFlit : Statement (.reservedFlit) := by intro f hf; simp [fieldsOf] at hf
theorem portFailure : Statement (.portFailure) := by intro f hf; simp [fieldsOf] at hf
theorem uetPacketTransmit : Statement (.uetPacketTransmit) := by intro f hf; simp [fieldsOf] at hf
theorem uetPacketReceive : Statement (.uetPacketReceive) := by intro f hf; simp [fieldsOf] at hf
theorem uetAck : Statement (.uetAck) := by intro f hf; simp [fieldsOf] at hf
theorem uetReplayTimeout : Statement (.uetReplayTimeout) := by intro f hf; simp [fieldsOf] at hf
theorem uetGiveUp : Statement (.uetGiveUp) := by intro f hf; simp [fieldsOf] at hf
theorem laneLoss : Statement (.laneLoss) := by intro f hf; simp [fieldsOf] at hf
theorem powerLimit : Statement (.powerLimit) := by intro f hf; simp [fieldsOf] at hf
theorem cxlMemRead : Statement (.cxlMemRead) := by intro f hf; simp [fieldsOf] at hf
theorem responseArrival : Statement (.responseArrival) := by intro f hf; simp [fieldsOf] at hf
theorem resumption : Statement (.resumption) := by intro f hf; simp [fieldsOf] at hf
theorem retrainingEnd : Statement (.retrainingEnd) := by intro f hf; simp [fieldsOf] at hf

end RoundTrip
end Sys2Proof.Laws
end

