-- ==== Sys2Proof/Laws/State.lean ====
section
/-!
SUPPORT. What each small update of the state leaves as it was, field by field, and what it sets.
-/

-- One declaration at a time, so that the package as one text compiles in little memory.
set_option Elab.async false

namespace Sys2Proof.Machine

/-! ### Tables -/

/-- A key just put is found. -/
@[simp] theorem Tbl.find_put_self {α : Type} (t : Tbl α) (k : Nat) (v : α) : (t.put k v).find k = some v := by
  induction t with
  | nil => simp [Tbl.put, Tbl.find]
  | cons p t ih =>
    obtain ⟨j, x⟩ := p
    simp only [Tbl.put]
    split
    · simp [Tbl.find]
    · split
      · simp [Tbl.find]
      · simp only [Tbl.find]; split
        · omega
        · simp [ih]

/-- Another key is found as before. -/
theorem Tbl.find_put_ne {α : Type} (t : Tbl α) {k m : Nat} (v : α) (h : m ≠ k) : (t.put k v).find m = t.find m := by
  induction t with
  | nil => simp [Tbl.put, Tbl.find, h]
  | cons p t ih =>
    obtain ⟨j, x⟩ := p
    simp only [Tbl.put]
    split
    · subst_vars; simp [Tbl.find, h]
    · split
      · rw [Tbl.find]
        split
        · contradiction
        · split
          · rw [Tbl.find, if_neg (by omega), if_pos (by omega)]
          · rfl
      · simp [Tbl.find, ih]

/-! ### Slots, cores and tiles -/

@[simp] theorem State.slot_setSlot_self (s : State) (i : SlotId) (x : Slot) : (s.setSlot i x).slot i = x := by
  simp [State.slot, State.setSlot]
theorem State.slot_setSlot_ne (s : State) {i j : SlotId} (x : Slot) (h : j ≠ i) : (s.setSlot i x).slot j = s.slot j := by
  have h' : j.val ≠ i.val := fun e => h (Fin.ext e)
  simp [State.slot, State.setSlot, Tbl.find_put_ne _ _ h']
@[simp] theorem State.core_setCore_self (s : State) (c : CoreId) (x : Core) : (s.setCore c x).core c = x := by
  simp [State.core, State.setCore]
theorem State.core_setCore_ne (s : State) {c d : CoreId} (x : Core) (h : d ≠ c) : (s.setCore c x).core d = s.core d := by
  have h' : d.val ≠ c.val := fun e => h (Fin.ext e)
  simp [State.core, State.setCore, Tbl.find_put_ne _ _ h']
@[simp] theorem State.tile_setTile_self (s : State) (t : TileId) (x : Tile) : (s.setTile t x).tile t = x := by
  simp [State.tile, State.setTile]
theorem State.tile_setTile_ne (s : State) {t u : TileId} (x : Tile) (h : u ≠ t) : (s.setTile t x).tile u = s.tile u := by
  have h' : u.val ≠ t.val := fun e => h (Fin.ext e)
  simp [State.tile, State.setTile, Tbl.find_put_ne _ _ h']
@[simp] theorem State.tile_setSlot (s : State) (i : SlotId) (x : Slot) (t : TileId) : (s.setSlot i x).tile t = s.tile t := rfl
@[simp] theorem State.core_setSlot (s : State) (i : SlotId) (x : Slot) (c : CoreId) : (s.setSlot i x).core c = s.core c := rfl
@[simp] theorem State.slot_setCore (s : State) (c : CoreId) (x : Core) (i : SlotId) : (s.setCore c x).slot i = s.slot i := rfl
@[simp] theorem State.tile_setCore (s : State) (c : CoreId) (x : Core) (t : TileId) : (s.setCore c x).tile t = s.tile t := rfl
@[simp] theorem State.slot_setTile (s : State) (t : TileId) (x : Tile) (i : SlotId) : (s.setTile t x).slot i = s.slot i := rfl
@[simp] theorem State.core_setTile (s : State) (t : TileId) (x : Tile) (c : CoreId) : (s.setTile t x).core c = s.core c := rfl

/-! ### The registers of an agent -/

@[simp] theorem State.hart_setHart_self (s : State) (ag : Agent) (h : Hart) : (s.setHart ag h).hart ag = h := by
  cases ag <;> simp [State.hart, State.setHart, Tile.h]
theorem State.hart_setHart_ne (s : State) {ag b : Agent} (h : Hart) (e : b ≠ ag) : (s.setHart ag h).hart b = s.hart b := by
  cases ag with
  | slot i =>
    cases b with
    | slot j => simp [State.hart, State.setHart, State.slot_setSlot_ne _ _ (show j ≠ i from fun x => e (by rw [x]))]
    | tile u => rfl
  | tile t =>
    cases b with
    | slot j => rfl
    | tile u => simp [State.hart, State.setHart, State.tile_setTile_ne _ _ (show u ≠ t from fun x => e (by rw [x]))]

@[simp] theorem Hart.rg_zero (h : Hart) : h.rg 0#5 = 0#64 := by simp [Hart.rg]
@[simp] theorem Hart.wg_zero (h : Hart) (x : Word) : h.wg 0#5 x = h := by simp [Hart.wg]
@[simp] theorem Hart.rp_zero (h : Hart) : h.rp 0#3 = BitVec.allOnes 64 := by simp [Hart.rp]
@[simp] theorem Hart.wp_zero (h : Hart) (x : Word) : h.wp 0#3 x = h := by simp [Hart.wp]
theorem Hart.rg_wg_self (h : Hart) {r : Reg} (x : Word) (hr : r ≠ 0#5) : (h.wg r x).rg r = x := by
  simp [Hart.rg, Hart.wg, hr]
theorem Hart.rg_wg_ne (h : Hart) {r q : Reg} (x : Word) (hq : q ≠ r) : (h.wg r x).rg q = h.rg q := by
  have : r.toNat ≠ q.toNat := fun e => hq (BitVec.eq_of_toNat_eq e.symm)
  simp only [Hart.rg, Hart.wg]
  split
  · rfl
  · split
    · rfl
    · simp [this]
theorem Hart.rp_wp_self (h : Hart) {r : PReg} (x : Word) (hr : r ≠ 0#3) : (h.wp r x).rp r = x := by
  simp [Hart.rp, Hart.wp, hr]
theorem Hart.rp_wp_ne (h : Hart) {r q : PReg} (x : Word) (hq : q ≠ r) : (h.wp r x).rp q = h.rp q := by
  have : r.toNat ≠ q.toNat := fun e => hq (BitVec.eq_of_toNat_eq e.symm)
  simp only [Hart.rp, Hart.wp]
  split
  · rfl
  · split
    · rfl
    · simp [this]

@[simp] theorem Hart.wg_v (h : Hart) (r : Reg) (x : Word) : (h.wg r x).v = h.v := by unfold Hart.wg; split <;> rfl
@[simp] theorem Hart.wg_p (h : Hart) (r : Reg) (x : Word) : (h.wg r x).p = h.p := by unfold Hart.wg; split <;> rfl
@[simp] theorem Hart.wg_pc (h : Hart) (r : Reg) (x : Word) : (h.wg r x).pc = h.pc := by unfold Hart.wg; split <;> rfl
@[simp] theorem Hart.wg_lv (h : Hart) (r : Reg) (x : Word) : (h.wg r x).lv = h.lv := by unfold Hart.wg; split <;> rfl
@[simp] theorem Hart.wg_qrb (h : Hart) (r : Reg) (x : Word) : (h.wg r x).qrb = h.qrb := by unfold Hart.wg; split <;> rfl
@[simp] theorem Hart.wg_qa (h : Hart) (r : Reg) (x : Word) : (h.wg r x).qa = h.qa := by unfold Hart.wg; split <;> rfl
@[simp] theorem Hart.wg_abase (h : Hart) (r : Reg) (x : Word) : (h.wg r x).abase = h.abase := by unfold Hart.wg; split <;> rfl
@[simp] theorem Hart.wg_stg (h : Hart) (r : Reg) (x : Word) : (h.wg r x).stg = h.stg := by unfold Hart.wg; split <;> rfl
@[simp] theorem Hart.wg_lam (h : Hart) (r : Reg) (x : Word) : (h.wg r x).lam = h.lam := by unfold Hart.wg; split <;> rfl
@[simp] theorem Hart.wg_cdep (h : Hart) (r : Reg) (x : Word) : (h.wg r x).cdep = h.cdep := by unfold Hart.wg; split <;> rfl
@[simp] theorem Hart.wg_ild (h : Hart) (r : Reg) (x : Word) : (h.wg r x).ild = h.ild := by unfold Hart.wg; split <;> rfl
@[simp] theorem Hart.wg_nst (h : Hart) (r : Reg) (x : Word) : (h.wg r x).nst = h.nst := by unfold Hart.wg; split <;> rfl
@[simp] theorem Hart.wg_cause (h : Hart) (r : Reg) (x : Word) : (h.wg r x).cause = h.cause := by unfold Hart.wg; split <;> rfl
@[simp] theorem Hart.wg_epc (h : Hart) (r : Reg) (x : Word) : (h.wg r x).epc = h.epc := by unfold Hart.wg; split <;> rfl
@[simp] theorem Hart.wg_latch (h : Hart) (r : Reg) (x : Word) : (h.wg r x).latch = h.latch := by unfold Hart.wg; split <;> rfl
@[simp] theorem Hart.wp_g (h : Hart) (r : PReg) (x : Word) : (h.wp r x).g = h.g := by unfold Hart.wp; split <;> rfl
@[simp] theorem Hart.wp_v (h : Hart) (r : PReg) (x : Word) : (h.wp r x).v = h.v := by unfold Hart.wp; split <;> rfl
@[simp] theorem Hart.wp_pc (h : Hart) (r : PReg) (x : Word) : (h.wp r x).pc = h.pc := by unfold Hart.wp; split <;> rfl
@[simp] theorem Hart.wp_lv (h : Hart) (r : PReg) (x : Word) : (h.wp r x).lv = h.lv := by unfold Hart.wp; split <;> rfl
@[simp] theorem Hart.wp_qrb (h : Hart) (r : PReg) (x : Word) : (h.wp r x).qrb = h.qrb := by unfold Hart.wp; split <;> rfl
@[simp] theorem Hart.wp_qa (h : Hart) (r : PReg) (x : Word) : (h.wp r x).qa = h.qa := by unfold Hart.wp; split <;> rfl
@[simp] theorem Hart.wp_abase (h : Hart) (r : PReg) (x : Word) : (h.wp r x).abase = h.abase := by unfold Hart.wp; split <;> rfl
@[simp] theorem Hart.wp_stg (h : Hart) (r : PReg) (x : Word) : (h.wp r x).stg = h.stg := by unfold Hart.wp; split <;> rfl
@[simp] theorem Hart.wp_lam (h : Hart) (r : PReg) (x : Word) : (h.wp r x).lam = h.lam := by unfold Hart.wp; split <;> rfl
@[simp] theorem Hart.wp_cdep (h : Hart) (r : PReg) (x : Word) : (h.wp r x).cdep = h.cdep := by unfold Hart.wp; split <;> rfl
@[simp] theorem Hart.wp_ild (h : Hart) (r : PReg) (x : Word) : (h.wp r x).ild = h.ild := by unfold Hart.wp; split <;> rfl
@[simp] theorem Hart.wp_nst (h : Hart) (r : PReg) (x : Word) : (h.wp r x).nst = h.nst := by unfold Hart.wp; split <;> rfl
@[simp] theorem Hart.wp_cause (h : Hart) (r : PReg) (x : Word) : (h.wp r x).cause = h.cause := by unfold Hart.wp; split <;> rfl
@[simp] theorem Hart.wp_epc (h : Hart) (r : PReg) (x : Word) : (h.wp r x).epc = h.epc := by unfold Hart.wp; split <;> rfl
@[simp] theorem Hart.wp_latch (h : Hart) (r : PReg) (x : Word) : (h.wp r x).latch = h.latch := by unfold Hart.wp; split <;> rfl

/-! ### `State.setSlot` -/

@[simp] theorem State.setSlot_ck (s : State) (i : SlotId) (x : Slot) : (s.setSlot i x).ck = s.ck := rfl
@[simp] theorem State.setSlot_mem (s : State) (i : SlotId) (x : Slot) : (s.setSlot i x).mem = s.mem := rfl
@[simp] theorem State.setSlot_marks (s : State) (i : SlotId) (x : Slot) : (s.setSlot i x).marks = s.marks := rfl
@[simp] theorem State.setSlot_asctx (s : State) (i : SlotId) (x : Slot) : (s.setSlot i x).asctx = s.asctx := rfl
@[simp] theorem State.setSlot_clmap (s : State) (i : SlotId) (x : Slot) : (s.setSlot i x).clmap = s.clmap := rfl
@[simp] theorem State.setSlot_tier2 (s : State) (i : SlotId) (x : Slot) : (s.setSlot i x).tier2 = s.tier2 := rfl
@[simp] theorem State.setSlot_lines (s : State) (i : SlotId) (x : Slot) : (s.setSlot i x).lines = s.lines := rfl
@[simp] theorem State.setSlot_tent (s : State) (i : SlotId) (x : Slot) : (s.setSlot i x).tent = s.tent := rfl
@[simp] theorem State.setSlot_seqs (s : State) (i : SlotId) (x : Slot) : (s.setSlot i x).seqs = s.seqs := rfl
@[simp] theorem State.setSlot_reqs (s : State) (i : SlotId) (x : Slot) : (s.setSlot i x).reqs = s.reqs := rfl
@[simp] theorem State.setSlot_nextReq (s : State) (i : SlotId) (x : Slot) : (s.setSlot i x).nextReq = s.nextReq := rfl
@[simp] theorem State.setSlot_scw (s : State) (i : SlotId) (x : Slot) : (s.setSlot i x).scw = s.scw := rfl
@[simp] theorem State.setSlot_pattern (s : State) (i : SlotId) (x : Slot) : (s.setSlot i x).pattern = s.pattern := rfl
@[simp] theorem State.setSlot_patOwner (s : State) (i : SlotId) (x : Slot) : (s.setSlot i x).patOwner = s.patOwner := rfl
@[simp] theorem State.setSlot_gone (s : State) (i : SlotId) (x : Slot) : (s.setSlot i x).gone = s.gone := rfl
@[simp] theorem State.setSlot_cxlOut (s : State) (i : SlotId) (x : Slot) : (s.setSlot i x).cxlOut = s.cxlOut := rfl
@[simp] theorem State.setSlot_unitWalks (s : State) (i : SlotId) (x : Slot) : (s.setSlot i x).unitWalks = s.unitWalks := rfl
@[simp] theorem State.setSlot_transport (s : State) (i : SlotId) (x : Slot) : (s.setSlot i x).transport = s.transport := rfl
@[simp] theorem State.setSlot_slotSent (s : State) (i : SlotId) (x : Slot) : (s.setSlot i x).slotSent = s.slotSent := rfl
@[simp] theorem State.setSlot_acks (s : State) (i : SlotId) (x : Slot) : (s.setSlot i x).acks = s.acks := rfl
@[simp] theorem State.setSlot_grants (s : State) (i : SlotId) (x : Slot) : (s.setSlot i x).grants = s.grants := rfl
@[simp] theorem State.setSlot_banks (s : State) (i : SlotId) (x : Slot) : (s.setSlot i x).banks = s.banks := rfl
@[simp] theorem State.setSlot_bankWaits (s : State) (i : SlotId) (x : Slot) : (s.setSlot i x).bankWaits = s.bankWaits := rfl
@[simp] theorem State.setSlot_claims (s : State) (i : SlotId) (x : Slot) : (s.setSlot i x).claims = s.claims := rfl
@[simp] theorem State.setSlot_walks (s : State) (i : SlotId) (x : Slot) : (s.setSlot i x).walks = s.walks := rfl
@[simp] theorem State.setSlot_aborted (s : State) (i : SlotId) (x : Slot) : (s.setSlot i x).aborted = s.aborted := rfl
@[simp] theorem State.setSlot_pieces (s : State) (i : SlotId) (x : Slot) : (s.setSlot i x).pieces = s.pieces := rfl
@[simp] theorem State.setSlot_nextPiece (s : State) (i : SlotId) (x : Slot) : (s.setSlot i x).nextPiece = s.nextPiece := rfl
@[simp] theorem State.setSlot_arrivals (s : State) (i : SlotId) (x : Slot) : (s.setSlot i x).arrivals = s.arrivals := rfl
@[simp] theorem State.setSlot_routes (s : State) (i : SlotId) (x : Slot) : (s.setSlot i x).routes = s.routes := rfl
@[simp] theorem State.setSlot_channels (s : State) (i : SlotId) (x : Slot) : (s.setSlot i x).channels = s.channels := rfl
@[simp] theorem State.setSlot_hbmQ (s : State) (i : SlotId) (x : Slot) : (s.setSlot i x).hbmQ = s.hbmQ := rfl
@[simp] theorem State.setSlot_dtlb (s : State) (i : SlotId) (x : Slot) : (s.setSlot i x).dtlb = s.dtlb := rfl
@[simp] theorem State.setSlot_seals (s : State) (i : SlotId) (x : Slot) : (s.setSlot i x).seals = s.seals := rfl
@[simp] theorem State.setSlot_invals (s : State) (i : SlotId) (x : Slot) : (s.setSlot i x).invals = s.invals := rfl
@[simp] theorem State.setSlot_nextInval (s : State) (i : SlotId) (x : Slot) : (s.setSlot i x).nextInval = s.nextInval := rfl
@[simp] theorem State.setSlot_deadRuns (s : State) (i : SlotId) (x : Slot) : (s.setSlot i x).deadRuns = s.deadRuns := rfl
@[simp] theorem State.setSlot_cores (s : State) (i : SlotId) (x : Slot) : (s.setSlot i x).cores = s.cores := rfl
@[simp] theorem State.setSlot_tiles (s : State) (i : SlotId) (x : Slot) : (s.setSlot i x).tiles = s.tiles := rfl
@[simp] theorem State.setSlot_domains (s : State) (i : SlotId) (x : Slot) : (s.setSlot i x).domains = s.domains := rfl
@[simp] theorem State.setSlot_launches (s : State) (i : SlotId) (x : Slot) : (s.setSlot i x).launches = s.launches := rfl
@[simp] theorem State.setSlot_nextLid (s : State) (i : SlotId) (x : Slot) : (s.setSlot i x).nextLid = s.nextLid := rfl
@[simp] theorem State.setSlot_copies (s : State) (i : SlotId) (x : Slot) : (s.setSlot i x).copies = s.copies := rfl
@[simp] theorem State.setSlot_nextCopy (s : State) (i : SlotId) (x : Slot) : (s.setSlot i x).nextCopy = s.nextCopy := rfl
@[simp] theorem State.setSlot_pool (s : State) (i : SlotId) (x : Slot) : (s.setSlot i x).pool = s.pool := rfl
@[simp] theorem State.setSlot_queues (s : State) (i : SlotId) (x : Slot) : (s.setSlot i x).queues = s.queues := rfl
@[simp] theorem State.setSlot_turns (s : State) (i : SlotId) (x : Slot) : (s.setSlot i x).turns = s.turns := rfl
@[simp] theorem State.setSlot_time (s : State) (i : SlotId) (x : Slot) : (s.setSlot i x).time = s.time := rfl
@[simp] theorem State.setSlot_slew (s : State) (i : SlotId) (x : Slot) : (s.setSlot i x).slew = s.slew := rfl
@[simp] theorem State.setSlot_slewAt (s : State) (i : SlotId) (x : Slot) : (s.setSlot i x).slewAt = s.slewAt := rfl
@[simp] theorem State.setSlot_skew (s : State) (i : SlotId) (x : Slot) : (s.setSlot i x).skew = s.skew := rfl
@[simp] theorem State.setSlot_good (s : State) (i : SlotId) (x : Slot) : (s.setSlot i x).good = s.good := rfl
@[simp] theorem State.setSlot_pos (s : State) (i : SlotId) (x : Slot) : (s.setSlot i x).pos = s.pos := rfl
@[simp] theorem State.setSlot_extents (s : State) (i : SlotId) (x : Slot) : (s.setSlot i x).extents = s.extents := rfl
@[simp] theorem State.setSlot_ports (s : State) (i : SlotId) (x : Slot) : (s.setSlot i x).ports = s.ports := rfl
@[simp] theorem State.setSlot_lostPkgs (s : State) (i : SlotId) (x : Slot) : (s.setSlot i x).lostPkgs = s.lostPkgs := rfl
@[simp] theorem State.setSlot_lostLinks (s : State) (i : SlotId) (x : Slot) : (s.setSlot i x).lostLinks = s.lostLinks := rfl
@[simp] theorem State.setSlot_job (s : State) (i : SlotId) (x : Slot) : (s.setSlot i x).job = s.job := rfl
@[simp] theorem State.setSlot_myRank (s : State) (i : SlotId) (x : Slot) : (s.setSlot i x).myRank = s.myRank := rfl
@[simp] theorem State.setSlot_ue (s : State) (i : SlotId) (x : Slot) : (s.setSlot i x).ue = s.ue := rfl
@[simp] theorem State.setSlot_pdcs (s : State) (i : SlotId) (x : Slot) : (s.setSlot i x).pdcs = s.pdcs := rfl
@[simp] theorem State.setSlot_rx (s : State) (i : SlotId) (x : Slot) : (s.setSlot i x).rx = s.rx := rfl
@[simp] theorem State.setSlot_early (s : State) (i : SlotId) (x : Slot) : (s.setSlot i x).early = s.early := rfl
@[simp] theorem State.setSlot_lateReleases (s : State) (i : SlotId) (x : Slot) : (s.setSlot i x).lateReleases = s.lateReleases := rfl
@[simp] theorem State.setSlot_routers (s : State) (i : SlotId) (x : Slot) : (s.setSlot i x).routers = s.routers := rfl
@[simp] theorem State.setSlot_rerouting (s : State) (i : SlotId) (x : Slot) : (s.setSlot i x).rerouting = s.rerouting := rfl
@[simp] theorem State.setSlot_generation (s : State) (i : SlotId) (x : Slot) : (s.setSlot i x).generation = s.generation := rfl
@[simp] theorem State.setSlot_closed (s : State) (i : SlotId) (x : Slot) : (s.setSlot i x).closed = s.closed := rfl
@[simp] theorem State.setSlot_duty (s : State) (i : SlotId) (x : Slot) : (s.setSlot i x).duty = s.duty := rfl
@[simp] theorem State.setSlot_throttle (s : State) (i : SlotId) (x : Slot) : (s.setSlot i x).throttle = s.throttle := rfl
@[simp] theorem State.setSlot_errors (s : State) (i : SlotId) (x : Slot) : (s.setSlot i x).errors = s.errors := rfl
@[simp] theorem State.setSlot_ncorr (s : State) (i : SlotId) (x : Slot) : (s.setSlot i x).ncorr = s.ncorr := rfl
@[simp] theorem State.setSlot_nretry (s : State) (i : SlotId) (x : Slot) : (s.setSlot i x).nretry = s.nretry := rfl
@[simp] theorem State.setSlot_boot (s : State) (i : SlotId) (x : Slot) : (s.setSlot i x).boot = s.boot := rfl
@[simp] theorem State.setSlot_agenda (s : State) (i : SlotId) (x : Slot) : (s.setSlot i x).agenda = s.agenda := rfl
@[simp] theorem State.setSlot_event (s : State) (i : SlotId) (x : Slot) : (s.setSlot i x).event = s.event := rfl
@[simp] theorem State.setSlot_timers (s : State) (i : SlotId) (x : Slot) : (s.setSlot i x).timers = s.timers := rfl
@[simp] theorem State.setSlot_round (s : State) (i : SlotId) (x : Slot) : (s.setSlot i x).round = s.round := rfl
@[simp] theorem State.setSlot_mid (s : State) (i : SlotId) (x : Slot) : (s.setSlot i x).mid = s.mid := rfl
@[simp] theorem State.setSlot_cur (s : State) (i : SlotId) (x : Slot) : (s.setSlot i x).cur = s.cur := rfl
@[simp] theorem State.setSlot_fresh (s : State) (i : SlotId) (x : Slot) : (s.setSlot i x).fresh = s.fresh := rfl

/-! ### `State.setCore` -/

@[simp] theorem State.setCore_ck (s : State) (c : CoreId) (x : Core) : (s.setCore c x).ck = s.ck := rfl
@[simp] theorem State.setCore_mem (s : State) (c : CoreId) (x : Core) : (s.setCore c x).mem = s.mem := rfl
@[simp] theorem State.setCore_marks (s : State) (c : CoreId) (x : Core) : (s.setCore c x).marks = s.marks := rfl
@[simp] theorem State.setCore_asctx (s : State) (c : CoreId) (x : Core) : (s.setCore c x).asctx = s.asctx := rfl
@[simp] theorem State.setCore_clmap (s : State) (c : CoreId) (x : Core) : (s.setCore c x).clmap = s.clmap := rfl
@[simp] theorem State.setCore_tier2 (s : State) (c : CoreId) (x : Core) : (s.setCore c x).tier2 = s.tier2 := rfl
@[simp] theorem State.setCore_lines (s : State) (c : CoreId) (x : Core) : (s.setCore c x).lines = s.lines := rfl
@[simp] theorem State.setCore_tent (s : State) (c : CoreId) (x : Core) : (s.setCore c x).tent = s.tent := rfl
@[simp] theorem State.setCore_seqs (s : State) (c : CoreId) (x : Core) : (s.setCore c x).seqs = s.seqs := rfl
@[simp] theorem State.setCore_reqs (s : State) (c : CoreId) (x : Core) : (s.setCore c x).reqs = s.reqs := rfl
@[simp] theorem State.setCore_nextReq (s : State) (c : CoreId) (x : Core) : (s.setCore c x).nextReq = s.nextReq := rfl
@[simp] theorem State.setCore_scw (s : State) (c : CoreId) (x : Core) : (s.setCore c x).scw = s.scw := rfl
@[simp] theorem State.setCore_pattern (s : State) (c : CoreId) (x : Core) : (s.setCore c x).pattern = s.pattern := rfl
@[simp] theorem State.setCore_patOwner (s : State) (c : CoreId) (x : Core) : (s.setCore c x).patOwner = s.patOwner := rfl
@[simp] theorem State.setCore_gone (s : State) (c : CoreId) (x : Core) : (s.setCore c x).gone = s.gone := rfl
@[simp] theorem State.setCore_cxlOut (s : State) (c : CoreId) (x : Core) : (s.setCore c x).cxlOut = s.cxlOut := rfl
@[simp] theorem State.setCore_unitWalks (s : State) (c : CoreId) (x : Core) : (s.setCore c x).unitWalks = s.unitWalks := rfl
@[simp] theorem State.setCore_transport (s : State) (c : CoreId) (x : Core) : (s.setCore c x).transport = s.transport := rfl
@[simp] theorem State.setCore_slotSent (s : State) (c : CoreId) (x : Core) : (s.setCore c x).slotSent = s.slotSent := rfl
@[simp] theorem State.setCore_acks (s : State) (c : CoreId) (x : Core) : (s.setCore c x).acks = s.acks := rfl
@[simp] theorem State.setCore_grants (s : State) (c : CoreId) (x : Core) : (s.setCore c x).grants = s.grants := rfl
@[simp] theorem State.setCore_banks (s : State) (c : CoreId) (x : Core) : (s.setCore c x).banks = s.banks := rfl
@[simp] theorem State.setCore_bankWaits (s : State) (c : CoreId) (x : Core) : (s.setCore c x).bankWaits = s.bankWaits := rfl
@[simp] theorem State.setCore_claims (s : State) (c : CoreId) (x : Core) : (s.setCore c x).claims = s.claims := rfl
@[simp] theorem State.setCore_walks (s : State) (c : CoreId) (x : Core) : (s.setCore c x).walks = s.walks := rfl
@[simp] theorem State.setCore_aborted (s : State) (c : CoreId) (x : Core) : (s.setCore c x).aborted = s.aborted := rfl
@[simp] theorem State.setCore_pieces (s : State) (c : CoreId) (x : Core) : (s.setCore c x).pieces = s.pieces := rfl
@[simp] theorem State.setCore_nextPiece (s : State) (c : CoreId) (x : Core) : (s.setCore c x).nextPiece = s.nextPiece := rfl
@[simp] theorem State.setCore_arrivals (s : State) (c : CoreId) (x : Core) : (s.setCore c x).arrivals = s.arrivals := rfl
@[simp] theorem State.setCore_routes (s : State) (c : CoreId) (x : Core) : (s.setCore c x).routes = s.routes := rfl
@[simp] theorem State.setCore_channels (s : State) (c : CoreId) (x : Core) : (s.setCore c x).channels = s.channels := rfl
@[simp] theorem State.setCore_hbmQ (s : State) (c : CoreId) (x : Core) : (s.setCore c x).hbmQ = s.hbmQ := rfl
@[simp] theorem State.setCore_dtlb (s : State) (c : CoreId) (x : Core) : (s.setCore c x).dtlb = s.dtlb := rfl
@[simp] theorem State.setCore_seals (s : State) (c : CoreId) (x : Core) : (s.setCore c x).seals = s.seals := rfl
@[simp] theorem State.setCore_invals (s : State) (c : CoreId) (x : Core) : (s.setCore c x).invals = s.invals := rfl
@[simp] theorem State.setCore_nextInval (s : State) (c : CoreId) (x : Core) : (s.setCore c x).nextInval = s.nextInval := rfl
@[simp] theorem State.setCore_deadRuns (s : State) (c : CoreId) (x : Core) : (s.setCore c x).deadRuns = s.deadRuns := rfl
@[simp] theorem State.setCore_slots (s : State) (c : CoreId) (x : Core) : (s.setCore c x).slots = s.slots := rfl
@[simp] theorem State.setCore_tiles (s : State) (c : CoreId) (x : Core) : (s.setCore c x).tiles = s.tiles := rfl
@[simp] theorem State.setCore_domains (s : State) (c : CoreId) (x : Core) : (s.setCore c x).domains = s.domains := rfl
@[simp] theorem State.setCore_launches (s : State) (c : CoreId) (x : Core) : (s.setCore c x).launches = s.launches := rfl
@[simp] theorem State.setCore_nextLid (s : State) (c : CoreId) (x : Core) : (s.setCore c x).nextLid = s.nextLid := rfl
@[simp] theorem State.setCore_copies (s : State) (c : CoreId) (x : Core) : (s.setCore c x).copies = s.copies := rfl
@[simp] theorem State.setCore_nextCopy (s : State) (c : CoreId) (x : Core) : (s.setCore c x).nextCopy = s.nextCopy := rfl
@[simp] theorem State.setCore_pool (s : State) (c : CoreId) (x : Core) : (s.setCore c x).pool = s.pool := rfl
@[simp] theorem State.setCore_queues (s : State) (c : CoreId) (x : Core) : (s.setCore c x).queues = s.queues := rfl
@[simp] theorem State.setCore_turns (s : State) (c : CoreId) (x : Core) : (s.setCore c x).turns = s.turns := rfl
@[simp] theorem State.setCore_time (s : State) (c : CoreId) (x : Core) : (s.setCore c x).time = s.time := rfl
@[simp] theorem State.setCore_slew (s : State) (c : CoreId) (x : Core) : (s.setCore c x).slew = s.slew := rfl
@[simp] theorem State.setCore_slewAt (s : State) (c : CoreId) (x : Core) : (s.setCore c x).slewAt = s.slewAt := rfl
@[simp] theorem State.setCore_skew (s : State) (c : CoreId) (x : Core) : (s.setCore c x).skew = s.skew := rfl
@[simp] theorem State.setCore_good (s : State) (c : CoreId) (x : Core) : (s.setCore c x).good = s.good := rfl
@[simp] theorem State.setCore_pos (s : State) (c : CoreId) (x : Core) : (s.setCore c x).pos = s.pos := rfl
@[simp] theorem State.setCore_extents (s : State) (c : CoreId) (x : Core) : (s.setCore c x).extents = s.extents := rfl
@[simp] theorem State.setCore_ports (s : State) (c : CoreId) (x : Core) : (s.setCore c x).ports = s.ports := rfl
@[simp] theorem State.setCore_lostPkgs (s : State) (c : CoreId) (x : Core) : (s.setCore c x).lostPkgs = s.lostPkgs := rfl
@[simp] theorem State.setCore_lostLinks (s : State) (c : CoreId) (x : Core) : (s.setCore c x).lostLinks = s.lostLinks := rfl
@[simp] theorem State.setCore_job (s : State) (c : CoreId) (x : Core) : (s.setCore c x).job = s.job := rfl
@[simp] theorem State.setCore_myRank (s : State) (c : CoreId) (x : Core) : (s.setCore c x).myRank = s.myRank := rfl
@[simp] theorem State.setCore_ue (s : State) (c : CoreId) (x : Core) : (s.setCore c x).ue = s.ue := rfl
@[simp] theorem State.setCore_pdcs (s : State) (c : CoreId) (x : Core) : (s.setCore c x).pdcs = s.pdcs := rfl
@[simp] theorem State.setCore_rx (s : State) (c : CoreId) (x : Core) : (s.setCore c x).rx = s.rx := rfl
@[simp] theorem State.setCore_early (s : State) (c : CoreId) (x : Core) : (s.setCore c x).early = s.early := rfl
@[simp] theorem State.setCore_lateReleases (s : State) (c : CoreId) (x : Core) : (s.setCore c x).lateReleases = s.lateReleases := rfl
@[simp] theorem State.setCore_routers (s : State) (c : CoreId) (x : Core) : (s.setCore c x).routers = s.routers := rfl
@[simp] theorem State.setCore_rerouting (s : State) (c : CoreId) (x : Core) : (s.setCore c x).rerouting = s.rerouting := rfl
@[simp] theorem State.setCore_generation (s : State) (c : CoreId) (x : Core) : (s.setCore c x).generation = s.generation := rfl
@[simp] theorem State.setCore_closed (s : State) (c : CoreId) (x : Core) : (s.setCore c x).closed = s.closed := rfl
@[simp] theorem State.setCore_duty (s : State) (c : CoreId) (x : Core) : (s.setCore c x).duty = s.duty := rfl
@[simp] theorem State.setCore_throttle (s : State) (c : CoreId) (x : Core) : (s.setCore c x).throttle = s.throttle := rfl
@[simp] theorem State.setCore_errors (s : State) (c : CoreId) (x : Core) : (s.setCore c x).errors = s.errors := rfl
@[simp] theorem State.setCore_ncorr (s : State) (c : CoreId) (x : Core) : (s.setCore c x).ncorr = s.ncorr := rfl
@[simp] theorem State.setCore_nretry (s : State) (c : CoreId) (x : Core) : (s.setCore c x).nretry = s.nretry := rfl
@[simp] theorem State.setCore_boot (s : State) (c : CoreId) (x : Core) : (s.setCore c x).boot = s.boot := rfl
@[simp] theorem State.setCore_agenda (s : State) (c : CoreId) (x : Core) : (s.setCore c x).agenda = s.agenda := rfl
@[simp] theorem State.setCore_event (s : State) (c : CoreId) (x : Core) : (s.setCore c x).event = s.event := rfl
@[simp] theorem State.setCore_timers (s : State) (c : CoreId) (x : Core) : (s.setCore c x).timers = s.timers := rfl
@[simp] theorem State.setCore_round (s : State) (c : CoreId) (x : Core) : (s.setCore c x).round = s.round := rfl
@[simp] theorem State.setCore_mid (s : State) (c : CoreId) (x : Core) : (s.setCore c x).mid = s.mid := rfl
@[simp] theorem State.setCore_cur (s : State) (c : CoreId) (x : Core) : (s.setCore c x).cur = s.cur := rfl
@[simp] theorem State.setCore_fresh (s : State) (c : CoreId) (x : Core) : (s.setCore c x).fresh = s.fresh := rfl

/-! ### `State.setTile` -/

@[simp] theorem State.setTile_ck (s : State) (t : TileId) (x : Tile) : (s.setTile t x).ck = s.ck := rfl
@[simp] theorem State.setTile_mem (s : State) (t : TileId) (x : Tile) : (s.setTile t x).mem = s.mem := rfl
@[simp] theorem State.setTile_marks (s : State) (t : TileId) (x : Tile) : (s.setTile t x).marks = s.marks := rfl
@[simp] theorem State.setTile_asctx (s : State) (t : TileId) (x : Tile) : (s.setTile t x).asctx = s.asctx := rfl
@[simp] theorem State.setTile_clmap (s : State) (t : TileId) (x : Tile) : (s.setTile t x).clmap = s.clmap := rfl
@[simp] theorem State.setTile_tier2 (s : State) (t : TileId) (x : Tile) : (s.setTile t x).tier2 = s.tier2 := rfl
@[simp] theorem State.setTile_lines (s : State) (t : TileId) (x : Tile) : (s.setTile t x).lines = s.lines := rfl
@[simp] theorem State.setTile_tent (s : State) (t : TileId) (x : Tile) : (s.setTile t x).tent = s.tent := rfl
@[simp] theorem State.setTile_seqs (s : State) (t : TileId) (x : Tile) : (s.setTile t x).seqs = s.seqs := rfl
@[simp] theorem State.setTile_reqs (s : State) (t : TileId) (x : Tile) : (s.setTile t x).reqs = s.reqs := rfl
@[simp] theorem State.setTile_nextReq (s : State) (t : TileId) (x : Tile) : (s.setTile t x).nextReq = s.nextReq := rfl
@[simp] theorem State.setTile_scw (s : State) (t : TileId) (x : Tile) : (s.setTile t x).scw = s.scw := rfl
@[simp] theorem State.setTile_pattern (s : State) (t : TileId) (x : Tile) : (s.setTile t x).pattern = s.pattern := rfl
@[simp] theorem State.setTile_patOwner (s : State) (t : TileId) (x : Tile) : (s.setTile t x).patOwner = s.patOwner := rfl
@[simp] theorem State.setTile_gone (s : State) (t : TileId) (x : Tile) : (s.setTile t x).gone = s.gone := rfl
@[simp] theorem State.setTile_cxlOut (s : State) (t : TileId) (x : Tile) : (s.setTile t x).cxlOut = s.cxlOut := rfl
@[simp] theorem State.setTile_unitWalks (s : State) (t : TileId) (x : Tile) : (s.setTile t x).unitWalks = s.unitWalks := rfl
@[simp] theorem State.setTile_transport (s : State) (t : TileId) (x : Tile) : (s.setTile t x).transport = s.transport := rfl
@[simp] theorem State.setTile_slotSent (s : State) (t : TileId) (x : Tile) : (s.setTile t x).slotSent = s.slotSent := rfl
@[simp] theorem State.setTile_acks (s : State) (t : TileId) (x : Tile) : (s.setTile t x).acks = s.acks := rfl
@[simp] theorem State.setTile_grants (s : State) (t : TileId) (x : Tile) : (s.setTile t x).grants = s.grants := rfl
@[simp] theorem State.setTile_banks (s : State) (t : TileId) (x : Tile) : (s.setTile t x).banks = s.banks := rfl
@[simp] theorem State.setTile_bankWaits (s : State) (t : TileId) (x : Tile) : (s.setTile t x).bankWaits = s.bankWaits := rfl
@[simp] theorem State.setTile_claims (s : State) (t : TileId) (x : Tile) : (s.setTile t x).claims = s.claims := rfl
@[simp] theorem State.setTile_walks (s : State) (t : TileId) (x : Tile) : (s.setTile t x).walks = s.walks := rfl
@[simp] theorem State.setTile_aborted (s : State) (t : TileId) (x : Tile) : (s.setTile t x).aborted = s.aborted := rfl
@[simp] theorem State.setTile_pieces (s : State) (t : TileId) (x : Tile) : (s.setTile t x).pieces = s.pieces := rfl
@[simp] theorem State.setTile_nextPiece (s : State) (t : TileId) (x : Tile) : (s.setTile t x).nextPiece = s.nextPiece := rfl
@[simp] theorem State.setTile_arrivals (s : State) (t : TileId) (x : Tile) : (s.setTile t x).arrivals = s.arrivals := rfl
@[simp] theorem State.setTile_routes (s : State) (t : TileId) (x : Tile) : (s.setTile t x).routes = s.routes := rfl
@[simp] theorem State.setTile_channels (s : State) (t : TileId) (x : Tile) : (s.setTile t x).channels = s.channels := rfl
@[simp] theorem State.setTile_hbmQ (s : State) (t : TileId) (x : Tile) : (s.setTile t x).hbmQ = s.hbmQ := rfl
@[simp] theorem State.setTile_dtlb (s : State) (t : TileId) (x : Tile) : (s.setTile t x).dtlb = s.dtlb := rfl
@[simp] theorem State.setTile_seals (s : State) (t : TileId) (x : Tile) : (s.setTile t x).seals = s.seals := rfl
@[simp] theorem State.setTile_invals (s : State) (t : TileId) (x : Tile) : (s.setTile t x).invals = s.invals := rfl
@[simp] theorem State.setTile_nextInval (s : State) (t : TileId) (x : Tile) : (s.setTile t x).nextInval = s.nextInval := rfl
@[simp] theorem State.setTile_deadRuns (s : State) (t : TileId) (x : Tile) : (s.setTile t x).deadRuns = s.deadRuns := rfl
@[simp] theorem State.setTile_slots (s : State) (t : TileId) (x : Tile) : (s.setTile t x).slots = s.slots := rfl
@[simp] theorem State.setTile_cores (s : State) (t : TileId) (x : Tile) : (s.setTile t x).cores = s.cores := rfl
@[simp] theorem State.setTile_domains (s : State) (t : TileId) (x : Tile) : (s.setTile t x).domains = s.domains := rfl
@[simp] theorem State.setTile_launches (s : State) (t : TileId) (x : Tile) : (s.setTile t x).launches = s.launches := rfl
@[simp] theorem State.setTile_nextLid (s : State) (t : TileId) (x : Tile) : (s.setTile t x).nextLid = s.nextLid := rfl
@[simp] theorem State.setTile_copies (s : State) (t : TileId) (x : Tile) : (s.setTile t x).copies = s.copies := rfl
@[simp] theorem State.setTile_nextCopy (s : State) (t : TileId) (x : Tile) : (s.setTile t x).nextCopy = s.nextCopy := rfl
@[simp] theorem State.setTile_pool (s : State) (t : TileId) (x : Tile) : (s.setTile t x).pool = s.pool := rfl
@[simp] theorem State.setTile_queues (s : State) (t : TileId) (x : Tile) : (s.setTile t x).queues = s.queues := rfl
@[simp] theorem State.setTile_turns (s : State) (t : TileId) (x : Tile) : (s.setTile t x).turns = s.turns := rfl
@[simp] theorem State.setTile_time (s : State) (t : TileId) (x : Tile) : (s.setTile t x).time = s.time := rfl
@[simp] theorem State.setTile_slew (s : State) (t : TileId) (x : Tile) : (s.setTile t x).slew = s.slew := rfl
@[simp] theorem State.setTile_slewAt (s : State) (t : TileId) (x : Tile) : (s.setTile t x).slewAt = s.slewAt := rfl
@[simp] theorem State.setTile_skew (s : State) (t : TileId) (x : Tile) : (s.setTile t x).skew = s.skew := rfl
@[simp] theorem State.setTile_good (s : State) (t : TileId) (x : Tile) : (s.setTile t x).good = s.good := rfl
@[simp] theorem State.setTile_pos (s : State) (t : TileId) (x : Tile) : (s.setTile t x).pos = s.pos := rfl
@[simp] theorem State.setTile_extents (s : State) (t : TileId) (x : Tile) : (s.setTile t x).extents = s.extents := rfl
@[simp] theorem State.setTile_ports (s : State) (t : TileId) (x : Tile) : (s.setTile t x).ports = s.ports := rfl
@[simp] theorem State.setTile_lostPkgs (s : State) (t : TileId) (x : Tile) : (s.setTile t x).lostPkgs = s.lostPkgs := rfl
@[simp] theorem State.setTile_lostLinks (s : State) (t : TileId) (x : Tile) : (s.setTile t x).lostLinks = s.lostLinks := rfl
@[simp] theorem State.setTile_job (s : State) (t : TileId) (x : Tile) : (s.setTile t x).job = s.job := rfl
@[simp] theorem State.setTile_myRank (s : State) (t : TileId) (x : Tile) : (s.setTile t x).myRank = s.myRank := rfl
@[simp] theorem State.setTile_ue (s : State) (t : TileId) (x : Tile) : (s.setTile t x).ue = s.ue := rfl
@[simp] theorem State.setTile_pdcs (s : State) (t : TileId) (x : Tile) : (s.setTile t x).pdcs = s.pdcs := rfl
@[simp] theorem State.setTile_rx (s : State) (t : TileId) (x : Tile) : (s.setTile t x).rx = s.rx := rfl
@[simp] theorem State.setTile_early (s : State) (t : TileId) (x : Tile) : (s.setTile t x).early = s.early := rfl
@[simp] theorem State.setTile_lateReleases (s : State) (t : TileId) (x : Tile) : (s.setTile t x).lateReleases = s.lateReleases := rfl
@[simp] theorem State.setTile_routers (s : State) (t : TileId) (x : Tile) : (s.setTile t x).routers = s.routers := rfl
@[simp] theorem State.setTile_rerouting (s : State) (t : TileId) (x : Tile) : (s.setTile t x).rerouting = s.rerouting := rfl
@[simp] theorem State.setTile_generation (s : State) (t : TileId) (x : Tile) : (s.setTile t x).generation = s.generation := rfl
@[simp] theorem State.setTile_closed (s : State) (t : TileId) (x : Tile) : (s.setTile t x).closed = s.closed := rfl
@[simp] theorem State.setTile_duty (s : State) (t : TileId) (x : Tile) : (s.setTile t x).duty = s.duty := rfl
@[simp] theorem State.setTile_throttle (s : State) (t : TileId) (x : Tile) : (s.setTile t x).throttle = s.throttle := rfl
@[simp] theorem State.setTile_errors (s : State) (t : TileId) (x : Tile) : (s.setTile t x).errors = s.errors := rfl
@[simp] theorem State.setTile_ncorr (s : State) (t : TileId) (x : Tile) : (s.setTile t x).ncorr = s.ncorr := rfl
@[simp] theorem State.setTile_nretry (s : State) (t : TileId) (x : Tile) : (s.setTile t x).nretry = s.nretry := rfl
@[simp] theorem State.setTile_boot (s : State) (t : TileId) (x : Tile) : (s.setTile t x).boot = s.boot := rfl
@[simp] theorem State.setTile_agenda (s : State) (t : TileId) (x : Tile) : (s.setTile t x).agenda = s.agenda := rfl
@[simp] theorem State.setTile_event (s : State) (t : TileId) (x : Tile) : (s.setTile t x).event = s.event := rfl
@[simp] theorem State.setTile_timers (s : State) (t : TileId) (x : Tile) : (s.setTile t x).timers = s.timers := rfl
@[simp] theorem State.setTile_round (s : State) (t : TileId) (x : Tile) : (s.setTile t x).round = s.round := rfl
@[simp] theorem State.setTile_mid (s : State) (t : TileId) (x : Tile) : (s.setTile t x).mid = s.mid := rfl
@[simp] theorem State.setTile_cur (s : State) (t : TileId) (x : Tile) : (s.setTile t x).cur = s.cur := rfl
@[simp] theorem State.setTile_fresh (s : State) (t : TileId) (x : Tile) : (s.setTile t x).fresh = s.fresh := rfl

/-! ### `State.post` -/

@[simp] theorem State.post_ck (s : State) (e : Event) : (s.post e).ck = s.ck := rfl
@[simp] theorem State.post_mem (s : State) (e : Event) : (s.post e).mem = s.mem := rfl
@[simp] theorem State.post_marks (s : State) (e : Event) : (s.post e).marks = s.marks := rfl
@[simp] theorem State.post_asctx (s : State) (e : Event) : (s.post e).asctx = s.asctx := rfl
@[simp] theorem State.post_clmap (s : State) (e : Event) : (s.post e).clmap = s.clmap := rfl
@[simp] theorem State.post_tier2 (s : State) (e : Event) : (s.post e).tier2 = s.tier2 := rfl
@[simp] theorem State.post_lines (s : State) (e : Event) : (s.post e).lines = s.lines := rfl
@[simp] theorem State.post_tent (s : State) (e : Event) : (s.post e).tent = s.tent := rfl
@[simp] theorem State.post_seqs (s : State) (e : Event) : (s.post e).seqs = s.seqs := rfl
@[simp] theorem State.post_reqs (s : State) (e : Event) : (s.post e).reqs = s.reqs := rfl
@[simp] theorem State.post_nextReq (s : State) (e : Event) : (s.post e).nextReq = s.nextReq := rfl
@[simp] theorem State.post_scw (s : State) (e : Event) : (s.post e).scw = s.scw := rfl
@[simp] theorem State.post_pattern (s : State) (e : Event) : (s.post e).pattern = s.pattern := rfl
@[simp] theorem State.post_patOwner (s : State) (e : Event) : (s.post e).patOwner = s.patOwner := rfl
@[simp] theorem State.post_gone (s : State) (e : Event) : (s.post e).gone = s.gone := rfl
@[simp] theorem State.post_cxlOut (s : State) (e : Event) : (s.post e).cxlOut = s.cxlOut := rfl
@[simp] theorem State.post_unitWalks (s : State) (e : Event) : (s.post e).unitWalks = s.unitWalks := rfl
@[simp] theorem State.post_transport (s : State) (e : Event) : (s.post e).transport = s.transport := rfl
@[simp] theorem State.post_slotSent (s : State) (e : Event) : (s.post e).slotSent = s.slotSent := rfl
@[simp] theorem State.post_acks (s : State) (e : Event) : (s.post e).acks = s.acks := rfl
@[simp] theorem State.post_grants (s : State) (e : Event) : (s.post e).grants = s.grants := rfl
@[simp] theorem State.post_banks (s : State) (e : Event) : (s.post e).banks = s.banks := rfl
@[simp] theorem State.post_bankWaits (s : State) (e : Event) : (s.post e).bankWaits = s.bankWaits := rfl
@[simp] theorem State.post_claims (s : State) (e : Event) : (s.post e).claims = s.claims := rfl
@[simp] theorem State.post_walks (s : State) (e : Event) : (s.post e).walks = s.walks := rfl
@[simp] theorem State.post_aborted (s : State) (e : Event) : (s.post e).aborted = s.aborted := rfl
@[simp] theorem State.post_pieces (s : State) (e : Event) : (s.post e).pieces = s.pieces := rfl
@[simp] theorem State.post_nextPiece (s : State) (e : Event) : (s.post e).nextPiece = s.nextPiece := rfl
@[simp] theorem State.post_arrivals (s : State) (e : Event) : (s.post e).arrivals = s.arrivals := rfl
@[simp] theorem State.post_routes (s : State) (e : Event) : (s.post e).routes = s.routes := rfl
@[simp] theorem State.post_channels (s : State) (e : Event) : (s.post e).channels = s.channels := rfl
@[simp] theorem State.post_hbmQ (s : State) (e : Event) : (s.post e).hbmQ = s.hbmQ := rfl
@[simp] theorem State.post_dtlb (s : State) (e : Event) : (s.post e).dtlb = s.dtlb := rfl
@[simp] theorem State.post_seals (s : State) (e : Event) : (s.post e).seals = s.seals := rfl
@[simp] theorem State.post_invals (s : State) (e : Event) : (s.post e).invals = s.invals := rfl
@[simp] theorem State.post_nextInval (s : State) (e : Event) : (s.post e).nextInval = s.nextInval := rfl
@[simp] theorem State.post_deadRuns (s : State) (e : Event) : (s.post e).deadRuns = s.deadRuns := rfl
@[simp] theorem State.post_slots (s : State) (e : Event) : (s.post e).slots = s.slots := rfl
@[simp] theorem State.post_cores (s : State) (e : Event) : (s.post e).cores = s.cores := rfl
@[simp] theorem State.post_tiles (s : State) (e : Event) : (s.post e).tiles = s.tiles := rfl
@[simp] theorem State.post_domains (s : State) (e : Event) : (s.post e).domains = s.domains := rfl
@[simp] theorem State.post_launches (s : State) (e : Event) : (s.post e).launches = s.launches := rfl
@[simp] theorem State.post_nextLid (s : State) (e : Event) : (s.post e).nextLid = s.nextLid := rfl
@[simp] theorem State.post_copies (s : State) (e : Event) : (s.post e).copies = s.copies := rfl
@[simp] theorem State.post_nextCopy (s : State) (e : Event) : (s.post e).nextCopy = s.nextCopy := rfl
@[simp] theorem State.post_pool (s : State) (e : Event) : (s.post e).pool = s.pool := rfl
@[simp] theorem State.post_queues (s : State) (e : Event) : (s.post e).queues = s.queues := rfl
@[simp] theorem State.post_turns (s : State) (e : Event) : (s.post e).turns = s.turns := rfl
@[simp] theorem State.post_time (s : State) (e : Event) : (s.post e).time = s.time := rfl
@[simp] theorem State.post_slew (s : State) (e : Event) : (s.post e).slew = s.slew := rfl
@[simp] theorem State.post_slewAt (s : State) (e : Event) : (s.post e).slewAt = s.slewAt := rfl
@[simp] theorem State.post_skew (s : State) (e : Event) : (s.post e).skew = s.skew := rfl
@[simp] theorem State.post_good (s : State) (e : Event) : (s.post e).good = s.good := rfl
@[simp] theorem State.post_pos (s : State) (e : Event) : (s.post e).pos = s.pos := rfl
@[simp] theorem State.post_extents (s : State) (e : Event) : (s.post e).extents = s.extents := rfl
@[simp] theorem State.post_ports (s : State) (e : Event) : (s.post e).ports = s.ports := rfl
@[simp] theorem State.post_lostPkgs (s : State) (e : Event) : (s.post e).lostPkgs = s.lostPkgs := rfl
@[simp] theorem State.post_lostLinks (s : State) (e : Event) : (s.post e).lostLinks = s.lostLinks := rfl
@[simp] theorem State.post_job (s : State) (e : Event) : (s.post e).job = s.job := rfl
@[simp] theorem State.post_myRank (s : State) (e : Event) : (s.post e).myRank = s.myRank := rfl
@[simp] theorem State.post_ue (s : State) (e : Event) : (s.post e).ue = s.ue := rfl
@[simp] theorem State.post_pdcs (s : State) (e : Event) : (s.post e).pdcs = s.pdcs := rfl
@[simp] theorem State.post_rx (s : State) (e : Event) : (s.post e).rx = s.rx := rfl
@[simp] theorem State.post_early (s : State) (e : Event) : (s.post e).early = s.early := rfl
@[simp] theorem State.post_lateReleases (s : State) (e : Event) : (s.post e).lateReleases = s.lateReleases := rfl
@[simp] theorem State.post_routers (s : State) (e : Event) : (s.post e).routers = s.routers := rfl
@[simp] theorem State.post_rerouting (s : State) (e : Event) : (s.post e).rerouting = s.rerouting := rfl
@[simp] theorem State.post_generation (s : State) (e : Event) : (s.post e).generation = s.generation := rfl
@[simp] theorem State.post_closed (s : State) (e : Event) : (s.post e).closed = s.closed := rfl
@[simp] theorem State.post_duty (s : State) (e : Event) : (s.post e).duty = s.duty := rfl
@[simp] theorem State.post_throttle (s : State) (e : Event) : (s.post e).throttle = s.throttle := rfl
@[simp] theorem State.post_errors (s : State) (e : Event) : (s.post e).errors = s.errors := rfl
@[simp] theorem State.post_ncorr (s : State) (e : Event) : (s.post e).ncorr = s.ncorr := rfl
@[simp] theorem State.post_nretry (s : State) (e : Event) : (s.post e).nretry = s.nretry := rfl
@[simp] theorem State.post_boot (s : State) (e : Event) : (s.post e).boot = s.boot := rfl
@[simp] theorem State.post_event (s : State) (e : Event) : (s.post e).event = s.event := rfl
@[simp] theorem State.post_timers (s : State) (e : Event) : (s.post e).timers = s.timers := rfl
@[simp] theorem State.post_round (s : State) (e : Event) : (s.post e).round = s.round := rfl
@[simp] theorem State.post_mid (s : State) (e : Event) : (s.post e).mid = s.mid := rfl
@[simp] theorem State.post_cur (s : State) (e : Event) : (s.post e).cur = s.cur := rfl
@[simp] theorem State.post_fresh (s : State) (e : Event) : (s.post e).fresh = s.fresh := rfl

/-! ### `State.setHart` -/

@[simp] theorem State.setHart_ck (s : State) (ag : Agent) (h : Hart) : (s.setHart ag h).ck = s.ck := by cases ag <;> rfl
@[simp] theorem State.setHart_mem (s : State) (ag : Agent) (h : Hart) : (s.setHart ag h).mem = s.mem := by cases ag <;> rfl
@[simp] theorem State.setHart_marks (s : State) (ag : Agent) (h : Hart) : (s.setHart ag h).marks = s.marks := by cases ag <;> rfl
@[simp] theorem State.setHart_asctx (s : State) (ag : Agent) (h : Hart) : (s.setHart ag h).asctx = s.asctx := by cases ag <;> rfl
@[simp] theorem State.setHart_clmap (s : State) (ag : Agent) (h : Hart) : (s.setHart ag h).clmap = s.clmap := by cases ag <;> rfl
@[simp] theorem State.setHart_tier2 (s : State) (ag : Agent) (h : Hart) : (s.setHart ag h).tier2 = s.tier2 := by cases ag <;> rfl
@[simp] theorem State.setHart_lines (s : State) (ag : Agent) (h : Hart) : (s.setHart ag h).lines = s.lines := by cases ag <;> rfl
@[simp] theorem State.setHart_tent (s : State) (ag : Agent) (h : Hart) : (s.setHart ag h).tent = s.tent := by cases ag <;> rfl
@[simp] theorem State.setHart_seqs (s : State) (ag : Agent) (h : Hart) : (s.setHart ag h).seqs = s.seqs := by cases ag <;> rfl
@[simp] theorem State.setHart_reqs (s : State) (ag : Agent) (h : Hart) : (s.setHart ag h).reqs = s.reqs := by cases ag <;> rfl
@[simp] theorem State.setHart_nextReq (s : State) (ag : Agent) (h : Hart) : (s.setHart ag h).nextReq = s.nextReq := by cases ag <;> rfl
@[simp] theorem State.setHart_scw (s : State) (ag : Agent) (h : Hart) : (s.setHart ag h).scw = s.scw := by cases ag <;> rfl
@[simp] theorem State.setHart_pattern (s : State) (ag : Agent) (h : Hart) : (s.setHart ag h).pattern = s.pattern := by cases ag <;> rfl
@[simp] theorem State.setHart_patOwner (s : State) (ag : Agent) (h : Hart) : (s.setHart ag h).patOwner = s.patOwner := by cases ag <;> rfl
@[simp] theorem State.setHart_gone (s : State) (ag : Agent) (h : Hart) : (s.setHart ag h).gone = s.gone := by cases ag <;> rfl
@[simp] theorem State.setHart_cxlOut (s : State) (ag : Agent) (h : Hart) : (s.setHart ag h).cxlOut = s.cxlOut := by cases ag <;> rfl
@[simp] theorem State.setHart_unitWalks (s : State) (ag : Agent) (h : Hart) : (s.setHart ag h).unitWalks = s.unitWalks := by cases ag <;> rfl
@[simp] theorem State.setHart_transport (s : State) (ag : Agent) (h : Hart) : (s.setHart ag h).transport = s.transport := by cases ag <;> rfl
@[simp] theorem State.setHart_slotSent (s : State) (ag : Agent) (h : Hart) : (s.setHart ag h).slotSent = s.slotSent := by cases ag <;> rfl
@[simp] theorem State.setHart_acks (s : State) (ag : Agent) (h : Hart) : (s.setHart ag h).acks = s.acks := by cases ag <;> rfl
@[simp] theorem State.setHart_grants (s : State) (ag : Agent) (h : Hart) : (s.setHart ag h).grants = s.grants := by cases ag <;> rfl
@[simp] theorem State.setHart_banks (s : State) (ag : Agent) (h : Hart) : (s.setHart ag h).banks = s.banks := by cases ag <;> rfl
@[simp] theorem State.setHart_bankWaits (s : State) (ag : Agent) (h : Hart) : (s.setHart ag h).bankWaits = s.bankWaits := by cases ag <;> rfl
@[simp] theorem State.setHart_claims (s : State) (ag : Agent) (h : Hart) : (s.setHart ag h).claims = s.claims := by cases ag <;> rfl
@[simp] theorem State.setHart_walks (s : State) (ag : Agent) (h : Hart) : (s.setHart ag h).walks = s.walks := by cases ag <;> rfl
@[simp] theorem State.setHart_aborted (s : State) (ag : Agent) (h : Hart) : (s.setHart ag h).aborted = s.aborted := by cases ag <;> rfl
@[simp] theorem State.setHart_pieces (s : State) (ag : Agent) (h : Hart) : (s.setHart ag h).pieces = s.pieces := by cases ag <;> rfl
@[simp] theorem State.setHart_nextPiece (s : State) (ag : Agent) (h : Hart) : (s.setHart ag h).nextPiece = s.nextPiece := by cases ag <;> rfl
@[simp] theorem State.setHart_arrivals (s : State) (ag : Agent) (h : Hart) : (s.setHart ag h).arrivals = s.arrivals := by cases ag <;> rfl
@[simp] theorem State.setHart_routes (s : State) (ag : Agent) (h : Hart) : (s.setHart ag h).routes = s.routes := by cases ag <;> rfl
@[simp] theorem State.setHart_channels (s : State) (ag : Agent) (h : Hart) : (s.setHart ag h).channels = s.channels := by cases ag <;> rfl
@[simp] theorem State.setHart_hbmQ (s : State) (ag : Agent) (h : Hart) : (s.setHart ag h).hbmQ = s.hbmQ := by cases ag <;> rfl
@[simp] theorem State.setHart_dtlb (s : State) (ag : Agent) (h : Hart) : (s.setHart ag h).dtlb = s.dtlb := by cases ag <;> rfl
@[simp] theorem State.setHart_seals (s : State) (ag : Agent) (h : Hart) : (s.setHart ag h).seals = s.seals := by cases ag <;> rfl
@[simp] theorem State.setHart_invals (s : State) (ag : Agent) (h : Hart) : (s.setHart ag h).invals = s.invals := by cases ag <;> rfl
@[simp] theorem State.setHart_nextInval (s : State) (ag : Agent) (h : Hart) : (s.setHart ag h).nextInval = s.nextInval := by cases ag <;> rfl
@[simp] theorem State.setHart_deadRuns (s : State) (ag : Agent) (h : Hart) : (s.setHart ag h).deadRuns = s.deadRuns := by cases ag <;> rfl
@[simp] theorem State.setHart_cores (s : State) (ag : Agent) (h : Hart) : (s.setHart ag h).cores = s.cores := by cases ag <;> rfl
@[simp] theorem State.setHart_domains (s : State) (ag : Agent) (h : Hart) : (s.setHart ag h).domains = s.domains := by cases ag <;> rfl
@[simp] theorem State.setHart_launches (s : State) (ag : Agent) (h : Hart) : (s.setHart ag h).launches = s.launches := by cases ag <;> rfl
@[simp] theorem State.setHart_nextLid (s : State) (ag : Agent) (h : Hart) : (s.setHart ag h).nextLid = s.nextLid := by cases ag <;> rfl
@[simp] theorem State.setHart_copies (s : State) (ag : Agent) (h : Hart) : (s.setHart ag h).copies = s.copies := by cases ag <;> rfl
@[simp] theorem State.setHart_nextCopy (s : State) (ag : Agent) (h : Hart) : (s.setHart ag h).nextCopy = s.nextCopy := by cases ag <;> rfl
@[simp] theorem State.setHart_pool (s : State) (ag : Agent) (h : Hart) : (s.setHart ag h).pool = s.pool := by cases ag <;> rfl
@[simp] theorem State.setHart_queues (s : State) (ag : Agent) (h : Hart) : (s.setHart ag h).queues = s.queues := by cases ag <;> rfl
@[simp] theorem State.setHart_turns (s : State) (ag : Agent) (h : Hart) : (s.setHart ag h).turns = s.turns := by cases ag <;> rfl
@[simp] theorem State.setHart_time (s : State) (ag : Agent) (h : Hart) : (s.setHart ag h).time = s.time := by cases ag <;> rfl
@[simp] theorem State.setHart_slew (s : State) (ag : Agent) (h : Hart) : (s.setHart ag h).slew = s.slew := by cases ag <;> rfl
@[simp] theorem State.setHart_slewAt (s : State) (ag : Agent) (h : Hart) : (s.setHart ag h).slewAt = s.slewAt := by cases ag <;> rfl
@[simp] theorem State.setHart_skew (s : State) (ag : Agent) (h : Hart) : (s.setHart ag h).skew = s.skew := by cases ag <;> rfl
@[simp] theorem State.setHart_good (s : State) (ag : Agent) (h : Hart) : (s.setHart ag h).good = s.good := by cases ag <;> rfl
@[simp] theorem State.setHart_pos (s : State) (ag : Agent) (h : Hart) : (s.setHart ag h).pos = s.pos := by cases ag <;> rfl
@[simp] theorem State.setHart_extents (s : State) (ag : Agent) (h : Hart) : (s.setHart ag h).extents = s.extents := by cases ag <;> rfl
@[simp] theorem State.setHart_ports (s : State) (ag : Agent) (h : Hart) : (s.setHart ag h).ports = s.ports := by cases ag <;> rfl
@[simp] theorem State.setHart_lostPkgs (s : State) (ag : Agent) (h : Hart) : (s.setHart ag h).lostPkgs = s.lostPkgs := by cases ag <;> rfl
@[simp] theorem State.setHart_lostLinks (s : State) (ag : Agent) (h : Hart) : (s.setHart ag h).lostLinks = s.lostLinks := by cases ag <;> rfl
@[simp] theorem State.setHart_job (s : State) (ag : Agent) (h : Hart) : (s.setHart ag h).job = s.job := by cases ag <;> rfl
@[simp] theorem State.setHart_myRank (s : State) (ag : Agent) (h : Hart) : (s.setHart ag h).myRank = s.myRank := by cases ag <;> rfl
@[simp] theorem State.setHart_ue (s : State) (ag : Agent) (h : Hart) : (s.setHart ag h).ue = s.ue := by cases ag <;> rfl
@[simp] theorem State.setHart_pdcs (s : State) (ag : Agent) (h : Hart) : (s.setHart ag h).pdcs = s.pdcs := by cases ag <;> rfl
@[simp] theorem State.setHart_rx (s : State) (ag : Agent) (h : Hart) : (s.setHart ag h).rx = s.rx := by cases ag <;> rfl
@[simp] theorem State.setHart_early (s : State) (ag : Agent) (h : Hart) : (s.setHart ag h).early = s.early := by cases ag <;> rfl
@[simp] theorem State.setHart_lateReleases (s : State) (ag : Agent) (h : Hart) : (s.setHart ag h).lateReleases = s.lateReleases := by cases ag <;> rfl
@[simp] theorem State.setHart_routers (s : State) (ag : Agent) (h : Hart) : (s.setHart ag h).routers = s.routers := by cases ag <;> rfl
@[simp] theorem State.setHart_rerouting (s : State) (ag : Agent) (h : Hart) : (s.setHart ag h).rerouting = s.rerouting := by cases ag <;> rfl
@[simp] theorem State.setHart_generation (s : State) (ag : Agent) (h : Hart) : (s.setHart ag h).generation = s.generation := by cases ag <;> rfl
@[simp] theorem State.setHart_closed (s : State) (ag : Agent) (h : Hart) : (s.setHart ag h).closed = s.closed := by cases ag <;> rfl
@[simp] theorem State.setHart_duty (s : State) (ag : Agent) (h : Hart) : (s.setHart ag h).duty = s.duty := by cases ag <;> rfl
@[simp] theorem State.setHart_throttle (s : State) (ag : Agent) (h : Hart) : (s.setHart ag h).throttle = s.throttle := by cases ag <;> rfl
@[simp] theorem State.setHart_errors (s : State) (ag : Agent) (h : Hart) : (s.setHart ag h).errors = s.errors := by cases ag <;> rfl
@[simp] theorem State.setHart_ncorr (s : State) (ag : Agent) (h : Hart) : (s.setHart ag h).ncorr = s.ncorr := by cases ag <;> rfl
@[simp] theorem State.setHart_nretry (s : State) (ag : Agent) (h : Hart) : (s.setHart ag h).nretry = s.nretry := by cases ag <;> rfl
@[simp] theorem State.setHart_boot (s : State) (ag : Agent) (h : Hart) : (s.setHart ag h).boot = s.boot := by cases ag <;> rfl
@[simp] theorem State.setHart_agenda (s : State) (ag : Agent) (h : Hart) : (s.setHart ag h).agenda = s.agenda := by cases ag <;> rfl
@[simp] theorem State.setHart_event (s : State) (ag : Agent) (h : Hart) : (s.setHart ag h).event = s.event := by cases ag <;> rfl
@[simp] theorem State.setHart_timers (s : State) (ag : Agent) (h : Hart) : (s.setHart ag h).timers = s.timers := by cases ag <;> rfl
@[simp] theorem State.setHart_round (s : State) (ag : Agent) (h : Hart) : (s.setHart ag h).round = s.round := by cases ag <;> rfl
@[simp] theorem State.setHart_mid (s : State) (ag : Agent) (h : Hart) : (s.setHart ag h).mid = s.mid := by cases ag <;> rfl
@[simp] theorem State.setHart_cur (s : State) (ag : Agent) (h : Hart) : (s.setHart ag h).cur = s.cur := by cases ag <;> rfl
@[simp] theorem State.setHart_fresh (s : State) (ag : Agent) (h : Hart) : (s.setHart ag h).fresh = s.fresh := by cases ag <;> rfl

/-! ### `State.wg` -/

@[simp] theorem State.wg_ck (s : State) (ag : Agent) (r : Reg) (x : Word) : (s.wg ag r x).ck = s.ck := by cases ag <;> rfl
@[simp] theorem State.wg_mem (s : State) (ag : Agent) (r : Reg) (x : Word) : (s.wg ag r x).mem = s.mem := by cases ag <;> rfl
@[simp] theorem State.wg_marks (s : State) (ag : Agent) (r : Reg) (x : Word) : (s.wg ag r x).marks = s.marks := by cases ag <;> rfl
@[simp] theorem State.wg_asctx (s : State) (ag : Agent) (r : Reg) (x : Word) : (s.wg ag r x).asctx = s.asctx := by cases ag <;> rfl
@[simp] theorem State.wg_clmap (s : State) (ag : Agent) (r : Reg) (x : Word) : (s.wg ag r x).clmap = s.clmap := by cases ag <;> rfl
@[simp] theorem State.wg_tier2 (s : State) (ag : Agent) (r : Reg) (x : Word) : (s.wg ag r x).tier2 = s.tier2 := by cases ag <;> rfl
@[simp] theorem State.wg_lines (s : State) (ag : Agent) (r : Reg) (x : Word) : (s.wg ag r x).lines = s.lines := by cases ag <;> rfl
@[simp] theorem State.wg_tent (s : State) (ag : Agent) (r : Reg) (x : Word) : (s.wg ag r x).tent = s.tent := by cases ag <;> rfl
@[simp] theorem State.wg_seqs (s : State) (ag : Agent) (r : Reg) (x : Word) : (s.wg ag r x).seqs = s.seqs := by cases ag <;> rfl
@[simp] theorem State.wg_reqs (s : State) (ag : Agent) (r : Reg) (x : Word) : (s.wg ag r x).reqs = s.reqs := by cases ag <;> rfl
@[simp] theorem State.wg_nextReq (s : State) (ag : Agent) (r : Reg) (x : Word) : (s.wg ag r x).nextReq = s.nextReq := by cases ag <;> rfl
@[simp] theorem State.wg_scw (s : State) (ag : Agent) (r : Reg) (x : Word) : (s.wg ag r x).scw = s.scw := by cases ag <;> rfl
@[simp] theorem State.wg_pattern (s : State) (ag : Agent) (r : Reg) (x : Word) : (s.wg ag r x).pattern = s.pattern := by cases ag <;> rfl
@[simp] theorem State.wg_patOwner (s : State) (ag : Agent) (r : Reg) (x : Word) : (s.wg ag r x).patOwner = s.patOwner := by cases ag <;> rfl
@[simp] theorem State.wg_gone (s : State) (ag : Agent) (r : Reg) (x : Word) : (s.wg ag r x).gone = s.gone := by cases ag <;> rfl
@[simp] theorem State.wg_cxlOut (s : State) (ag : Agent) (r : Reg) (x : Word) : (s.wg ag r x).cxlOut = s.cxlOut := by cases ag <;> rfl
@[simp] theorem State.wg_unitWalks (s : State) (ag : Agent) (r : Reg) (x : Word) : (s.wg ag r x).unitWalks = s.unitWalks := by cases ag <;> rfl
@[simp] theorem State.wg_transport (s : State) (ag : Agent) (r : Reg) (x : Word) : (s.wg ag r x).transport = s.transport := by cases ag <;> rfl
@[simp] theorem State.wg_slotSent (s : State) (ag : Agent) (r : Reg) (x : Word) : (s.wg ag r x).slotSent = s.slotSent := by cases ag <;> rfl
@[simp] theorem State.wg_acks (s : State) (ag : Agent) (r : Reg) (x : Word) : (s.wg ag r x).acks = s.acks := by cases ag <;> rfl
@[simp] theorem State.wg_grants (s : State) (ag : Agent) (r : Reg) (x : Word) : (s.wg ag r x).grants = s.grants := by cases ag <;> rfl
@[simp] theorem State.wg_banks (s : State) (ag : Agent) (r : Reg) (x : Word) : (s.wg ag r x).banks = s.banks := by cases ag <;> rfl
@[simp] theorem State.wg_bankWaits (s : State) (ag : Agent) (r : Reg) (x : Word) : (s.wg ag r x).bankWaits = s.bankWaits := by cases ag <;> rfl
@[simp] theorem State.wg_claims (s : State) (ag : Agent) (r : Reg) (x : Word) : (s.wg ag r x).claims = s.claims := by cases ag <;> rfl
@[simp] theorem State.wg_walks (s : State) (ag : Agent) (r : Reg) (x : Word) : (s.wg ag r x).walks = s.walks := by cases ag <;> rfl
@[simp] theorem State.wg_aborted (s : State) (ag : Agent) (r : Reg) (x : Word) : (s.wg ag r x).aborted = s.aborted := by cases ag <;> rfl
@[simp] theorem State.wg_pieces (s : State) (ag : Agent) (r : Reg) (x : Word) : (s.wg ag r x).pieces = s.pieces := by cases ag <;> rfl
@[simp] theorem State.wg_nextPiece (s : State) (ag : Agent) (r : Reg) (x : Word) : (s.wg ag r x).nextPiece = s.nextPiece := by cases ag <;> rfl
@[simp] theorem State.wg_arrivals (s : State) (ag : Agent) (r : Reg) (x : Word) : (s.wg ag r x).arrivals = s.arrivals := by cases ag <;> rfl
@[simp] theorem State.wg_routes (s : State) (ag : Agent) (r : Reg) (x : Word) : (s.wg ag r x).routes = s.routes := by cases ag <;> rfl
@[simp] theorem State.wg_channels (s : State) (ag : Agent) (r : Reg) (x : Word) : (s.wg ag r x).channels = s.channels := by cases ag <;> rfl
@[simp] theorem State.wg_hbmQ (s : State) (ag : Agent) (r : Reg) (x : Word) : (s.wg ag r x).hbmQ = s.hbmQ := by cases ag <;> rfl
@[simp] theorem State.wg_dtlb (s : State) (ag : Agent) (r : Reg) (x : Word) : (s.wg ag r x).dtlb = s.dtlb := by cases ag <;> rfl
@[simp] theorem State.wg_seals (s : State) (ag : Agent) (r : Reg) (x : Word) : (s.wg ag r x).seals = s.seals := by cases ag <;> rfl
@[simp] theorem State.wg_invals (s : State) (ag : Agent) (r : Reg) (x : Word) : (s.wg ag r x).invals = s.invals := by cases ag <;> rfl
@[simp] theorem State.wg_nextInval (s : State) (ag : Agent) (r : Reg) (x : Word) : (s.wg ag r x).nextInval = s.nextInval := by cases ag <;> rfl
@[simp] theorem State.wg_deadRuns (s : State) (ag : Agent) (r : Reg) (x : Word) : (s.wg ag r x).deadRuns = s.deadRuns := by cases ag <;> rfl
@[simp] theorem State.wg_cores (s : State) (ag : Agent) (r : Reg) (x : Word) : (s.wg ag r x).cores = s.cores := by cases ag <;> rfl
@[simp] theorem State.wg_domains (s : State) (ag : Agent) (r : Reg) (x : Word) : (s.wg ag r x).domains = s.domains := by cases ag <;> rfl
@[simp] theorem State.wg_launches (s : State) (ag : Agent) (r : Reg) (x : Word) : (s.wg ag r x).launches = s.launches := by cases ag <;> rfl
@[simp] theorem State.wg_nextLid (s : State) (ag : Agent) (r : Reg) (x : Word) : (s.wg ag r x).nextLid = s.nextLid := by cases ag <;> rfl
@[simp] theorem State.wg_copies (s : State) (ag : Agent) (r : Reg) (x : Word) : (s.wg ag r x).copies = s.copies := by cases ag <;> rfl
@[simp] theorem State.wg_nextCopy (s : State) (ag : Agent) (r : Reg) (x : Word) : (s.wg ag r x).nextCopy = s.nextCopy := by cases ag <;> rfl
@[simp] theorem State.wg_pool (s : State) (ag : Agent) (r : Reg) (x : Word) : (s.wg ag r x).pool = s.pool := by cases ag <;> rfl
@[simp] theorem State.wg_queues (s : State) (ag : Agent) (r : Reg) (x : Word) : (s.wg ag r x).queues = s.queues := by cases ag <;> rfl
@[simp] theorem State.wg_turns (s : State) (ag : Agent) (r : Reg) (x : Word) : (s.wg ag r x).turns = s.turns := by cases ag <;> rfl
@[simp] theorem State.wg_time (s : State) (ag : Agent) (r : Reg) (x : Word) : (s.wg ag r x).time = s.time := by cases ag <;> rfl
@[simp] theorem State.wg_slew (s : State) (ag : Agent) (r : Reg) (x : Word) : (s.wg ag r x).slew = s.slew := by cases ag <;> rfl
@[simp] theorem State.wg_slewAt (s : State) (ag : Agent) (r : Reg) (x : Word) : (s.wg ag r x).slewAt = s.slewAt := by cases ag <;> rfl
@[simp] theorem State.wg_skew (s : State) (ag : Agent) (r : Reg) (x : Word) : (s.wg ag r x).skew = s.skew := by cases ag <;> rfl
@[simp] theorem State.wg_good (s : State) (ag : Agent) (r : Reg) (x : Word) : (s.wg ag r x).good = s.good := by cases ag <;> rfl
@[simp] theorem State.wg_pos (s : State) (ag : Agent) (r : Reg) (x : Word) : (s.wg ag r x).pos = s.pos := by cases ag <;> rfl
@[simp] theorem State.wg_extents (s : State) (ag : Agent) (r : Reg) (x : Word) : (s.wg ag r x).extents = s.extents := by cases ag <;> rfl
@[simp] theorem State.wg_ports (s : State) (ag : Agent) (r : Reg) (x : Word) : (s.wg ag r x).ports = s.ports := by cases ag <;> rfl
@[simp] theorem State.wg_lostPkgs (s : State) (ag : Agent) (r : Reg) (x : Word) : (s.wg ag r x).lostPkgs = s.lostPkgs := by cases ag <;> rfl
@[simp] theorem State.wg_lostLinks (s : State) (ag : Agent) (r : Reg) (x : Word) : (s.wg ag r x).lostLinks = s.lostLinks := by cases ag <;> rfl
@[simp] theorem State.wg_job (s : State) (ag : Agent) (r : Reg) (x : Word) : (s.wg ag r x).job = s.job := by cases ag <;> rfl
@[simp] theorem State.wg_myRank (s : State) (ag : Agent) (r : Reg) (x : Word) : (s.wg ag r x).myRank = s.myRank := by cases ag <;> rfl
@[simp] theorem State.wg_ue (s : State) (ag : Agent) (r : Reg) (x : Word) : (s.wg ag r x).ue = s.ue := by cases ag <;> rfl
@[simp] theorem State.wg_pdcs (s : State) (ag : Agent) (r : Reg) (x : Word) : (s.wg ag r x).pdcs = s.pdcs := by cases ag <;> rfl
@[simp] theorem State.wg_rx (s : State) (ag : Agent) (r : Reg) (x : Word) : (s.wg ag r x).rx = s.rx := by cases ag <;> rfl
@[simp] theorem State.wg_early (s : State) (ag : Agent) (r : Reg) (x : Word) : (s.wg ag r x).early = s.early := by cases ag <;> rfl
@[simp] theorem State.wg_lateReleases (s : State) (ag : Agent) (r : Reg) (x : Word) : (s.wg ag r x).lateReleases = s.lateReleases := by cases ag <;> rfl
@[simp] theorem State.wg_routers (s : State) (ag : Agent) (r : Reg) (x : Word) : (s.wg ag r x).routers = s.routers := by cases ag <;> rfl
@[simp] theorem State.wg_rerouting (s : State) (ag : Agent) (r : Reg) (x : Word) : (s.wg ag r x).rerouting = s.rerouting := by cases ag <;> rfl
@[simp] theorem State.wg_generation (s : State) (ag : Agent) (r : Reg) (x : Word) : (s.wg ag r x).generation = s.generation := by cases ag <;> rfl
@[simp] theorem State.wg_closed (s : State) (ag : Agent) (r : Reg) (x : Word) : (s.wg ag r x).closed = s.closed := by cases ag <;> rfl
@[simp] theorem State.wg_duty (s : State) (ag : Agent) (r : Reg) (x : Word) : (s.wg ag r x).duty = s.duty := by cases ag <;> rfl
@[simp] theorem State.wg_throttle (s : State) (ag : Agent) (r : Reg) (x : Word) : (s.wg ag r x).throttle = s.throttle := by cases ag <;> rfl
@[simp] theorem State.wg_errors (s : State) (ag : Agent) (r : Reg) (x : Word) : (s.wg ag r x).errors = s.errors := by cases ag <;> rfl
@[simp] theorem State.wg_ncorr (s : State) (ag : Agent) (r : Reg) (x : Word) : (s.wg ag r x).ncorr = s.ncorr := by cases ag <;> rfl
@[simp] theorem State.wg_nretry (s : State) (ag : Agent) (r : Reg) (x : Word) : (s.wg ag r x).nretry = s.nretry := by cases ag <;> rfl
@[simp] theorem State.wg_boot (s : State) (ag : Agent) (r : Reg) (x : Word) : (s.wg ag r x).boot = s.boot := by cases ag <;> rfl
@[simp] theorem State.wg_agenda (s : State) (ag : Agent) (r : Reg) (x : Word) : (s.wg ag r x).agenda = s.agenda := by cases ag <;> rfl
@[simp] theorem State.wg_event (s : State) (ag : Agent) (r : Reg) (x : Word) : (s.wg ag r x).event = s.event := by cases ag <;> rfl
@[simp] theorem State.wg_timers (s : State) (ag : Agent) (r : Reg) (x : Word) : (s.wg ag r x).timers = s.timers := by cases ag <;> rfl
@[simp] theorem State.wg_round (s : State) (ag : Agent) (r : Reg) (x : Word) : (s.wg ag r x).round = s.round := by cases ag <;> rfl
@[simp] theorem State.wg_mid (s : State) (ag : Agent) (r : Reg) (x : Word) : (s.wg ag r x).mid = s.mid := by cases ag <;> rfl
@[simp] theorem State.wg_cur (s : State) (ag : Agent) (r : Reg) (x : Word) : (s.wg ag r x).cur = s.cur := by cases ag <;> rfl
@[simp] theorem State.wg_fresh (s : State) (ag : Agent) (r : Reg) (x : Word) : (s.wg ag r x).fresh = s.fresh := by cases ag <;> rfl

/-! ### `State.raise` -/

@[simp] theorem State.raise_ck (s : State) (ag : Agent) (n : BitVec 7) : (s.raise ag n).ck = s.ck := by cases ag <;> rfl
@[simp] theorem State.raise_mem (s : State) (ag : Agent) (n : BitVec 7) : (s.raise ag n).mem = s.mem := by cases ag <;> rfl
@[simp] theorem State.raise_marks (s : State) (ag : Agent) (n : BitVec 7) : (s.raise ag n).marks = s.marks := by cases ag <;> rfl
@[simp] theorem State.raise_asctx (s : State) (ag : Agent) (n : BitVec 7) : (s.raise ag n).asctx = s.asctx := by cases ag <;> rfl
@[simp] theorem State.raise_clmap (s : State) (ag : Agent) (n : BitVec 7) : (s.raise ag n).clmap = s.clmap := by cases ag <;> rfl
@[simp] theorem State.raise_tier2 (s : State) (ag : Agent) (n : BitVec 7) : (s.raise ag n).tier2 = s.tier2 := by cases ag <;> rfl
@[simp] theorem State.raise_lines (s : State) (ag : Agent) (n : BitVec 7) : (s.raise ag n).lines = s.lines := by cases ag <;> rfl
@[simp] theorem State.raise_tent (s : State) (ag : Agent) (n : BitVec 7) : (s.raise ag n).tent = s.tent := by cases ag <;> rfl
@[simp] theorem State.raise_seqs (s : State) (ag : Agent) (n : BitVec 7) : (s.raise ag n).seqs = s.seqs := by cases ag <;> rfl
@[simp] theorem State.raise_reqs (s : State) (ag : Agent) (n : BitVec 7) : (s.raise ag n).reqs = s.reqs := by cases ag <;> rfl
@[simp] theorem State.raise_nextReq (s : State) (ag : Agent) (n : BitVec 7) : (s.raise ag n).nextReq = s.nextReq := by cases ag <;> rfl
@[simp] theorem State.raise_scw (s : State) (ag : Agent) (n : BitVec 7) : (s.raise ag n).scw = s.scw := by cases ag <;> rfl
@[simp] theorem State.raise_pattern (s : State) (ag : Agent) (n : BitVec 7) : (s.raise ag n).pattern = s.pattern := by cases ag <;> rfl
@[simp] theorem State.raise_patOwner (s : State) (ag : Agent) (n : BitVec 7) : (s.raise ag n).patOwner = s.patOwner := by cases ag <;> rfl
@[simp] theorem State.raise_gone (s : State) (ag : Agent) (n : BitVec 7) : (s.raise ag n).gone = s.gone := by cases ag <;> rfl
@[simp] theorem State.raise_cxlOut (s : State) (ag : Agent) (n : BitVec 7) : (s.raise ag n).cxlOut = s.cxlOut := by cases ag <;> rfl
@[simp] theorem State.raise_unitWalks (s : State) (ag : Agent) (n : BitVec 7) : (s.raise ag n).unitWalks = s.unitWalks := by cases ag <;> rfl
@[simp] theorem State.raise_transport (s : State) (ag : Agent) (n : BitVec 7) : (s.raise ag n).transport = s.transport := by cases ag <;> rfl
@[simp] theorem State.raise_slotSent (s : State) (ag : Agent) (n : BitVec 7) : (s.raise ag n).slotSent = s.slotSent := by cases ag <;> rfl
@[simp] theorem State.raise_acks (s : State) (ag : Agent) (n : BitVec 7) : (s.raise ag n).acks = s.acks := by cases ag <;> rfl
@[simp] theorem State.raise_grants (s : State) (ag : Agent) (n : BitVec 7) : (s.raise ag n).grants = s.grants := by cases ag <;> rfl
@[simp] theorem State.raise_banks (s : State) (ag : Agent) (n : BitVec 7) : (s.raise ag n).banks = s.banks := by cases ag <;> rfl
@[simp] theorem State.raise_bankWaits (s : State) (ag : Agent) (n : BitVec 7) : (s.raise ag n).bankWaits = s.bankWaits := by cases ag <;> rfl
@[simp] theorem State.raise_claims (s : State) (ag : Agent) (n : BitVec 7) : (s.raise ag n).claims = s.claims := by cases ag <;> rfl
@[simp] theorem State.raise_walks (s : State) (ag : Agent) (n : BitVec 7) : (s.raise ag n).walks = s.walks := by cases ag <;> rfl
@[simp] theorem State.raise_aborted (s : State) (ag : Agent) (n : BitVec 7) : (s.raise ag n).aborted = s.aborted := by cases ag <;> rfl
@[simp] theorem State.raise_pieces (s : State) (ag : Agent) (n : BitVec 7) : (s.raise ag n).pieces = s.pieces := by cases ag <;> rfl
@[simp] theorem State.raise_nextPiece (s : State) (ag : Agent) (n : BitVec 7) : (s.raise ag n).nextPiece = s.nextPiece := by cases ag <;> rfl
@[simp] theorem State.raise_arrivals (s : State) (ag : Agent) (n : BitVec 7) : (s.raise ag n).arrivals = s.arrivals := by cases ag <;> rfl
@[simp] theorem State.raise_routes (s : State) (ag : Agent) (n : BitVec 7) : (s.raise ag n).routes = s.routes := by cases ag <;> rfl
@[simp] theorem State.raise_channels (s : State) (ag : Agent) (n : BitVec 7) : (s.raise ag n).channels = s.channels := by cases ag <;> rfl
@[simp] theorem State.raise_hbmQ (s : State) (ag : Agent) (n : BitVec 7) : (s.raise ag n).hbmQ = s.hbmQ := by cases ag <;> rfl
@[simp] theorem State.raise_dtlb (s : State) (ag : Agent) (n : BitVec 7) : (s.raise ag n).dtlb = s.dtlb := by cases ag <;> rfl
@[simp] theorem State.raise_seals (s : State) (ag : Agent) (n : BitVec 7) : (s.raise ag n).seals = s.seals := by cases ag <;> rfl
@[simp] theorem State.raise_invals (s : State) (ag : Agent) (n : BitVec 7) : (s.raise ag n).invals = s.invals := by cases ag <;> rfl
@[simp] theorem State.raise_nextInval (s : State) (ag : Agent) (n : BitVec 7) : (s.raise ag n).nextInval = s.nextInval := by cases ag <;> rfl
@[simp] theorem State.raise_deadRuns (s : State) (ag : Agent) (n : BitVec 7) : (s.raise ag n).deadRuns = s.deadRuns := by cases ag <;> rfl
@[simp] theorem State.raise_cores (s : State) (ag : Agent) (n : BitVec 7) : (s.raise ag n).cores = s.cores := by cases ag <;> rfl
@[simp] theorem State.raise_domains (s : State) (ag : Agent) (n : BitVec 7) : (s.raise ag n).domains = s.domains := by cases ag <;> rfl
@[simp] theorem State.raise_launches (s : State) (ag : Agent) (n : BitVec 7) : (s.raise ag n).launches = s.launches := by cases ag <;> rfl
@[simp] theorem State.raise_nextLid (s : State) (ag : Agent) (n : BitVec 7) : (s.raise ag n).nextLid = s.nextLid := by cases ag <;> rfl
@[simp] theorem State.raise_copies (s : State) (ag : Agent) (n : BitVec 7) : (s.raise ag n).copies = s.copies := by cases ag <;> rfl
@[simp] theorem State.raise_nextCopy (s : State) (ag : Agent) (n : BitVec 7) : (s.raise ag n).nextCopy = s.nextCopy := by cases ag <;> rfl
@[simp] theorem State.raise_pool (s : State) (ag : Agent) (n : BitVec 7) : (s.raise ag n).pool = s.pool := by cases ag <;> rfl
@[simp] theorem State.raise_queues (s : State) (ag : Agent) (n : BitVec 7) : (s.raise ag n).queues = s.queues := by cases ag <;> rfl
@[simp] theorem State.raise_turns (s : State) (ag : Agent) (n : BitVec 7) : (s.raise ag n).turns = s.turns := by cases ag <;> rfl
@[simp] theorem State.raise_time (s : State) (ag : Agent) (n : BitVec 7) : (s.raise ag n).time = s.time := by cases ag <;> rfl
@[simp] theorem State.raise_slew (s : State) (ag : Agent) (n : BitVec 7) : (s.raise ag n).slew = s.slew := by cases ag <;> rfl
@[simp] theorem State.raise_slewAt (s : State) (ag : Agent) (n : BitVec 7) : (s.raise ag n).slewAt = s.slewAt := by cases ag <;> rfl
@[simp] theorem State.raise_skew (s : State) (ag : Agent) (n : BitVec 7) : (s.raise ag n).skew = s.skew := by cases ag <;> rfl
@[simp] theorem State.raise_good (s : State) (ag : Agent) (n : BitVec 7) : (s.raise ag n).good = s.good := by cases ag <;> rfl
@[simp] theorem State.raise_pos (s : State) (ag : Agent) (n : BitVec 7) : (s.raise ag n).pos = s.pos := by cases ag <;> rfl
@[simp] theorem State.raise_extents (s : State) (ag : Agent) (n : BitVec 7) : (s.raise ag n).extents = s.extents := by cases ag <;> rfl
@[simp] theorem State.raise_ports (s : State) (ag : Agent) (n : BitVec 7) : (s.raise ag n).ports = s.ports := by cases ag <;> rfl
@[simp] theorem State.raise_lostPkgs (s : State) (ag : Agent) (n : BitVec 7) : (s.raise ag n).lostPkgs = s.lostPkgs := by cases ag <;> rfl
@[simp] theorem State.raise_lostLinks (s : State) (ag : Agent) (n : BitVec 7) : (s.raise ag n).lostLinks = s.lostLinks := by cases ag <;> rfl
@[simp] theorem State.raise_job (s : State) (ag : Agent) (n : BitVec 7) : (s.raise ag n).job = s.job := by cases ag <;> rfl
@[simp] theorem State.raise_myRank (s : State) (ag : Agent) (n : BitVec 7) : (s.raise ag n).myRank = s.myRank := by cases ag <;> rfl
@[simp] theorem State.raise_ue (s : State) (ag : Agent) (n : BitVec 7) : (s.raise ag n).ue = s.ue := by cases ag <;> rfl
@[simp] theorem State.raise_pdcs (s : State) (ag : Agent) (n : BitVec 7) : (s.raise ag n).pdcs = s.pdcs := by cases ag <;> rfl
@[simp] theorem State.raise_rx (s : State) (ag : Agent) (n : BitVec 7) : (s.raise ag n).rx = s.rx := by cases ag <;> rfl
@[simp] theorem State.raise_early (s : State) (ag : Agent) (n : BitVec 7) : (s.raise ag n).early = s.early := by cases ag <;> rfl
@[simp] theorem State.raise_lateReleases (s : State) (ag : Agent) (n : BitVec 7) : (s.raise ag n).lateReleases = s.lateReleases := by cases ag <;> rfl
@[simp] theorem State.raise_routers (s : State) (ag : Agent) (n : BitVec 7) : (s.raise ag n).routers = s.routers := by cases ag <;> rfl
@[simp] theorem State.raise_rerouting (s : State) (ag : Agent) (n : BitVec 7) : (s.raise ag n).rerouting = s.rerouting := by cases ag <;> rfl
@[simp] theorem State.raise_generation (s : State) (ag : Agent) (n : BitVec 7) : (s.raise ag n).generation = s.generation := by cases ag <;> rfl
@[simp] theorem State.raise_closed (s : State) (ag : Agent) (n : BitVec 7) : (s.raise ag n).closed = s.closed := by cases ag <;> rfl
@[simp] theorem State.raise_duty (s : State) (ag : Agent) (n : BitVec 7) : (s.raise ag n).duty = s.duty := by cases ag <;> rfl
@[simp] theorem State.raise_throttle (s : State) (ag : Agent) (n : BitVec 7) : (s.raise ag n).throttle = s.throttle := by cases ag <;> rfl
@[simp] theorem State.raise_errors (s : State) (ag : Agent) (n : BitVec 7) : (s.raise ag n).errors = s.errors := by cases ag <;> rfl
@[simp] theorem State.raise_ncorr (s : State) (ag : Agent) (n : BitVec 7) : (s.raise ag n).ncorr = s.ncorr := by cases ag <;> rfl
@[simp] theorem State.raise_nretry (s : State) (ag : Agent) (n : BitVec 7) : (s.raise ag n).nretry = s.nretry := by cases ag <;> rfl
@[simp] theorem State.raise_boot (s : State) (ag : Agent) (n : BitVec 7) : (s.raise ag n).boot = s.boot := by cases ag <;> rfl
@[simp] theorem State.raise_agenda (s : State) (ag : Agent) (n : BitVec 7) : (s.raise ag n).agenda = s.agenda := by cases ag <;> rfl
@[simp] theorem State.raise_event (s : State) (ag : Agent) (n : BitVec 7) : (s.raise ag n).event = s.event := by cases ag <;> rfl
@[simp] theorem State.raise_timers (s : State) (ag : Agent) (n : BitVec 7) : (s.raise ag n).timers = s.timers := by cases ag <;> rfl
@[simp] theorem State.raise_round (s : State) (ag : Agent) (n : BitVec 7) : (s.raise ag n).round = s.round := by cases ag <;> rfl
@[simp] theorem State.raise_mid (s : State) (ag : Agent) (n : BitVec 7) : (s.raise ag n).mid = s.mid := by cases ag <;> rfl
@[simp] theorem State.raise_cur (s : State) (ag : Agent) (n : BitVec 7) : (s.raise ag n).cur = s.cur := by cases ag <;> rfl
@[simp] theorem State.raise_fresh (s : State) (ag : Agent) (n : BitVec 7) : (s.raise ag n).fresh = s.fresh := by cases ag <;> rfl

/-! ### `State.done` -/

@[simp] theorem State.done_ck (s : State) (ag : Agent) : (s.done ag).ck = s.ck := by cases ag <;> rfl
@[simp] theorem State.done_mem (s : State) (ag : Agent) : (s.done ag).mem = s.mem := by cases ag <;> rfl
@[simp] theorem State.done_marks (s : State) (ag : Agent) : (s.done ag).marks = s.marks := by cases ag <;> rfl
@[simp] theorem State.done_asctx (s : State) (ag : Agent) : (s.done ag).asctx = s.asctx := by cases ag <;> rfl
@[simp] theorem State.done_clmap (s : State) (ag : Agent) : (s.done ag).clmap = s.clmap := by cases ag <;> rfl
@[simp] theorem State.done_tier2 (s : State) (ag : Agent) : (s.done ag).tier2 = s.tier2 := by cases ag <;> rfl
@[simp] theorem State.done_lines (s : State) (ag : Agent) : (s.done ag).lines = s.lines := by cases ag <;> rfl
@[simp] theorem State.done_tent (s : State) (ag : Agent) : (s.done ag).tent = s.tent := by cases ag <;> rfl
@[simp] theorem State.done_seqs (s : State) (ag : Agent) : (s.done ag).seqs = s.seqs := by cases ag <;> rfl
@[simp] theorem State.done_reqs (s : State) (ag : Agent) : (s.done ag).reqs = s.reqs := by cases ag <;> rfl
@[simp] theorem State.done_nextReq (s : State) (ag : Agent) : (s.done ag).nextReq = s.nextReq := by cases ag <;> rfl
@[simp] theorem State.done_scw (s : State) (ag : Agent) : (s.done ag).scw = s.scw := by cases ag <;> rfl
@[simp] theorem State.done_pattern (s : State) (ag : Agent) : (s.done ag).pattern = s.pattern := by cases ag <;> rfl
@[simp] theorem State.done_patOwner (s : State) (ag : Agent) : (s.done ag).patOwner = s.patOwner := by cases ag <;> rfl
@[simp] theorem State.done_gone (s : State) (ag : Agent) : (s.done ag).gone = s.gone := by cases ag <;> rfl
@[simp] theorem State.done_cxlOut (s : State) (ag : Agent) : (s.done ag).cxlOut = s.cxlOut := by cases ag <;> rfl
@[simp] theorem State.done_unitWalks (s : State) (ag : Agent) : (s.done ag).unitWalks = s.unitWalks := by cases ag <;> rfl
@[simp] theorem State.done_transport (s : State) (ag : Agent) : (s.done ag).transport = s.transport := by cases ag <;> rfl
@[simp] theorem State.done_slotSent (s : State) (ag : Agent) : (s.done ag).slotSent = s.slotSent := by cases ag <;> rfl
@[simp] theorem State.done_acks (s : State) (ag : Agent) : (s.done ag).acks = s.acks := by cases ag <;> rfl
@[simp] theorem State.done_grants (s : State) (ag : Agent) : (s.done ag).grants = s.grants := by cases ag <;> rfl
@[simp] theorem State.done_banks (s : State) (ag : Agent) : (s.done ag).banks = s.banks := by cases ag <;> rfl
@[simp] theorem State.done_bankWaits (s : State) (ag : Agent) : (s.done ag).bankWaits = s.bankWaits := by cases ag <;> rfl
@[simp] theorem State.done_claims (s : State) (ag : Agent) : (s.done ag).claims = s.claims := by cases ag <;> rfl
@[simp] theorem State.done_walks (s : State) (ag : Agent) : (s.done ag).walks = s.walks := by cases ag <;> rfl
@[simp] theorem State.done_aborted (s : State) (ag : Agent) : (s.done ag).aborted = s.aborted := by cases ag <;> rfl
@[simp] theorem State.done_pieces (s : State) (ag : Agent) : (s.done ag).pieces = s.pieces := by cases ag <;> rfl
@[simp] theorem State.done_nextPiece (s : State) (ag : Agent) : (s.done ag).nextPiece = s.nextPiece := by cases ag <;> rfl
@[simp] theorem State.done_arrivals (s : State) (ag : Agent) : (s.done ag).arrivals = s.arrivals := by cases ag <;> rfl
@[simp] theorem State.done_routes (s : State) (ag : Agent) : (s.done ag).routes = s.routes := by cases ag <;> rfl
@[simp] theorem State.done_channels (s : State) (ag : Agent) : (s.done ag).channels = s.channels := by cases ag <;> rfl
@[simp] theorem State.done_hbmQ (s : State) (ag : Agent) : (s.done ag).hbmQ = s.hbmQ := by cases ag <;> rfl
@[simp] theorem State.done_dtlb (s : State) (ag : Agent) : (s.done ag).dtlb = s.dtlb := by cases ag <;> rfl
@[simp] theorem State.done_seals (s : State) (ag : Agent) : (s.done ag).seals = s.seals := by cases ag <;> rfl
@[simp] theorem State.done_invals (s : State) (ag : Agent) : (s.done ag).invals = s.invals := by cases ag <;> rfl
@[simp] theorem State.done_nextInval (s : State) (ag : Agent) : (s.done ag).nextInval = s.nextInval := by cases ag <;> rfl
@[simp] theorem State.done_deadRuns (s : State) (ag : Agent) : (s.done ag).deadRuns = s.deadRuns := by cases ag <;> rfl
@[simp] theorem State.done_cores (s : State) (ag : Agent) : (s.done ag).cores = s.cores := by cases ag <;> rfl
@[simp] theorem State.done_domains (s : State) (ag : Agent) : (s.done ag).domains = s.domains := by cases ag <;> rfl
@[simp] theorem State.done_launches (s : State) (ag : Agent) : (s.done ag).launches = s.launches := by cases ag <;> rfl
@[simp] theorem State.done_nextLid (s : State) (ag : Agent) : (s.done ag).nextLid = s.nextLid := by cases ag <;> rfl
@[simp] theorem State.done_copies (s : State) (ag : Agent) : (s.done ag).copies = s.copies := by cases ag <;> rfl
@[simp] theorem State.done_nextCopy (s : State) (ag : Agent) : (s.done ag).nextCopy = s.nextCopy := by cases ag <;> rfl
@[simp] theorem State.done_pool (s : State) (ag : Agent) : (s.done ag).pool = s.pool := by cases ag <;> rfl
@[simp] theorem State.done_queues (s : State) (ag : Agent) : (s.done ag).queues = s.queues := by cases ag <;> rfl
@[simp] theorem State.done_turns (s : State) (ag : Agent) : (s.done ag).turns = s.turns := by cases ag <;> rfl
@[simp] theorem State.done_time (s : State) (ag : Agent) : (s.done ag).time = s.time := by cases ag <;> rfl
@[simp] theorem State.done_slew (s : State) (ag : Agent) : (s.done ag).slew = s.slew := by cases ag <;> rfl
@[simp] theorem State.done_slewAt (s : State) (ag : Agent) : (s.done ag).slewAt = s.slewAt := by cases ag <;> rfl
@[simp] theorem State.done_skew (s : State) (ag : Agent) : (s.done ag).skew = s.skew := by cases ag <;> rfl
@[simp] theorem State.done_good (s : State) (ag : Agent) : (s.done ag).good = s.good := by cases ag <;> rfl
@[simp] theorem State.done_pos (s : State) (ag : Agent) : (s.done ag).pos = s.pos := by cases ag <;> rfl
@[simp] theorem State.done_extents (s : State) (ag : Agent) : (s.done ag).extents = s.extents := by cases ag <;> rfl
@[simp] theorem State.done_ports (s : State) (ag : Agent) : (s.done ag).ports = s.ports := by cases ag <;> rfl
@[simp] theorem State.done_lostPkgs (s : State) (ag : Agent) : (s.done ag).lostPkgs = s.lostPkgs := by cases ag <;> rfl
@[simp] theorem State.done_lostLinks (s : State) (ag : Agent) : (s.done ag).lostLinks = s.lostLinks := by cases ag <;> rfl
@[simp] theorem State.done_job (s : State) (ag : Agent) : (s.done ag).job = s.job := by cases ag <;> rfl
@[simp] theorem State.done_myRank (s : State) (ag : Agent) : (s.done ag).myRank = s.myRank := by cases ag <;> rfl
@[simp] theorem State.done_ue (s : State) (ag : Agent) : (s.done ag).ue = s.ue := by cases ag <;> rfl
@[simp] theorem State.done_pdcs (s : State) (ag : Agent) : (s.done ag).pdcs = s.pdcs := by cases ag <;> rfl
@[simp] theorem State.done_rx (s : State) (ag : Agent) : (s.done ag).rx = s.rx := by cases ag <;> rfl
@[simp] theorem State.done_early (s : State) (ag : Agent) : (s.done ag).early = s.early := by cases ag <;> rfl
@[simp] theorem State.done_lateReleases (s : State) (ag : Agent) : (s.done ag).lateReleases = s.lateReleases := by cases ag <;> rfl
@[simp] theorem State.done_routers (s : State) (ag : Agent) : (s.done ag).routers = s.routers := by cases ag <;> rfl
@[simp] theorem State.done_rerouting (s : State) (ag : Agent) : (s.done ag).rerouting = s.rerouting := by cases ag <;> rfl
@[simp] theorem State.done_generation (s : State) (ag : Agent) : (s.done ag).generation = s.generation := by cases ag <;> rfl
@[simp] theorem State.done_closed (s : State) (ag : Agent) : (s.done ag).closed = s.closed := by cases ag <;> rfl
@[simp] theorem State.done_duty (s : State) (ag : Agent) : (s.done ag).duty = s.duty := by cases ag <;> rfl
@[simp] theorem State.done_throttle (s : State) (ag : Agent) : (s.done ag).throttle = s.throttle := by cases ag <;> rfl
@[simp] theorem State.done_errors (s : State) (ag : Agent) : (s.done ag).errors = s.errors := by cases ag <;> rfl
@[simp] theorem State.done_ncorr (s : State) (ag : Agent) : (s.done ag).ncorr = s.ncorr := by cases ag <;> rfl
@[simp] theorem State.done_nretry (s : State) (ag : Agent) : (s.done ag).nretry = s.nretry := by cases ag <;> rfl
@[simp] theorem State.done_boot (s : State) (ag : Agent) : (s.done ag).boot = s.boot := by cases ag <;> rfl
@[simp] theorem State.done_agenda (s : State) (ag : Agent) : (s.done ag).agenda = s.agenda := by cases ag <;> rfl
@[simp] theorem State.done_event (s : State) (ag : Agent) : (s.done ag).event = s.event := by cases ag <;> rfl
@[simp] theorem State.done_timers (s : State) (ag : Agent) : (s.done ag).timers = s.timers := by cases ag <;> rfl
@[simp] theorem State.done_round (s : State) (ag : Agent) : (s.done ag).round = s.round := by cases ag <;> rfl
@[simp] theorem State.done_mid (s : State) (ag : Agent) : (s.done ag).mid = s.mid := by cases ag <;> rfl
@[simp] theorem State.done_cur (s : State) (ag : Agent) : (s.done ag).cur = s.cur := by cases ag <;> rfl
@[simp] theorem State.done_fresh (s : State) (ag : Agent) : (s.done ag).fresh = s.fresh := by cases ag <;> rfl

/-! ### `State.park` -/

@[simp] theorem State.park_ck (s : State) (ag : Agent) (w : Wait) : (s.park ag w).ck = s.ck := by cases ag <;> rfl
@[simp] theorem State.park_mem (s : State) (ag : Agent) (w : Wait) : (s.park ag w).mem = s.mem := by cases ag <;> rfl
@[simp] theorem State.park_marks (s : State) (ag : Agent) (w : Wait) : (s.park ag w).marks = s.marks := by cases ag <;> rfl
@[simp] theorem State.park_asctx (s : State) (ag : Agent) (w : Wait) : (s.park ag w).asctx = s.asctx := by cases ag <;> rfl
@[simp] theorem State.park_clmap (s : State) (ag : Agent) (w : Wait) : (s.park ag w).clmap = s.clmap := by cases ag <;> rfl
@[simp] theorem State.park_tier2 (s : State) (ag : Agent) (w : Wait) : (s.park ag w).tier2 = s.tier2 := by cases ag <;> rfl
@[simp] theorem State.park_lines (s : State) (ag : Agent) (w : Wait) : (s.park ag w).lines = s.lines := by cases ag <;> rfl
@[simp] theorem State.park_tent (s : State) (ag : Agent) (w : Wait) : (s.park ag w).tent = s.tent := by cases ag <;> rfl
@[simp] theorem State.park_seqs (s : State) (ag : Agent) (w : Wait) : (s.park ag w).seqs = s.seqs := by cases ag <;> rfl
@[simp] theorem State.park_reqs (s : State) (ag : Agent) (w : Wait) : (s.park ag w).reqs = s.reqs := by cases ag <;> rfl
@[simp] theorem State.park_nextReq (s : State) (ag : Agent) (w : Wait) : (s.park ag w).nextReq = s.nextReq := by cases ag <;> rfl
@[simp] theorem State.park_scw (s : State) (ag : Agent) (w : Wait) : (s.park ag w).scw = s.scw := by cases ag <;> rfl
@[simp] theorem State.park_pattern (s : State) (ag : Agent) (w : Wait) : (s.park ag w).pattern = s.pattern := by cases ag <;> rfl
@[simp] theorem State.park_patOwner (s : State) (ag : Agent) (w : Wait) : (s.park ag w).patOwner = s.patOwner := by cases ag <;> rfl
@[simp] theorem State.park_gone (s : State) (ag : Agent) (w : Wait) : (s.park ag w).gone = s.gone := by cases ag <;> rfl
@[simp] theorem State.park_cxlOut (s : State) (ag : Agent) (w : Wait) : (s.park ag w).cxlOut = s.cxlOut := by cases ag <;> rfl
@[simp] theorem State.park_unitWalks (s : State) (ag : Agent) (w : Wait) : (s.park ag w).unitWalks = s.unitWalks := by cases ag <;> rfl
@[simp] theorem State.park_transport (s : State) (ag : Agent) (w : Wait) : (s.park ag w).transport = s.transport := by cases ag <;> rfl
@[simp] theorem State.park_slotSent (s : State) (ag : Agent) (w : Wait) : (s.park ag w).slotSent = s.slotSent := by cases ag <;> rfl
@[simp] theorem State.park_acks (s : State) (ag : Agent) (w : Wait) : (s.park ag w).acks = s.acks := by cases ag <;> rfl
@[simp] theorem State.park_grants (s : State) (ag : Agent) (w : Wait) : (s.park ag w).grants = s.grants := by cases ag <;> rfl
@[simp] theorem State.park_banks (s : State) (ag : Agent) (w : Wait) : (s.park ag w).banks = s.banks := by cases ag <;> rfl
@[simp] theorem State.park_bankWaits (s : State) (ag : Agent) (w : Wait) : (s.park ag w).bankWaits = s.bankWaits := by cases ag <;> rfl
@[simp] theorem State.park_claims (s : State) (ag : Agent) (w : Wait) : (s.park ag w).claims = s.claims := by cases ag <;> rfl
@[simp] theorem State.park_walks (s : State) (ag : Agent) (w : Wait) : (s.park ag w).walks = s.walks := by cases ag <;> rfl
@[simp] theorem State.park_aborted (s : State) (ag : Agent) (w : Wait) : (s.park ag w).aborted = s.aborted := by cases ag <;> rfl
@[simp] theorem State.park_pieces (s : State) (ag : Agent) (w : Wait) : (s.park ag w).pieces = s.pieces := by cases ag <;> rfl
@[simp] theorem State.park_nextPiece (s : State) (ag : Agent) (w : Wait) : (s.park ag w).nextPiece = s.nextPiece := by cases ag <;> rfl
@[simp] theorem State.park_arrivals (s : State) (ag : Agent) (w : Wait) : (s.park ag w).arrivals = s.arrivals := by cases ag <;> rfl
@[simp] theorem State.park_routes (s : State) (ag : Agent) (w : Wait) : (s.park ag w).routes = s.routes := by cases ag <;> rfl
@[simp] theorem State.park_channels (s : State) (ag : Agent) (w : Wait) : (s.park ag w).channels = s.channels := by cases ag <;> rfl
@[simp] theorem State.park_hbmQ (s : State) (ag : Agent) (w : Wait) : (s.park ag w).hbmQ = s.hbmQ := by cases ag <;> rfl
@[simp] theorem State.park_dtlb (s : State) (ag : Agent) (w : Wait) : (s.park ag w).dtlb = s.dtlb := by cases ag <;> rfl
@[simp] theorem State.park_seals (s : State) (ag : Agent) (w : Wait) : (s.park ag w).seals = s.seals := by cases ag <;> rfl
@[simp] theorem State.park_invals (s : State) (ag : Agent) (w : Wait) : (s.park ag w).invals = s.invals := by cases ag <;> rfl
@[simp] theorem State.park_nextInval (s : State) (ag : Agent) (w : Wait) : (s.park ag w).nextInval = s.nextInval := by cases ag <;> rfl
@[simp] theorem State.park_deadRuns (s : State) (ag : Agent) (w : Wait) : (s.park ag w).deadRuns = s.deadRuns := by cases ag <;> rfl
@[simp] theorem State.park_cores (s : State) (ag : Agent) (w : Wait) : (s.park ag w).cores = s.cores := by cases ag <;> rfl
@[simp] theorem State.park_domains (s : State) (ag : Agent) (w : Wait) : (s.park ag w).domains = s.domains := by cases ag <;> rfl
@[simp] theorem State.park_launches (s : State) (ag : Agent) (w : Wait) : (s.park ag w).launches = s.launches := by cases ag <;> rfl
@[simp] theorem State.park_nextLid (s : State) (ag : Agent) (w : Wait) : (s.park ag w).nextLid = s.nextLid := by cases ag <;> rfl
@[simp] theorem State.park_copies (s : State) (ag : Agent) (w : Wait) : (s.park ag w).copies = s.copies := by cases ag <;> rfl
@[simp] theorem State.park_nextCopy (s : State) (ag : Agent) (w : Wait) : (s.park ag w).nextCopy = s.nextCopy := by cases ag <;> rfl
@[simp] theorem State.park_pool (s : State) (ag : Agent) (w : Wait) : (s.park ag w).pool = s.pool := by cases ag <;> rfl
@[simp] theorem State.park_queues (s : State) (ag : Agent) (w : Wait) : (s.park ag w).queues = s.queues := by cases ag <;> rfl
@[simp] theorem State.park_turns (s : State) (ag : Agent) (w : Wait) : (s.park ag w).turns = s.turns := by cases ag <;> rfl
@[simp] theorem State.park_time (s : State) (ag : Agent) (w : Wait) : (s.park ag w).time = s.time := by cases ag <;> rfl
@[simp] theorem State.park_slew (s : State) (ag : Agent) (w : Wait) : (s.park ag w).slew = s.slew := by cases ag <;> rfl
@[simp] theorem State.park_slewAt (s : State) (ag : Agent) (w : Wait) : (s.park ag w).slewAt = s.slewAt := by cases ag <;> rfl
@[simp] theorem State.park_skew (s : State) (ag : Agent) (w : Wait) : (s.park ag w).skew = s.skew := by cases ag <;> rfl
@[simp] theorem State.park_good (s : State) (ag : Agent) (w : Wait) : (s.park ag w).good = s.good := by cases ag <;> rfl
@[simp] theorem State.park_pos (s : State) (ag : Agent) (w : Wait) : (s.park ag w).pos = s.pos := by cases ag <;> rfl
@[simp] theorem State.park_extents (s : State) (ag : Agent) (w : Wait) : (s.park ag w).extents = s.extents := by cases ag <;> rfl
@[simp] theorem State.park_ports (s : State) (ag : Agent) (w : Wait) : (s.park ag w).ports = s.ports := by cases ag <;> rfl
@[simp] theorem State.park_lostPkgs (s : State) (ag : Agent) (w : Wait) : (s.park ag w).lostPkgs = s.lostPkgs := by cases ag <;> rfl
@[simp] theorem State.park_lostLinks (s : State) (ag : Agent) (w : Wait) : (s.park ag w).lostLinks = s.lostLinks := by cases ag <;> rfl
@[simp] theorem State.park_job (s : State) (ag : Agent) (w : Wait) : (s.park ag w).job = s.job := by cases ag <;> rfl
@[simp] theorem State.park_myRank (s : State) (ag : Agent) (w : Wait) : (s.park ag w).myRank = s.myRank := by cases ag <;> rfl
@[simp] theorem State.park_ue (s : State) (ag : Agent) (w : Wait) : (s.park ag w).ue = s.ue := by cases ag <;> rfl
@[simp] theorem State.park_pdcs (s : State) (ag : Agent) (w : Wait) : (s.park ag w).pdcs = s.pdcs := by cases ag <;> rfl
@[simp] theorem State.park_rx (s : State) (ag : Agent) (w : Wait) : (s.park ag w).rx = s.rx := by cases ag <;> rfl
@[simp] theorem State.park_early (s : State) (ag : Agent) (w : Wait) : (s.park ag w).early = s.early := by cases ag <;> rfl
@[simp] theorem State.park_lateReleases (s : State) (ag : Agent) (w : Wait) : (s.park ag w).lateReleases = s.lateReleases := by cases ag <;> rfl
@[simp] theorem State.park_routers (s : State) (ag : Agent) (w : Wait) : (s.park ag w).routers = s.routers := by cases ag <;> rfl
@[simp] theorem State.park_rerouting (s : State) (ag : Agent) (w : Wait) : (s.park ag w).rerouting = s.rerouting := by cases ag <;> rfl
@[simp] theorem State.park_generation (s : State) (ag : Agent) (w : Wait) : (s.park ag w).generation = s.generation := by cases ag <;> rfl
@[simp] theorem State.park_closed (s : State) (ag : Agent) (w : Wait) : (s.park ag w).closed = s.closed := by cases ag <;> rfl
@[simp] theorem State.park_duty (s : State) (ag : Agent) (w : Wait) : (s.park ag w).duty = s.duty := by cases ag <;> rfl
@[simp] theorem State.park_throttle (s : State) (ag : Agent) (w : Wait) : (s.park ag w).throttle = s.throttle := by cases ag <;> rfl
@[simp] theorem State.park_errors (s : State) (ag : Agent) (w : Wait) : (s.park ag w).errors = s.errors := by cases ag <;> rfl
@[simp] theorem State.park_ncorr (s : State) (ag : Agent) (w : Wait) : (s.park ag w).ncorr = s.ncorr := by cases ag <;> rfl
@[simp] theorem State.park_nretry (s : State) (ag : Agent) (w : Wait) : (s.park ag w).nretry = s.nretry := by cases ag <;> rfl
@[simp] theorem State.park_boot (s : State) (ag : Agent) (w : Wait) : (s.park ag w).boot = s.boot := by cases ag <;> rfl
@[simp] theorem State.park_agenda (s : State) (ag : Agent) (w : Wait) : (s.park ag w).agenda = s.agenda := by cases ag <;> rfl
@[simp] theorem State.park_event (s : State) (ag : Agent) (w : Wait) : (s.park ag w).event = s.event := by cases ag <;> rfl
@[simp] theorem State.park_timers (s : State) (ag : Agent) (w : Wait) : (s.park ag w).timers = s.timers := by cases ag <;> rfl
@[simp] theorem State.park_round (s : State) (ag : Agent) (w : Wait) : (s.park ag w).round = s.round := by cases ag <;> rfl
@[simp] theorem State.park_mid (s : State) (ag : Agent) (w : Wait) : (s.park ag w).mid = s.mid := by cases ag <;> rfl
@[simp] theorem State.park_cur (s : State) (ag : Agent) (w : Wait) : (s.park ag w).cur = s.cur := by cases ag <;> rfl
@[simp] theorem State.park_fresh (s : State) (ag : Agent) (w : Wait) : (s.park ag w).fresh = s.fresh := by cases ag <;> rfl

/-- The registers written by `State.wg`. -/
@[simp] theorem State.hart_wg_self (s : State) (ag : Agent) (r : Reg) (x : Word) : (s.wg ag r x).hart ag = (s.hart ag).wg r x := by
  simp [State.wg]
theorem State.hart_wg_ne (s : State) {ag b : Agent} (r : Reg) (x : Word) (e : b ≠ ag) : (s.wg ag r x).hart b = s.hart b :=
  State.hart_setHart_ne s _ e
/-- The registers after `State.done`. -/
@[simp] theorem State.hart_done_self (s : State) (ag : Agent) : (s.done ag).hart ag = (s.hart ag).advance := by
  simp [State.done]
theorem State.hart_done_ne (s : State) {ag b : Agent} (e : b ≠ ag) : (s.done ag).hart b = s.hart b :=
  State.hart_setHart_ne s _ e

end Sys2Proof.Machine
end

