-- ==== Sys2Proof/Tests/Slice0.lean ====
section
/-!
SUPPORT. Tests: the form checks of WellFormed, words of every major, single steps from the spec's examples, and for each
statement of Certificates/Slice0/Obligations.lean states that meet its hypotheses, clause by clause.
-/

-- One declaration at a time, so that the package as one text compiles in little memory.
set_option Elab.async false

namespace Sys2Proof.Tests
open Sys2Proof Sys2Proof.Machine Sys2Proof.Claims

/-! ### Helpers -/

/-- The outcome is a next state that passes a check. -/
def next (o : Host.Outcome State Fault Refusal) (f : State → Bool) : Bool :=
  match o with
  | .next t => f t
  | _ => false

/-- A register of the executing agent set. -/
def setg (s : State) (r : Reg) (x : Nat) : State := s.wg s.cur r (BitVec.ofNat 64 x)

/-- Bytes of a number put into memory. -/
def putNat (s : State) (pa n x : Nat) : State := { s with mem := memPut s.mem pa (bytesOfNat n x) }

/-- An event happens. -/
def onEvent (s : State) (e : Event) : State := { s with event := some e }

/-- The wait is a watch of a barrier. -/
def watching : Wait → Bool
  | .txn _ w => w
  | _ => false

/-- What holds of every slot that is listed, and of a fresh one, holds of every slot. -/
theorem slots_of {s : State} {P : Nat → Slot → Prop} (h : ∀ p ∈ s.slots, P p.1 p.2) (h0 : ∀ k, P k Slot.reset) (j : SlotId) : P j.val (s.slot j) := by
  have key : ∀ (t : Tbl Slot) k x, t.find k = some x → (k, x) ∈ t := by
    intro t
    induction t with
    | nil => intro k x e; simp [Tbl.find] at e
    | cons p r ih =>
      intro k x e
      simp only [Tbl.find] at e
      split at e
      · next hk =>
        obtain rfl : p.2 = x := by simpa using e
        obtain rfl : k = p.1 := by simpa using hk
        exact List.mem_cons_self
      · split at e
        · simp at e
        · exact List.mem_cons.mpr (.inr (ih k x e))
  unfold State.slot
  cases hf : s.slots.find j.val with
  | none => exact h0 _
  | some x => exact h _ (key _ _ _ hf)

/-- Neither speculative nor watching. -/
def quiet (x : Slot) : Bool := x.spec != .speculative && !watching x.wait

/-- A quiet slot is neither speculative nor watching. -/
theorem quiet_of {x : Slot} (h : quiet x = true) : x.spec ≠ .speculative ∧ ∀ q, x.wait ≠ .txn q true := by
  simp only [quiet, Bool.and_eq_true, bne_iff_ne, Bool.not_eq_true'] at h
  refine ⟨h.1, fun q e => ?_⟩
  have := h.2
  rw [e] at this
  cases this

/-- No slot that is listed is speculative or watches. -/
theorem noSpeculation_of {s : State} (h : ∀ p ∈ s.slots, quiet p.2 = true) : NoSpeculation s :=
  fun j => quiet_of (slots_of (P := fun _ x => quiet x = true) h (fun _ => by decide) j)

/-- With no speculative slot, none has read the frame's block. -/
theorem unread_of {s : State} (i : SlotId) (pa : Nat) (h : ∀ p ∈ s.slots, quiet p.2 = true) : Unread s i pa :=
  fun j _ e => absurd e (noSpeculation_of h j).1

/-- A result with a value that passes a check. -/
def gives {α : Type} [DecidableEq α] (r : Res α) (a : α) (p : State → Bool) : Bool :=
  match r with
  | .ok x u => x == a && p u
  | _ => false

/-- A result that the check finds is one. -/
theorem gives_of {α : Type} [DecidableEq α] {r : Res α} {a : α} {p : State → Bool} (h : gives r a p = true) : ∃ u, r = .ok a u ∧ p u = true := by
  unfold gives at h
  split at h
  · next x u => simp only [Bool.and_eq_true, beq_iff_eq] at h; exact ⟨u, by rw [h.1], h.2⟩
  · cases h

/-- A reading with a value that passes a check. -/
def loads {α : Type} [DecidableEq α] (r : Load α) (a : α) (p : State → Bool) : Bool :=
  match r with
  | .ok x u => x == a && p u
  | _ => false

/-- A reading that the check finds is one. -/
theorem loads_of {α : Type} [DecidableEq α] {r : Load α} {a : α} {p : State → Bool} (h : loads r a p = true) : ∃ u, r = .ok a u ∧ p u = true := by
  unfold loads at h
  split at h
  · next x u => simp only [Bool.and_eq_true, beq_iff_eq] at h; exact ⟨u, by rw [h.1], h.2⟩
  · cases h

/-- A result that is found to be a value is that value. -/
theorem ok_of {ε α : Type} [DecidableEq α] {x : Except ε α} {a : α} (h : (x.toOption == some a) = true) : x = .ok a := by
  cases x with
  | error e => simp [Except.toOption] at h
  | ok b => simpa [Except.toOption] using h

/-- A walk that is found to come to a leaf does. -/
theorem leaf_of {w : Walk} (h : (match w with | .leaf .. => true | _ => false) = true) : ∃ e l ea pa, w = .leaf e l ea pa := by
  cases w with
  | leaf e l ea pa => exact ⟨e, l, ea, pa, rfl⟩
  | _ => simp at h


/-- An access is aimed at a destination. -/
def aimedAt (x : Aim) (d : Dest) : Bool :=
  match x with
  | .ok e => e == d
  | _ => false

/-- An access that is found to be aimed at a destination is. -/
theorem aim_of {x : Aim} {d : Dest} (h : aimedAt x d = true) : x = .ok d := by
  cases x with
  | ok e => simpa [aimedAt] using h
  | _ => simp [aimedAt] at h

/-- An access that is served, as a check. -/
def served (s : State) (i : SlotId) (va n : Nat) (k : Kind) (d : Dest) : Bool :=
  s.cur == .slot i && (s.slot i).spec != .speculative && va % n == 0 && aimedAt (s.aim (coreOf i) va n k) d && d.place != .device && !d.away
    && s.answer (.agent (.slot i)) d n k.writes == .serve && (palBanks d.pa n).all (s.bankServes (.agent (.slot i)))
    && s.openReq (.agent (.slot i)) d.pa == none

/-- An access that the check finds served is. -/
theorem served_of {s : State} {i : SlotId} {va n : Nat} {k : Kind} {d : Dest} (h : served s i va n k d = true) : Served s i va n k d := by
  simp only [served, Bool.and_eq_true, beq_iff_eq, bne_iff_ne, Bool.not_eq_true', List.all_eq_true] at h
  obtain ⟨⟨⟨⟨⟨⟨⟨⟨h1, h2⟩, h3⟩, h4⟩, h5⟩, h6⟩, h7⟩, h8⟩, h9⟩ := h
  exact ⟨h1, h2, h3, aim_of h4, h5, h6, h7, h8, h9⟩

/-- A read that the check finds served, of granules without a mark, outside the replica region. -/
theorem readable_of {s : State} {i : SlotId} {va n : Nat} {d : Dest} (h : (served s i va n .read d && !s.inReplica d && !s.marked d.pa n && (!d.sld || (s.core (coreOf i)).reps.isEmpty)) = true) :
    Readable s i va n d := by
  simp only [Bool.and_eq_true, Bool.or_eq_true, Bool.not_eq_true', List.isEmpty_iff] at h
  exact ⟨served_of h.1.1.1, h.1.1.2, h.1.2, fun e => h.2.resolve_left (by simp [e])⟩

/-- The words decode to their instructions. -/
abbrev decodesTo (l : List (BitVec 32 × Instr)) : Prop := l.map (fun p => decode p.1) = l.map (fun p => .ok p.2)
/-- The words of a domain table entry with tiles 0 to 63 as members: PENT, STRICT and XPKG as given, CARR 1. -/
def ent (pent strict xpkg : Bool) : Vector Word 4 :=
  #v[0x8000000000010000#64 ||| (if pent then 1#64 <<< 62 else 0) ||| (if strict then 1#64 <<< 61 else 0) ||| (if xpkg then 1#64 <<< 60 else 0),
    0xFFFFFFFFFFFFFFFF, 0, 0]

/-- Domain 1 of launch 1 in superstep 4. -/
def dom1 : Domain :=
  { lid := 1, ent := ent false false false, step := 4, off := 10, lead := 0, pattern := 2, arrived := [], coreArr := [], windows := []
    held := false, heldCk := 7, frozen := false, rollbacks := 0, unprot := false, releasing := false, colTiles := [3], colDone := 0
    preempt := false, saved := false, service := false, started := true, xrec := [], xready := [], startAt := none, xwhen := 0, xarr := [], xvote := 0
    xsent := false, trel := none, xresult := 0, hlead := 0, xheld := [], xgo := [], xdata := [] }

/-- Launch 1, which claims every cluster, with context 1. -/
def launch1 : Launch :=
  { rcd := (Vector.replicate 16 0xFFFFFFFFFFFFFFFF#64).set 0 0x0001000000000000, st := .running, pool := none, parent := none
    queue := none, home := 0, began := 0, start := 0, asked := (0, 0), rings := [(0, 1, [0xA002080000000000, 0xA01A080000000000, 0xC004340000000000])], timetable := [0x900600100000000B], pattern := none, locked := [], toPush := []
    fault := none, status := none, saved := none }

/-- The translation of the 512 MiB from 0x40000000 to HBM. -/
def bigPage : TlbEntry := { va := 0x40000000, bits := 29, asid := 0x11, leaf := 0x2000003F, level := 2 }

/-- Launch 1 runs on cores 0 to 7 and tile 3; domain 1 is its domain. -/
def base : State :=
  { State.reset with
    cores := (List.range 8).map (fun c => (c, { Core.reset with part := 0x8000000002000001, lid := some 1, utlb := [bigPage] }))
    tiles := [(3, { Tile.reset with lid := some 1, running := true, tclen := 256, so := 10, rtlb := [bigPage] })]
    launches := [(1, launch1)]
    asctx := [(1, 0x8000000000000011)]
    dtlb := [(0, [bigPage])]
    lines := (List.range 16).map (fun k => (0x200000 + k, { st := .ready, dirty := false, hostHeld := 0, asked := 0, pins := 0 }))
    patOwner := some 1
    pattern := 0x80000001
    scw := 4
    domains := [(1, dom1)] }

/-- Tile 3 executes. -/
def onTile3 : State := { base with cur := .tile 3 }

/-- Slot 0 of core 0 executes a task of launch 1. -/
def onSlot0 : State := { base with cur := .slot 0, slots := [(0, { Slot.reset with st := .running })] }

/-- Words of major 0x01, written from the encodings of R249 to R255 (spec/opcode_table.json). -/
theorem test_decode_major_01_1 : decodesTo
    [(0x048CC480#32, .add (.pred 2) 6 12 9),
     (0x048CC481#32, .sub (.pred 2) 6 12 9),
     (0x048CC482#32, .mul (.pred 2) 6 12 9),
     (0x048CC483#32, .mulhI (.pred 2) 6 12 9),
     (0x048CC484#32, .mulhN (.pred 2) 6 12 9),
     (0x048CC485#32, .divI (.pred 2) 6 12 9),
     (0x048CC486#32, .divN (.pred 2) 6 12 9),
     (0x048CC487#32, .remI (.pred 2) 6 12 9),
     (0x048CC488#32, .remN (.pred 2) 6 12 9),
     (0x048CC489#32, .madd (.pred 2) 6 12 9),
     (0x048CC48A#32, .and (.pred 2) 6 12 9),
     (0x048CC48B#32, .or (.pred 2) 6 12 9),
     (0x048CC48C#32, .xor (.pred 2) 6 12 9),
     (0x048CC48D#32, .shl (.pred 2) 6 12 9),
     (0x048CC48E#32, .shrI (.pred 2) 6 12 9),
     (0x048CC48F#32, .shrN (.pred 2) 6 12 9)] := rfl

/-- Words of major 0x01, written from the encodings of R249 to R255 (spec/opcode_table.json). -/
theorem test_decode_major_01_2 : decodesTo
    [(0x048CC490#32, .rot (.pred 2) 6 12 9),
     (0x048CC011#32, .clz (.pred 2) 6 12),
     (0x048CC012#32, .ctz (.pred 2) 6 12),
     (0x048CC013#32, .popc (.pred 2) 6 12),
     (0x048CC494#32, .minI (.pred 2) 6 12 9),
     (0x048CC495#32, .maxI (.pred 2) 6 12 9),
     (0x048CC496#32, .minN (.pred 2) 6 12 9),
     (0x048CC497#32, .maxN (.pred 2) 6 12 9),
     (0x048CC4A4#32, .setCc (.pred 2) .gt 6 12 9),
     (0x048CC4BD#32, .sel (.pred 2) 6 12 9 5)] := rfl

/-- Words of major 0x02, written from the encodings of R249 to R255 (spec/opcode_table.json). -/
theorem test_decode_major_02 : decodesTo
    [(0x08CC8001#32, .addi 6 12 32769)] := rfl

/-- Words of major 0x03, written from the encodings of R249 to R255 (spec/opcode_table.json). -/
theorem test_decode_major_03 : decodesTo
    [(0x0CCC8001#32, .andi 6 12 32769)] := rfl

/-- Words of major 0x04, written from the encodings of R249 to R255 (spec/opcode_table.json). -/
theorem test_decode_major_04 : decodesTo
    [(0x10CC8001#32, .ori 6 12 32769)] := rfl

/-- Words of major 0x05, written from the encodings of R249 to R255 (spec/opcode_table.json). -/
theorem test_decode_major_05 : decodesTo
    [(0x14CC8001#32, .xori 6 12 32769)] := rfl

/-- Words of major 0x06, written from the encodings of R249 to R255 (spec/opcode_table.json). -/
theorem test_decode_major_06 : decodesTo
    [(0x18D00001#32, .li 6 1048577)] := rfl

/-- Words of major 0x07, written from the encodings of R249 to R255 (spec/opcode_table.json). -/
theorem test_decode_major_07 : decodesTo
    [(0x1CC28001#32, .lih 6 2 32769)] := rfl

/-- Words of major 0x08, written from the encodings of R249 to R255 (spec/opcode_table.json). -/
theorem test_decode_major_08 : decodesTo
    [(0x20D00001#32, .lia 6 1048577)] := rfl

/-- Words of major 0x09, written from the encodings of R249 to R255 (spec/opcode_table.json). -/
theorem test_decode_major_09 : decodesTo
    [(0x24CC16A0#32, .bfx 6 12 5 42),
     (0x24CC16A1#32, .bfxI 6 12 5 42),
     (0x24CC16A2#32, .bfi 6 12 5 42),
     (0x24CC1403#32, .shli 6 12 5),
     (0x24CC1404#32, .shriI 6 12 5),
     (0x24CC1405#32, .shriN 6 12 5)] := rfl

/-- Words of major 0x0A, written from the encodings of R249 to R255 (spec/opcode_table.json). -/
theorem test_decode_major_0a : decodesTo
    [(0x2AAAAAAB#32, .b 44739243)] := rfl

/-- Words of major 0x0B, written from the encodings of R249 to R255 (spec/opcode_table.json). -/
theorem test_decode_major_0b : decodesTo
    [(0x2EAAAAAB#32, .call 44739243)] := rfl

/-- Words of major 0x0C, written from the encodings of R249 to R255 (spec/opcode_table.json). -/
theorem test_decode_major_0c : decodesTo
    [(0x31895555#32, .bcCc .gt 12 87381)] := rfl

/-- Words of major 0x0D, written from the encodings of R249 to R255 (spec/opcode_table.json). -/
theorem test_decode_major_0d : decodesTo
    [(0x35894FFD#32, .bcmpCc .gt 12 9 4093)] := rfl

/-- Words of major 0x0E, written from the encodings of R249 to R255 (spec/opcode_table.json). -/
theorem test_decode_major_0e : decodesTo
    [(0x380C0000#32, .callr 12),
     (0x38000001#32, .ret),
     (0x380C0002#32, .jr 12),
     (0x38000003#32, .tend),
     (0x38000004#32, .tyield),
     (0x38000B05#32, .trap 44),
     (0x38000B06#32, .brk 44),
     (0x38000B07#32, .sysc 44)] := rfl

/-- Words of major 0x0F, written from the encodings of R249 to R255 (spec/opcode_table.json). -/
theorem test_decode_major_0f : decodesTo
    [(0x3EC01801#32, .loop 2 true 1025 2049)] := rfl

/-- Words of major 0x10, written from the encodings of R249 to R255 (spec/opcode_table.json). -/
theorem test_decode_major_10 : decodesTo
    [(0x42B00801#32, .loopr 2 true 12 2049)] := rfl

/-- Words of major 0x11, written from the encodings of R249 to R255 (spec/opcode_table.json). -/
theorem test_decode_major_11 : decodesTo
    [(0x44000080#32, .lbrk 2),
     (0x44002881#32, .lbrkl 2 5),
     (0x44000082#32, .lnext 2),
     (0x44CC0003#32, .qallot 6 12),
     (0x44CC0004#32, .qfree 6 12),
     (0x440C0005#32, .lsave 12),
     (0x440C0006#32, .lrest 12)] := rfl

/-- Words of major 0x12, written from the encodings of R249 to R255 (spec/opcode_table.json). -/
theorem test_decode_major_12 : decodesTo
    [(0x488CC155#32, .ldI8 (.pred 2) 6 12 341),
     (0x488CC355#32, .ldN8 (.pred 2) 6 12 341),
     (0x488CC555#32, .ldI16 (.pred 2) 6 12 341),
     (0x488CC755#32, .ldN16 (.pred 2) 6 12 341),
     (0x488CC955#32, .ldI32 (.pred 2) 6 12 341),
     (0x488CCB55#32, .ldN32 (.pred 2) 6 12 341),
     (0x488CCD55#32, .ldD (.pred 2) 6 12 341)] := rfl

/-- Words of major 0x13, written from the encodings of R249 to R255 (spec/opcode_table.json). -/
theorem test_decode_major_13 : decodesTo
    [(0x4C8CC155#32, .stB (.pred 2) 6 12 341),
     (0x4C8CC355#32, .stH (.pred 2) 6 12 341),
     (0x4C8CC555#32, .stW (.pred 2) 6 12 341),
     (0x4C8CC755#32, .stD (.pred 2) 6 12 341)] := rfl

/-- Words of major 0x14, written from the encodings of R249 to R255 (spec/opcode_table.json). -/
theorem test_decode_major_14 : decodesTo
    [(0x50CC0040#32, .ldAcq .pkg 6 12),
     (0x500C4841#32, .stRel .pkg 12 9),
     (0x50000042#32, .fenceS .pkg),
     (0x500C0003#32, .pref 12),
     (0x50CC4804#32, .seal 6 12 9),
     (0x50CC4805#32, .unseal 6 12 9)] := rfl

/-- Words of major 0x15, written from the encodings of R249 to R255 (spec/opcode_table.json). -/
theorem test_decode_major_15 : decodesTo
    [(0x54CC4AC0#32, .amoAdd .acq .pkg true 6 12 9),
     (0x54CC4AC1#32, .amoAnd .acq .pkg true 6 12 9),
     (0x54CC4AC2#32, .amoOr .acq .pkg true 6 12 9),
     (0x54CC4AC3#32, .amoXor .acq .pkg true 6 12 9),
     (0x54CC4AC4#32, .amoMinI .acq .pkg true 6 12 9),
     (0x54CC4AC5#32, .amoMaxI .acq .pkg true 6 12 9),
     (0x54CC4AC6#32, .amoMinN .acq .pkg true 6 12 9),
     (0x54CC4AC7#32, .amoMaxN .acq .pkg true 6 12 9),
     (0x54CC4AC8#32, .amoSwap .acq .pkg true 6 12 9),
     (0x54CC4AC9#32, .amoCas .acq .pkg true 6 12 9),
     (0x54CC4ACA#32, .amoAddfx .acq .pkg 6 12 9),
     (0x54CC4A8B#32, .amoAddf .acq .pkg 6 12 9)] := rfl

/-- Words of major 0x16, written from the encodings of R249 to R255 (spec/opcode_table.json). -/
theorem test_decode_major_16 : decodesTo
    [(0x58CC4800#32, .spawn 6 12 9),
     (0x58CC0001#32, .push 6 12),
     (0x58CC4802#32, .pushts 6 12 9),
     (0x580C4803#32, .twait 12 9),
     (0x58000004#32, .commitIrr),
     (0x58CC4805#32, .sarm 6 12 9),
     (0x580C4806#32, .swait 12 9),
     (0x580C4847#32, .sadd .pkg 12 9),
     (0x580C4848#32, .xbarArr .pkg 12 9),
     (0x580C0009#32, .barArr 12),
     (0x580C000A#32, .barWait 12),
     (0x58CC480B#32, .lpatch 6 12 9),
     (0x58CC000C#32, .larm 6 12),
     (0x58CC000D#32, .wpost 6 12),
     (0x58CC000E#32, .wquery 6 12)] := rfl

/-- Words of major 0x17, written from the encodings of R249 to R255 (spec/opcode_table.json). -/
theorem test_decode_major_17 : decodesTo
    [(0x5C0C0000#32, .cpLin 12),
     (0x5C0C0001#32, .cpBox 12),
     (0x5C0C0002#32, .cpGather 12),
     (0x5C0C0003#32, .cpScatter 12),
     (0x5C0C0004#32, .cpRemote 12),
     (0x5C0C0005#32, .cpCancel 12)] := rfl

/-- Words of major 0x3F, written from the encodings of R249 to R255 (spec/opcode_table.json). -/
theorem test_decode_major_3f : decodesTo
    [(0xFCC00B00#32, .krd 6 44),
     (0xFC0C0B01#32, .kwr 12 44),
     (0xFC000002#32, .eret),
     (0xFC000003#32, .idle),
     (0xFC0C4804#32, .ovl 12 9),
     (0xFC0C4805#32, .tlbiVa 12 9),
     (0xFC0C0045#32, .tlbiAsid 12),
     (0xFC000085#32, .tlbiAll)] := rfl

/-- Words of major 0x20, written from the encodings of R249 to R255 (spec/opcode_table.json). -/
theorem test_decode_major_20 : decodesTo
    [(0x82CCC4D8#32, .vaddF32 (.stage 3) true ⟨1, 6⟩ ⟨0, 12⟩ ⟨1, 9⟩),
     (0x82CCC4D9#32, .vsubF32 (.stage 3) true ⟨1, 6⟩ ⟨0, 12⟩ ⟨1, 9⟩),
     (0x82CCC4DA#32, .vmulF32 (.stage 3) true ⟨1, 6⟩ ⟨0, 12⟩ ⟨1, 9⟩),
     (0x82CCC4DB#32, .vminF32 (.stage 3) true ⟨1, 6⟩ ⟨0, 12⟩ ⟨1, 9⟩),
     (0x82CCC4DC#32, .vmaxF32 (.stage 3) true ⟨1, 6⟩ ⟨0, 12⟩ ⟨1, 9⟩),
     (0x82CCC4DD#32, .vdivF32 (.stage 3) true ⟨1, 6⟩ ⟨0, 12⟩ ⟨1, 9⟩),
     (0x82CCC4DE#32, .vfmaF32 (.stage 3) true ⟨1, 6⟩ ⟨0, 12⟩ ⟨1, 9⟩),
     (0x82CCC4DF#32, .vfmsF32 (.stage 3) true ⟨1, 6⟩ ⟨0, 12⟩ ⟨1, 9⟩)] := rfl

/-- Words of major 0x21, written from the encodings of R249 to R255 (spec/opcode_table.json). -/
theorem test_decode_major_21 : decodesTo
    [(0x86CCC4D8#32, .vfnmaF32 (.stage 3) true ⟨1, 6⟩ ⟨0, 12⟩ ⟨1, 9⟩),
     (0x86CCC049#32, .vabsF32 (.stage 3) true ⟨1, 6⟩ ⟨0, 12⟩),
     (0x86CCC04A#32, .vnegF32 (.stage 3) true ⟨1, 6⟩ ⟨0, 12⟩),
     (0x86CCC04B#32, .vsqrtF32 (.stage 3) true ⟨1, 6⟩ ⟨0, 12⟩),
     (0x86CCC04C#32, .vrsqrtF32 (.stage 3) true ⟨1, 6⟩ ⟨0, 12⟩),
     (0x86CCC04D#32, .vexp2F32 (.stage 3) true ⟨1, 6⟩ ⟨0, 12⟩),
     (0x86CCC04E#32, .vlog2F32 (.stage 3) true ⟨1, 6⟩ ⟨0, 12⟩)] := rfl

/-- Words of major 0x22, written from the encodings of R249 to R255 (spec/opcode_table.json). -/
theorem test_decode_major_22 : decodesTo
    [(0x8ACCC4D8#32, .vaddF16 (.stage 3) true ⟨1, 6⟩ ⟨0, 12⟩ ⟨1, 9⟩),
     (0x8ACCC4D9#32, .vsubF16 (.stage 3) true ⟨1, 6⟩ ⟨0, 12⟩ ⟨1, 9⟩),
     (0x8ACCC4DA#32, .vmulF16 (.stage 3) true ⟨1, 6⟩ ⟨0, 12⟩ ⟨1, 9⟩),
     (0x8ACCC4DB#32, .vminF16 (.stage 3) true ⟨1, 6⟩ ⟨0, 12⟩ ⟨1, 9⟩),
     (0x8ACCC4DC#32, .vmaxF16 (.stage 3) true ⟨1, 6⟩ ⟨0, 12⟩ ⟨1, 9⟩),
     (0x8ACCC4DD#32, .vdivF16 (.stage 3) true ⟨1, 6⟩ ⟨0, 12⟩ ⟨1, 9⟩),
     (0x8ACCC4DE#32, .vfmaF16 (.stage 3) true ⟨1, 6⟩ ⟨0, 12⟩ ⟨1, 9⟩),
     (0x8ACCC4DF#32, .vfmsF16 (.stage 3) true ⟨1, 6⟩ ⟨0, 12⟩ ⟨1, 9⟩)] := rfl

/-- Words of major 0x23, written from the encodings of R249 to R255 (spec/opcode_table.json). -/
theorem test_decode_major_23 : decodesTo
    [(0x8ECCC4D8#32, .vfnmaF16 (.stage 3) true ⟨1, 6⟩ ⟨0, 12⟩ ⟨1, 9⟩),
     (0x8ECCC049#32, .vabsF16 (.stage 3) true ⟨1, 6⟩ ⟨0, 12⟩),
     (0x8ECCC04A#32, .vnegF16 (.stage 3) true ⟨1, 6⟩ ⟨0, 12⟩),
     (0x8ECCC04B#32, .vsqrtF16 (.stage 3) true ⟨1, 6⟩ ⟨0, 12⟩),
     (0x8ECCC04C#32, .vrsqrtF16 (.stage 3) true ⟨1, 6⟩ ⟨0, 12⟩),
     (0x8ECCC04D#32, .vexp2F16 (.stage 3) true ⟨1, 6⟩ ⟨0, 12⟩),
     (0x8ECCC04E#32, .vlog2F16 (.stage 3) true ⟨1, 6⟩ ⟨0, 12⟩)] := rfl

/-- Words of major 0x24, written from the encodings of R249 to R255 (spec/opcode_table.json). -/
theorem test_decode_major_24 : decodesTo
    [(0x92CCC4D8#32, .vaddBf16 (.stage 3) true ⟨1, 6⟩ ⟨0, 12⟩ ⟨1, 9⟩),
     (0x92CCC4D9#32, .vsubBf16 (.stage 3) true ⟨1, 6⟩ ⟨0, 12⟩ ⟨1, 9⟩),
     (0x92CCC4DA#32, .vmulBf16 (.stage 3) true ⟨1, 6⟩ ⟨0, 12⟩ ⟨1, 9⟩),
     (0x92CCC4DB#32, .vminBf16 (.stage 3) true ⟨1, 6⟩ ⟨0, 12⟩ ⟨1, 9⟩),
     (0x92CCC4DC#32, .vmaxBf16 (.stage 3) true ⟨1, 6⟩ ⟨0, 12⟩ ⟨1, 9⟩),
     (0x92CCC4DD#32, .vdivBf16 (.stage 3) true ⟨1, 6⟩ ⟨0, 12⟩ ⟨1, 9⟩),
     (0x92CCC4DE#32, .vfmaBf16 (.stage 3) true ⟨1, 6⟩ ⟨0, 12⟩ ⟨1, 9⟩),
     (0x92CCC4DF#32, .vfmsBf16 (.stage 3) true ⟨1, 6⟩ ⟨0, 12⟩ ⟨1, 9⟩)] := rfl

/-- Words of major 0x25, written from the encodings of R249 to R255 (spec/opcode_table.json). -/
theorem test_decode_major_25 : decodesTo
    [(0x96CCC4D8#32, .vfnmaBf16 (.stage 3) true ⟨1, 6⟩ ⟨0, 12⟩ ⟨1, 9⟩),
     (0x96CCC049#32, .vabsBf16 (.stage 3) true ⟨1, 6⟩ ⟨0, 12⟩),
     (0x96CCC04A#32, .vnegBf16 (.stage 3) true ⟨1, 6⟩ ⟨0, 12⟩),
     (0x96CCC04B#32, .vsqrtBf16 (.stage 3) true ⟨1, 6⟩ ⟨0, 12⟩),
     (0x96CCC04C#32, .vrsqrtBf16 (.stage 3) true ⟨1, 6⟩ ⟨0, 12⟩),
     (0x96CCC04D#32, .vexp2Bf16 (.stage 3) true ⟨1, 6⟩ ⟨0, 12⟩),
     (0x96CCC04E#32, .vlog2Bf16 (.stage 3) true ⟨1, 6⟩ ⟨0, 12⟩)] := rfl

/-- Words of major 0x26, written from the encodings of R249 to R255 (spec/opcode_table.json). -/
theorem test_decode_major_26 : decodesTo
    [(0x9ACCC4D8#32, .vaddI32 (.stage 3) true ⟨1, 6⟩ ⟨0, 12⟩ ⟨1, 9⟩),
     (0x9ACCC4D9#32, .vsubI32 (.stage 3) true ⟨1, 6⟩ ⟨0, 12⟩ ⟨1, 9⟩),
     (0x9ACCC4DA#32, .vmulI32 (.stage 3) true ⟨1, 6⟩ ⟨0, 12⟩ ⟨1, 9⟩),
     (0x9ACCC4DB#32, .vminI32 (.stage 3) true ⟨1, 6⟩ ⟨0, 12⟩ ⟨1, 9⟩),
     (0x9ACCC4DC#32, .vmaxI32 (.stage 3) true ⟨1, 6⟩ ⟨0, 12⟩ ⟨1, 9⟩),
     (0x9ACCC4DD#32, .vminN32 (.stage 3) true ⟨1, 6⟩ ⟨0, 12⟩ ⟨1, 9⟩),
     (0x9ACCC4DE#32, .vmaxN32 (.stage 3) true ⟨1, 6⟩ ⟨0, 12⟩ ⟨1, 9⟩),
     (0x9ACCC04F#32, .vabsI32 (.stage 3) true ⟨1, 6⟩ ⟨0, 12⟩)] := rfl

/-- Words of major 0x27, written from the encodings of R249 to R255 (spec/opcode_table.json). -/
theorem test_decode_major_27 : decodesTo
    [(0x9ECCC4D8#32, .vaddI64 (.stage 3) true ⟨1, 6⟩ ⟨0, 12⟩ ⟨1, 9⟩),
     (0x9ECCC4D9#32, .vsubI64 (.stage 3) true ⟨1, 6⟩ ⟨0, 12⟩ ⟨1, 9⟩),
     (0x9ECCC4DA#32, .vmulI64 (.stage 3) true ⟨1, 6⟩ ⟨0, 12⟩ ⟨1, 9⟩),
     (0x9ECCC4DB#32, .vminI64 (.stage 3) true ⟨1, 6⟩ ⟨0, 12⟩ ⟨1, 9⟩),
     (0x9ECCC4DC#32, .vmaxI64 (.stage 3) true ⟨1, 6⟩ ⟨0, 12⟩ ⟨1, 9⟩),
     (0x9ECCC4DD#32, .vminN64 (.stage 3) true ⟨1, 6⟩ ⟨0, 12⟩ ⟨1, 9⟩),
     (0x9ECCC4DE#32, .vmaxN64 (.stage 3) true ⟨1, 6⟩ ⟨0, 12⟩ ⟨1, 9⟩),
     (0x9ECCC04F#32, .vabsI64 (.stage 3) true ⟨1, 6⟩ ⟨0, 12⟩)] := rfl

/-- Words of major 0x28, written from the encodings of R249 to R255 (spec/opcode_table.json). -/
theorem test_decode_major_28 : decodesTo
    [(0xA2CCC048#32, .vnegI32 (.stage 3) true ⟨1, 6⟩ ⟨0, 12⟩),
     (0xA2CCC4D9#32, .vshlI32 (.stage 3) true ⟨1, 6⟩ ⟨0, 12⟩ ⟨1, 9⟩),
     (0xA2CCC4DA#32, .vshrI32 (.stage 3) true ⟨1, 6⟩ ⟨0, 12⟩ ⟨1, 9⟩),
     (0xA2CCC4DB#32, .vshrN32 (.stage 3) true ⟨1, 6⟩ ⟨0, 12⟩ ⟨1, 9⟩),
     (0xA2CCC04C#32, .vnegI64 (.stage 3) true ⟨1, 6⟩ ⟨0, 12⟩),
     (0xA2CCC4DD#32, .vshlI64 (.stage 3) true ⟨1, 6⟩ ⟨0, 12⟩ ⟨1, 9⟩),
     (0xA2CCC4DE#32, .vshrI64 (.stage 3) true ⟨1, 6⟩ ⟨0, 12⟩ ⟨1, 9⟩),
     (0xA2CCC4DF#32, .vshrN64 (.stage 3) true ⟨1, 6⟩ ⟨0, 12⟩ ⟨1, 9⟩)] := rfl

/-- Words of major 0x29, written from the encodings of R249 to R255 (spec/opcode_table.json). -/
theorem test_decode_major_29 : decodesTo
    [(0xA6CCC4D8#32, .vand (.stage 3) true ⟨1, 6⟩ ⟨0, 12⟩ ⟨1, 9⟩),
     (0xA6CCC4D9#32, .vor (.stage 3) true ⟨1, 6⟩ ⟨0, 12⟩ ⟨1, 9⟩),
     (0xA6CCC4DA#32, .vxor (.stage 3) true ⟨1, 6⟩ ⟨0, 12⟩ ⟨1, 9⟩),
     (0xA6CCC04B#32, .vnot (.stage 3) true ⟨1, 6⟩ ⟨0, 12⟩),
     (0xA6CCC04C#32, .vmov (.stage 3) true ⟨1, 6⟩ ⟨0, 12⟩),
     (0xA6CCC4DD#32, .vperm (.stage 3) true ⟨1, 6⟩ ⟨0, 12⟩ ⟨1, 9⟩),
     (0xA6CCC4DE#32, .vshuf (.stage 3) true ⟨1, 6⟩ ⟨0, 12⟩ ⟨1, 9⟩),
     (0xA6CCC047#32, .vbcast (.stage 3) ⟨1, 6⟩ 12)] := rfl

/-- Words of major 0x2A, written from the encodings of R249 to R255 (spec/opcode_table.json). -/
theorem test_decode_major_2a : decodesTo
    [(0xA94CC4D8#32, .vsel true ⟨1, 6⟩ ⟨0, 12⟩ ⟨1, 9⟩ 5)] := rfl

/-- Words of major 0x2B, written from the encodings of R249 to R255 (spec/opcode_table.json). -/
theorem test_decode_major_2b : decodesTo
    [(0xAEEB12C3#32, .vcmp (.stage 3) .gt .f16 true 5 ⟨0, 12⟩ ⟨1, 9⟩)] := rfl

/-- Words of major 0x2C, written from the encodings of R249 to R255 (spec/opcode_table.json). -/
theorem test_decode_major_2c : decodesTo
    [(0xB2CCC240#32, .vredsum (.stage 3) .f16 true 6 ⟨0, 12⟩),
     (0xB2CCC248#32, .vredmax (.stage 3) .f16 true 6 ⟨0, 12⟩),
     (0xB2CCC250#32, .vredmin (.stage 3) .f16 true 6 ⟨0, 12⟩),
     (0xB2CCCA58#32, .vscan (.stage 3) .f16 true ⟨1, 6⟩ ⟨0, 12⟩),
     (0xB2CCCB60#32, .vhist (.stage 3) true ⟨1, 6⟩ ⟨0, 12⟩),
     (0xB2CCCA68#32, .vflip (.stage 3) .f16 true ⟨1, 6⟩ ⟨0, 12⟩)] := rfl

/-- Words of major 0x2D, written from the encodings of R249 to R255 (spec/opcode_table.json). -/
theorem test_decode_major_2d : decodesTo
    [(0xB6CCCA01#32, .vld (.stage 3) ⟨1, 6⟩ 12 513),
     (0xB6CCCE01#32, .vst (.stage 3) ⟨1, 6⟩ 12 513)] := rfl

/-- Words of major 0x2E, written from the encodings of R249 to R255 (spec/opcode_table.json). -/
theorem test_decode_major_2e : decodesTo
    [(0xBACCC4E8#32, .vldx (.stage 3) .i16 ⟨1, 6⟩ 12 ⟨1, 9⟩),
     (0xBACCC4E9#32, .vstx (.stage 3) .i16 ⟨1, 6⟩ 12 ⟨1, 9⟩),
     (0xBACCC04A#32, .vldb (.stage 3) .i16 ⟨1, 6⟩ 12)] := rfl

/-- Words of major 0x2F, written from the encodings of R249 to R255 (spec/opcode_table.json). -/
theorem test_decode_major_2f : decodesTo
    [(0xBECCC0C6#32, .vcvtNarrowFp (.stage 3) .e4m3 .rtz true ⟨1, 6⟩ ⟨0, 12⟩ 0)] := rfl

/-- Words of major 0x30, written from the encodings of R249 to R255 (spec/opcode_table.json). -/
theorem test_decode_major_30 : decodesTo
    [(0xC2CCC046#32, .vcvtNarrowInt (.stage 3) .i16 .rtz false ⟨1, 6⟩ ⟨0, 12⟩ 0)] := rfl

/-- Words of major 0x31, written from the encodings of R249 to R255 (spec/opcode_table.json). -/
theorem test_decode_major_31 : decodesTo
    [(0xC6CCCB90#32, .vcvtWiden (.stage 3) .i32 .rtz ⟨1, 6⟩ ⟨0, 12⟩)] := rfl

/-- Words of major 0x32, written from the encodings of R249 to R255 (spec/opcode_table.json). -/
theorem test_decode_major_32 : decodesTo
    [(0xCACCC840#32, .vcvtFxToFx128 (.stage 3) .rtz ⟨1, 6⟩ ⟨0, 12⟩),
     (0xCACCCA00#32, .vcvtFxFromFx128 (.stage 3) ⟨1, 6⟩ ⟨0, 12⟩)] := rfl

/-- Words of major 0x33, written from the encodings of R249 to R255 (spec/opcode_table.json). -/
theorem test_decode_major_33 : decodesTo
    [(0xCECCC8A9#32, .vqMx (.stage 3) .mx64e5m2 .rtz 6 ⟨0, 12⟩ 17)] := rfl

/-- Words of major 0x34, written from the encodings of R249 to R255 (spec/opcode_table.json). -/
theorem test_decode_major_34 : decodesTo
    [(0xD2CCC8E8#32, .vdqMx (.stage 3) .mx64e5m2 ⟨1, 6⟩ 12 17)] := rfl

/-- Words of major 0x35, written from the encodings of R249 to R255 (spec/opcode_table.json). -/
theorem test_decode_major_35 : decodesTo
    [(0xD6164002#32, .tload 33 12 16386)] := rfl

/-- Words of major 0x36, written from the encodings of R249 to R255 (spec/opcode_table.json). -/
theorem test_decode_major_36 : decodesTo
    [(0xDA198003#32, .tx 33 9 32771)] := rfl

/-- Words of major 0x37, written from the encodings of R249 to R255 (spec/opcode_table.json). -/
theorem test_decode_major_37 : decodesTo
    [(0xDE196000#32, .tgang 33 9 12)] := rfl

/-- Words of major 0x38, written from the encodings of R249 to R255 (spec/opcode_table.json). -/
theorem test_decode_major_38 : decodesTo
    [(0xE00C4800#32, .tfetch 12 9),
     (0xE00C4801#32, .tstream 12 9),
     (0xE00C4802#32, .tgather 12 9),
     (0xE00C4803#32, .tdrain 12 9),
     (0xE00C4804#32, .tred 12 9)] := rfl

/-- Words of major 0x39, written from the encodings of R249 to R255 (spec/opcode_table.json). -/
theorem test_decode_major_39 : decodesTo
    [(0xE4CC0000#32, .prowGet 6 12),
     (0xE40C4801#32, .prowSet 12 9),
     (0xE40C4802#32, .prowClr 12 9)] := rfl

/-- Words of major 0x3A, written from the encodings of R249 to R255 (spec/opcode_table.json). -/
theorem test_decode_major_3a : decodesTo
    [(0xE8000000#32, .xsync),
     (0xE80C4801#32, .xsend 12 9),
     (0xE80C0002#32, .xmux 12),
     (0xE80C4803#32, .xrecv 12 9),
     (0xE8CC0004#32, .xvote 6 12),
     (0xE80C4805#32, .xred 12 9),
     (0xE8CC0006#32, .xdom 6 12),
     (0xE80C4807#32, .xarmAt 12 9),
     (0xE8CC0008#32, .wtake 6 12)] := rfl

/-! ### Witnesses: scalar instructions, transfers, loops and control registers -/

/-- `RegisterResults`: a guard that is on and one that is off, and a division by zero. -/
theorem witness_RegisterResults : GuardOn onSlot0 (.pred 0) ∧ ¬ GuardOn onSlot0 (.stage 3) ∧ onSlot0.rg onSlot0.cur 3 = 0 := by
  unfold GuardOn; decide

/-- `ImmediateResults`: the widest field, and a field that ends at bit 63. -/
theorem witness_ImmediateResults : (0#6).toNat + (63#6).toNat + 1 ≤ 64 ∧ (63#6).toNat + (0#6).toNat + 1 ≤ 64 := by decide

/-- `ScalarFrame`: `add` answers a next state. -/
theorem witness_ScalarFrame : Instr.add (.pred 0) 4 1 5 ∈ registerInstrs (.pred 0) 4 1 5 .eq 0 ∧
    ∃ t, exec (.add (.pred 0) 4 1 5) onSlot0 = .next t := ⟨by simp [registerInstrs, registerResults], _, rfl⟩

/-- `Transfers`: register targets that are aligned. -/
theorem witness_Transfers : (onSlot0.rg onSlot0.cur 7).toNat % 4 = 0 ∧ (onSlot0.rg onSlot0.cur 31#5).toNat % 4 = 0 := by decide

/-- Registers in level 0, of a body of two instructions from offset 4, at its last instruction, in pass `n` from the end. -/
def inLoop (n : Nat) : Hart :=
  { Hart.reset with pc := 8, lv := #v[{ Level.zero with act := true, cnt := BitVec.ofNat 64 n, beg := 4, fin := 12 }, Level.zero, Level.zero, Level.zero] }

/-- `Loops`: entry to level 0, in both forms, with and without an allotment. -/
theorem witness_Loops_entry : MayEnter (me onSlot0) 0 false 1 ∧ MayEnter { me onSlot0 with qa := 8 } 0 true 1 := by
  unfold MayEnter; decide

/-- `Loops`: the end of a pass, with another pass to come and with none. -/
theorem witness_Loops_pass : ∀ n ∈ [1, 2], (inLoop n).innermostHere = some 0 ∧ ((inLoop n).level 0).fin = (inLoop n).pc + 4
    ∧ ((inLoop n).level 0).rot = false ∧ (∀ j < 4, ((inLoop n).level j).act = true → ((inLoop n).level j).rot = false)
    ∧ (∀ j, j + 1 = 0 → ¬ (((inLoop n).level j).act = true ∧ ((inLoop n).level j).lcd = (inLoop n).cdep ∧ ((inLoop n).level j).fin = ((inLoop n).level 0).fin)) := by
  intro n hn
  have : n = 1 ∨ n = 2 := by simpa using hn
  rcases this with rfl | rfl <;> refine ⟨by decide, by decide, by decide, by decide, fun j h => by omega⟩

/-- `LoopControl`: a level that is active here, and one that is not. -/
theorem witness_LoopControl : Here (me (withHart onSlot0 (inLoop 2))) 0 ∧ ¬ Here (me onSlot0) 0 := by unfold Here; decide

/-- `Allotment`: the largest runs of a slot with 64 registers in its core, of a slot with none free, and of a tile. -/
theorem witness_Allotment : NoRotation (me onSlot0) ∧ (me onSlot0).qa = 0 ∧ NoRotation (me onTile3) ∧ (me onTile3).qa = 0 := by
  unfold NoRotation; decide

/-- Core 0 with one granule of rotating registers. -/
def withRot : State := onSlot0.setCore 0 { onSlot0.core 0 with part := 0x8000000002000041 }

/-- `Allotment`: 64 registers are free from 0, and 65 are not free. -/
theorem witness_Allotment_free : FreeRun withRot 0 64 0 ∧ (∀ b' < 0, ¬ FreeRun withRot 0 64 b') ∧ ∀ b, ¬ FreeRun withRot 0 65 b := by
  refine ⟨by unfold FreeRun; decide, by omega, fun b h => ?_⟩
  have h1 := h.1
  have : bitsAt (withRot.core 0).part 6 4 * 64 = 64 := by decide
  omega

/-- Slot 0 with traps enabled and the handler at offset 0x100. -/
def trapReady : State := onSlot0.setSlot 0 { onSlot0.slot 0 with h := { (onSlot0.slot 0).h with cause := 0x8000000000000000#64 ||| 0x100#64 <<< 42 } }

/-- `TrapsAndReturns`, `FaultEntries`: a handler that may be entered. -/
theorem witness_TrapsEnter : trapReady.cur = .slot 0 ∧ trapReady.Canonical ∧ Enterable trapReady 0 ∧ Unread trapReady 0 (framePlace trapReady 0) := by
  refine ⟨by decide, by unfold State.Canonical; decide, by unfold Enterable; decide, unread_of _ _ (by decide)⟩

/-- Slot 0 in its trap handler. -/
def inHandler : State := trapReady.setSlot 0 { trapReady.slot 0 with h := { (trapReady.slot 0).h with cause := (trapReady.slot 0).h.cause ||| 1#64 <<< 62, epc := 0x40 } }

/-- `TrapsAndReturns`: a return from the trap handler, and one outside any handler. -/
theorem witness_TrapReturn : bitsAt (inHandler.slot 0).h.cause 62 1 = 1 ∧ bitsAt (onSlot0.slot 0).h.cause 62 1 = 0
    ∧ uihACT (onSlot0.slot 0).uih = false ∧ next (exec .eret inHandler) (fun t => (t.slot 0).h.pc == 0x40) = true := by decide

/-- `FaultEntries`: escalation with TEN = 0, and in a handler. -/
theorem witness_FaultEntries : ∀ s ∈ [onSlot0, inHandler], (s.slot 0).preload = none
    ∧ (bitsAt (s.slot 0).h.cause 63 1 = 0 ∨ bitsAt (s.slot 0).h.cause 62 1 = 1) ∧ (s.core (coreOf 0)).lid = some 1
    ∧ (((s.raiseFault (.slot 0) { cause := 0x01 }).slot 0).wait == .stopped) = true := by
  intro s hs
  have : s = onSlot0 ∨ s = inHandler := by simpa using hs
  rcases this with rfl | rfl <;> decide

/-- `ControlRegisters`: listed numbers at both ends of their ranges, an unlisted one between, and a tile whose flags are settled. -/
theorem witness_ControlRegisters : (0#10).toNat ≤ 0x11 ∧ (0x11#10).toNat ≤ 0x11 ∧ (0x20 ≤ (0x20#10).toNat ∧ (0x20#10).toNat ≤ 0x2F)
    ∧ ¬ ((0x12#10).toNat ≤ 0x11 ∨ 0x20 ≤ (0x12#10).toNat ∧ (0x12#10).toNat ≤ 0x2F) ∧ (onTile3.tile 3).flagsPending = false := by decide

/-- `LoopRegisterWrites`: the numbers at the ends of the range. -/
theorem witness_LoopRegisterWrites : 0x20 ≤ (0x20#10).toNat ∧ (0x2F#10).toNat ≤ 0x2F := by decide

/-- `RoundedOnce`: a value that rounds to the largest E4M3 number, and the least that overflows; FP32 operands of a division and of a square root. The results are those of R103,
R113 and R114: 464 lies halfway between 448 and the step beyond it, and 1/3 in FP32 is 0x3EAA_AAAB. -/
theorem witness_RoundedOnce : FineUnits (-200) 0 ∧ ¬ Exceeds .e4m3 .rne (-200) (inUnits (-200) (.fin false 464 0)) ∧ Exceeds .e4m3 .rne (-200) (inUnits (-200) (.fin false 465 0))
    ∧ ((Fmt.e4m3.convert .rne false (.fin false 464 0)).code = 0x7E ∧ (Fmt.e4m3.convert .rne false (.fin false 464 0)).nst = 2)
    ∧ ((Fmt.e4m3.convert .rne false (.fin false 465 0)).code = 0x7F ∧ (Fmt.e4m3.convert .rne false (.fin false 465 0)).nst = 0x0A)
    ∧ (Fmt.fp32.decode 0x3F800000 = .fin false 0x800000 (-23) ∧ Fmt.fp32.decode 0x40400000 = .fin false 0xC00000 (-22) ∧ FineUnits (-200) (-23 - -22))
    ∧ ((fdiv .fp32 (Fmt.fp32.decode 0x3F800000) (Fmt.fp32.decode 0x40400000)).1 = 0x3EAAAAAB ∧ (fsqrt .fp32 (Fmt.fp32.decode 0x40800000)).1 = 0x40000000
        ∧ (frsqrt .fp32 (Fmt.fp32.decode 0x40800000)).1 = 0x3F000000 ∧ (2 * (-200) ≤ (-21 : Int) ∧ 2 * (-200) ≤ -(-21 : Int)))
    ∧ (fpToInt 8 .rne (.fin true 257 (-1))).1 = -128 ∧ (fpToInt 8 .rne (.fin true 259 (-1))).2.getLsbD 4 = true := by
  unfold FineUnits Exceeds; decide +kernel

/-! ### Witnesses: memory instructions -/

/-- Slot 0 of core 0, with `g5` at an offset of its own scratch. -/
def ownAt (off : Nat) : State := setg onSlot0 5 (0x007F000000000000 + off)

/-- The last eight bytes of the core's own palette. -/
def lastWord : Dest := { place := .palette 0 true, pa := 0x20000003FFF8, page := none, sld := false }

/-- `LoadResults`: the last word of the core's scratch is read, its first byte 0x80. -/
theorem witness_LoadResults_slot : GuardOn (ownAt 0x3FFF0) (.pred 0) ∧ Readable (ownAt 0x3FFF0) 0 (accessAddr (ownAt 0x3FFF0) 5 8 1) 8 lastWord := by
  refine ⟨by unfold GuardOn; decide, readable_of (by decide)⟩

/-- A tile's own memory, with `g5` at an offset. -/
def tileAt (off : Nat) : State := setg onTile3 5 (0x007F000000000000 + off)

/-- `LoadResults`, `StoreResults`: the last bytes of a tile's memory, and the first above its code. -/
theorem witness_LoadResults_tile : TileServed (tileAt 0x4FFFF0) 3 (accessAddr (tileAt 0x4FFFF0) 5 8 1) 8 false 0x4FFFF8 ∧
    TileServed (tileAt 0x100) 3 (accessAddr (tileAt 0x100) 5 8 0) 8 true 0x100 ∧ (tileAt 0x4FFFF0).tmMarked 3 0x4FFFF8 8 = false := by
  unfold TileServed; decide

/-- The first word of the page at 0x40000000, in HBM. -/
def hbmWord : Dest := { place := .slice, pa := 0x20000004, page := some { va := 0x40000000, bits := 29, asid := 0x11, glob := false }, sld := false }

/-- `StoreResults`: a store to HBM through a translation, in a task that is not speculative. -/
theorem witness_StoreResults : Served (setg onSlot0 5 0x40000000) 0 (accessAddr (setg onSlot0 5 0x40000000) 5 4 1) 4 .write hbmWord
    ∧ (setg onSlot0 5 0x40000000).Canonical ∧ NoSpeculation (setg onSlot0 5 0x40000000) := by
  refine ⟨served_of (by decide), by unfold State.Canonical; decide,
    noSpeculation_of (by decide)⟩

/-- A store to HBM completes. -/
theorem test_store_completes : next (exec (.stW (.pred 0) 4 5 1) (setg (setg onSlot0 5 0x40000000) 4 0xDEADBEEF))
    (fun t => memNat t.mem 0x20000004 4 == 0xDEADBEEF && (t.slot 0).h.pc == 4) = true := by decide

/-- `MisalignedFaults`: an address one above a multiple, and a register target two above one. -/
theorem witness_MisalignedFaults : accessAddr (ownAt 0x20001) 5 8 0 % 8 ≠ 0 ∧ ((setg onSlot0 7 2).rg (setg onSlot0 7 2).cur 7).toNat % 4 ≠ 0
    ∧ ((setg onSlot0 31 1).rg (setg onSlot0 31 1).cur 31#5).toNat % 4 ≠ 0 := by decide

/-- A word of the core's own scratch. -/
def ownWord : Dest := { place := .palette 0 true, pa := 0x200000020000, page := none, sld := false }

/-- `OrderedAndAtomic`: an acquire of the core's own scratch, and a write and an atomic that are served there. -/
theorem witness_OrderedAndAtomic : Readable (ownAt 0x20000) 0 ((ownAt 0x20000).rg (ownAt 0x20000).cur 5).toNat 8 ownWord
    ∧ Served (ownAt 0x20000) 0 ((ownAt 0x20000).rg (ownAt 0x20000).cur 5).toNat 8 .write ownWord
    ∧ Served (ownAt 0x20000) 0 ((ownAt 0x20000).rg (ownAt 0x20000).cur 5).toNat 16 .atomic ownWord ∧ (ownAt 0x20000).marked ownWord.pa 16 = false := by
  refine ⟨readable_of (by decide),
    served_of (by decide),
    served_of (by decide), by decide⟩

/-- A range of one granule below the window, and its length one short. -/
def sealing (len : Nat) : State := setg (setg onSlot0 5 (0x007F000000000000 - 0x10000)) 6 len

/-- `SealRequests`: the highest range that a seal may have, and one that is malformed. -/
theorem witness_SealRequests : SealRange 0x007EFFFFFFFF0000 0x10000 ∧ ¬ SealRange 0x007EFFFFFFFF0000 0xFFFF
    ∧ (sealing 0x10000).seals = [] ∧ (sealing 0x10000).invals = [] ∧ next (exec (.seal 4 5 6) (sealing 0x10000)) (fun t => (t.slot 0).wait == .inval 0 0 0) = true
    ∧ next (exec (.seal 4 5 6) (sealing 0xFFFF)) (fun t => t.rg (.slot 0) 4 == 3) = true := by
  unfold SealRange; decide

/-- A state with one seal entry of the ASID of launch 1. -/
def sealed : State := { sealing 0x10000 with seals := [{ asid := (sealing 0x10000).asidOf 0, base := 0x007EFFFFFFFF0000, len := 0x10000, unsealing := false, lid := 1 }] }

/-- `SealRequests`: the entry that an `unseal` names. -/
theorem witness_SealRequests_unseal : (∀ x ∈ sealed.seals, x.asid = sealed.asidOf (coreOf 0) ∧ x.base = (sealed.rg sealed.cur 5).toNat
    ∧ x.len = (sealed.rg sealed.cur 6).toNat) ∧ next (exec (.unseal 4 5 6) sealed) (fun t => (t.slot 0).wait == .inval 0 0 0) = true
    ∧ next (exec (.unseal 4 5 6) { sealed with seals := sealed.seals.map (fun x => { x with unsealing := true }) }) (fun t => (t.slot 0).wait == .inval 0 0 0) = true := by decide

/-! ### Witnesses: tasks, waits and sync words -/

/-- The record of a task with pc 0x40 in domain 0. -/
def rec1 : TaskRec :=
  { ts := 0, dom := 0, lc := false, pc := 0x40, tid := 7, budget := 0, args := #v[1, 2, 3, 4], lnk := false, cser := 0, ccore := 0 }

/-- Slot 0 runs that task. -/
def task0 : State := onSlot0.setSlot 0 { onSlot0.slot 0 with task := some rec1 }

/-- Slot 0 runs a speculative task. -/
def spec0 : State := task0.setSlot 0 { task0.slot 0 with spec := .speculative }

/-- Slot 0 in an inline child that was created for `g9`. -/
def child0 : State := task0.setSlot 0 { task0.slot 0 with inl := [(9, 2)], h := { (task0.slot 0).h with ild := 1, cdep := 1 } }

/-- A core holds in its replica region the first line of a sealed range, with bytes that memory no longer has (R41, R159). -/
def replicated : State :=
  { (setg onSlot0 5 0x40000000).setCore 0 { (setg onSlot0 5 0x40000000).core 0 with reps := [⟨0x11, 0x1000000, (List.range 64).map (BitVec.ofNat 8)⟩] } with
    seals := [{ asid := 0x11, base := 0x40000000, len := 0x10000, unsealing := false, lid := 1 }] }

/-- `LoadResults`: a load that the replica region serves gives the replica's bytes. -/
theorem witness_ReplicaHit : ReplicaHit replicated 0 (accessAddr replicated 5 4 1) 4 ⟨0x11, 0x1000000, (List.range 64).map (BitVec.ofNat 8)⟩
    ∧ next (exec (.ldN32 (.pred 0) 4 5 1) replicated) (fun t => t.rg (.slot 0) 4 == 0x07060504) = true := by
  refine ⟨⟨by decide, by decide, by decide, { place := .slice, pa := 0x20000004, page := hbmWord.page, sld := true }, { va := 0x40000000, bits := 29, asid := 0x11, glob := false },
    { asid := 0x11, base := 0x40000000, len := 0x10000, unsealing := false, lid := 1 }, aim_of (by decide), by decide, by decide, by decide, by decide, by decide, by decide, by decide, by decide,
    by decide, by decide⟩, by decide⟩

/-- A speculative task has stored one byte at 0x20000005; its core gives each slot `m` blocks of the commit buffer. -/
def buffering (m : Nat) : State :=
  let s := setg (setg spec0 5 0x40000000) 4 0xDEADBEEF
  (s.setSlot 0 { s.slot 0 with buf := [.store 0x20000005 [some 0x77] none] }).setCore 0 { s.core 0 with part := 0x8000000002000001#64 ||| BitVec.ofNat 64 (m * 1024) }

/-- The effects that the buffer holds once a word is stored beside it. -/
def twoStores : List BufOp := [.store 0x20000005 [some 0x77] none, .store 0x20000004 ((bytesOfNat 4 0xDEADBEEF).map some) hbmWord.page]

/-- `LoadResults`, `StoreResults`: a speculative load over a buffered byte, a store that the buffer's share holds, and one that it does not. -/
theorem witness_Speculates : (∀ k ∈ [Kind.read, .write], Speculates (buffering 1) 0 (accessAddr (buffering 1) 5 4 1) 4 k hbmWord)
    ∧ ((buffering 1).answer (.agent (.slot 0)) hbmWord 4 false = .serve ∧ BanksFree (buffering 1) 0 hbmWord.pa 4
        ∧ (buffering 1).openReq (.agent (.slot 0)) hbmWord.pa = none ∧ (buffering 1).inReplica hbmWord = false ∧ (buffering 1).marked hbmWord.pa 4 = false)
    ∧ next (exec (.ldN32 (.pred 0) 6 5 1) (buffering 1)) (fun t => t.rg (.slot 0) 6 == 0x00007700 && (t.slot 0).sigHit 0x800000) = true
    ∧ (Entries twoStores 1 ∧ 1 ≤ bufferShare (buffering 1) 0 ∧ bufferShare (buffering 0) 0 < 1)
    ∧ next (exec (.stW (.pred 0) 4 5 1) (buffering 1)) (fun t => (t.slot 0).buf == twoStores && t.mem == (buffering 1).mem) = true
    ∧ next (exec (.stW (.pred 0) 4 5 1) (buffering 0)) (fun t => (t.slot 0).wait == .commit) = true := by
  refine ⟨fun k hk => ?_, ⟨by decide, by unfold BanksFree; decide, by decide, by decide, by decide⟩, by decide +kernel, ⟨?_, by decide, by decide⟩, by decide, by decide⟩
  · have : k = .read ∨ k = .write := by simpa using hk
    rcases this with rfl | rfl <;> exact ⟨by decide, by decide, by decide, by decide, aim_of (by decide), by decide⟩
  · refine ⟨[0x1000000], by decide, fun b => ⟨fun h => ?_, ?_⟩, by decide⟩
    · obtain rfl : b = 0x1000000 := by simpa using h
      exact ⟨_, List.mem_cons_self, _, _, _, rfl, 0, by decide, by decide, by decide⟩
    · rintro ⟨o, ho, pa, bs, page, rfl, k, hk, -, rfl⟩
      simp only [twoStores, List.mem_cons, List.not_mem_nil, or_false, BufOp.store.injEq] at ho
      rcases ho with ⟨rfl, rfl, -⟩ | ⟨rfl, rfl, -⟩
      · simp only [List.length_cons, List.length_nil] at hk; simp only [List.mem_singleton]; omega
      · have : k < 4 := hk
        simp only [List.mem_singleton]; omega

/-- Slot 0 stores to HBM, where slot 1's speculative task, which has begun `n` times over, has read. -/
def reader (n : Nat) : State :=
  let s := setg onSlot0 5 0x40000000
  { s with slots := s.slots ++ [(1, ({ Slot.reset with st := .waiting, wait := .commit, task := some rec1, spec := .speculative, aborts := n, buf := twoStores } : Slot).record (0x20000004 / 64))] }

/-- `StoreResults`: a store aborts a speculative task that has read its block, before the 16th abort and at it. -/
theorem witness_aborts : ∀ n ∈ [14, 15], Served (reader n) 0 (accessAddr (reader n) 5 4 1) 4 .write hbmWord ∧ (reader n).Canonical ∧ NoLinks (reader n)
    ∧ ((reader n).slot 1).task = some rec1 ∧ ((reader n).slot 1).spec = .speculative ∧ ((reader n).slot 1).undo = none
    ∧ ((reader n).slot 1).sigHit (hbmWord.pa / 64) = true
    ∧ next (exec (.stW (.pred 0) 4 5 1) (reader n)) (fun t => (t.slot 1).aborts == n + 1 && (t.slot 1).buf == [] && (t.slot 1).st == if n == 14 then .running else .waiting) = true := by
  intro n hn
  have : n = 14 ∨ n = 15 := by simpa using hn
  have hl : ∀ m, (∀ p ∈ (reader m).slots, p.2.task.all (fun r => !r.lnk) = true) → NoLinks (reader m) := fun m h j r e => by
    have := slots_of (s := reader m) (P := fun _ x => x.task.all (fun r => !r.lnk) = true) h (fun _ => by decide) j
    simpa [e] using this
  rcases this with rfl | rfl <;> exact ⟨served_of (by decide +kernel), by unfold State.Canonical; decide, hl _ (by decide +kernel), by decide +kernel, by decide +kernel, by decide +kernel,
    by decide +kernel, by decide +kernel⟩

/-- `TaskEnd`: a tile, a task that retires, a speculative one, and an inline child. -/
theorem witness_TaskEnd : onTile3.cur = .tile 3 ∧ ((task0.slot 0).h.ild = 0 ∧ (task0.slot 0).spec ≠ .speculative)
    ∧ ((spec0.slot 0).h.ild = 0 ∧ (spec0.slot 0).spec = .speculative ∧ (spec0.slot 0).task.isSome)
    ∧ ((child0.slot 0).h.ild ≠ 0 ∧ (child0.rg child0.cur 31#5).toNat % 4 = 0 ∧ (child0.slot 0).inl = [(9, 2)])
    ∧ next (exec .tend onTile3) (fun t => (t.tile 3).ended) = true ∧ next (exec .tend task0) (fun t => (t.slot 0).st == .idle) = true
    ∧ next (exec .tend spec0) (fun t => (t.slot 0).st == .committing) = true ∧ next (exec .tend child0) (fun t => t.rg (.slot 0) 9 == 2) = true := by decide

/-- Slots 0 and 1 of core 0 are ready. -/
def two : State := { onSlot0 with slots := [(0, { Slot.reset with st := .running }), (1, { Slot.reset with st := .running })] }

/-- Slot 0 waits. -/
def waiting (w : Wait) : State := onSlot0.setSlot 0 { onSlot0.slot 0 with st := .waiting, wait := w }

/-- Slot 0 has sent an update that is not yet applied, and `g5` names a transaction barrier in HBM. -/
def owing : State := let s := setg (setg onSlot0 5 0x40000010) 6 0x100000001; s.setSlot 0 { s.slot 0 with out := 1 }

/-- `OrderedAndAtomic`, `TaskEnd`, `LaunchAndWindowInstructions`: the instructions that wait for an update. -/
theorem witness_updates : (owing.slot 0).out ≠ 0 ∧ (owing.slot 0).h.ild = 0 ∧ (owing.slot 0).spec ≠ .speculative
    ∧ ∀ j ∈ [Instr.fenceS .pkg, .stRel .pkg 5 6, .tend, .wpost 4 5, .xbarArr .pkg 5 6, .amoAdd .rel .pkg true 4 5 6, .amoAddf .ar .pkg 4 5 6], next (exec j owing) (fun t => (t.slot 0).wait == .updates) = true := by decide

/-- `YieldAndIdle`: an `idle` that a user interrupt and a phase of a sync word end. -/
theorem witness_idle : next (exec .idle onSlot0) (fun t => (t.slot 0).wait == .idle && t.timers.contains (4096, .idleTimeout 0)) = true
    ∧ (((waiting .idle).setSlot 0 { (waiting .idle).slot 0 with uih := 0x8000000000000040 }).slot 0).uiq.length < 8
    ∧ bitsAt (((waiting .idle).setSlot 0 { (waiting .idle).slot 0 with uih := 0x8000000000000040 }).slot 0).uih 63 1 = 1
    ∧ ((waiting .idle).slot 0).st = .waiting ∧ ((waiting .idle).slot 0).wait = .idle := by decide

/-- `YieldAndIdle`: alone, with another ready slot, and the timeouts of both waits. -/
theorem witness_YieldAndIdle : (∀ k, ¬ ReadyOther onSlot0 0 k) ∧ (∃ k, ReadyOther two 0 k)
    ∧ next (exec .tyield two) (fun t => (t.slot 0).wait == .yield [1]) = true
    ∧ next (exec .tyieldTimeout (onEvent (waiting (.yield [1])) (.tyieldTimeout 0))) (fun t => (t.slot 0).st == .running) = true
    ∧ next (exec .idleTimeout (onEvent (waiting .idle) (.idleTimeout 0))) (fun t => (t.slot 0).h.pc == 4) = true := by
  refine ⟨fun k h => ?_, ⟨1, by unfold ReadyOther; decide⟩, by decide, by decide, by decide⟩
  obtain ⟨h1, h2, h3⟩ := h
  have : k = 0 ∨ k = 1 ∨ k = 2 ∨ k = 3 := by omega
  rcases this with rfl | rfl | rfl | rfl <;> revert h2 h3 <;> decide

/-- `LoopAreas`: an area at the end of the core's scratch, which holds a loop state without a level. -/
theorem witness_LoopAreas : (ownAt 0x3FF80).cur = .slot 0 ∧ ((ownAt 0x3FF80).slot 0).spec ≠ .speculative ∧ (ownAt 0x3FF80).Canonical
    ∧ OwnFree (ownAt 0x3FF80) 0 ((ownAt 0x3FF80).palette (coreOf 0) + 0x3FF80) 128
    ∧ OwnScratch (ownAt 0x3FF80) 0 ((ownAt 0x3FF80).rg (ownAt 0x3FF80).cur 5).toNat 128 0x3FF80
    ∧ (ownAt 0x3FF80).marked ((ownAt 0x3FF80).palette (coreOf 0) + 0x3FF80) 128 = false := by
  unfold OwnScratch OwnFree BanksFree State.Canonical; decide

/-- `LoopAreas`: the area holds the words of a loop state, and `lrest` answers a next state. -/
theorem witness_LoopAreas_lrest : memBytes (ownAt 0x3FF80).mem ((ownAt 0x3FF80).palette (coreOf 0) + 0x3FF80) 128
      = ((loopWords Hart.reset).map (fun w => bytesOfNat 8 w.toNat)).flatten ∧ Hart.reset.qa = ((ownAt 0x3FF80).slot 0).h.qa
    ∧ next (exec (.lrest 5) (ownAt 0x3FF80)) (fun t => (t.slot 0).h.pc == 4) = true := by decide

/-! ### Witnesses: creates, sync words, barriers, copies, launches and system instructions -/

/-- A record of pc 0x40, TID 7 and arguments 1 to 4 at 0x3FFC0, the last place of the core's scratch; `g5` names it. -/
def withRecord : State :=
  { setg onSlot0 5 0x007F00000003FFC0 with mem := memPut [] 0x20000003FFC0 (([0x40, 7, 1, 2, 3, 4, 0, 0] : List Nat).flatMap (bytesOfNat 8)) }

/-- The place of the record. -/
def recPlace : Dest := { place := .palette 0 true, pa := 0x20000003FFC0, page := none, sld := false }

/-- `Creates`: a record that is read and passes its checks, with room in the deque. -/
theorem witness_Creates : RecordRead withRecord 0 (withRecord.rg withRecord.cur 5).toNat recPlace [0x40, 7, 1, 2, 3, 4, 0, 0]
    ∧ withRecord.recordFault 0 [0x40, 7, 1, 2, 3, 4, 0, 0] = none ∧ (withRecord.core (coreOf 0)).deque.length < 32
    ∧ bitsAt (withRecord.rg withRecord.cur 6) 36 28 = 0 ∧ withRecord.recordFault 0 (stamped [0x40, 7, 1, 2, 3, 4, 0, 0] (withRecord.rg withRecord.cur 6)) = none := by
  refine ⟨⟨readable_of (by decide), by decide⟩,
    by decide, by decide, by decide, by decide⟩

/-- `Creates`: `g6` names the word at the end of the core's scratch, whose generation is before that of `g7`. -/
def arming : State := setg (setg withRecord 6 0x007F00000003FFB0) 7 1

/-- `Creates`: a word that does not release its generation, in the core's own scratch. -/
theorem witness_Creates_sarm : OwnWord arming 0 (arming.rg arming.cur 6).toNat 0x3FFB0 ∧ 0x3FFB0 + 16 ≤ 0x40000
    ∧ ¬ Releases arming.mem (arming.palette (coreOf 0) + 0x3FFB0) (bitsAt (arming.rg arming.cur 7) 0 16)
    ∧ next (exec (.sarm 7 6 5) arming) (fun t => t.rg (.slot 0) 7 == 0 && (t.core 0).arms.length == 1) = true
    ∧ next (exec (.push 4 5) arming) (fun t => t.rg (.slot 0) 4 == 1 && (t.core 0).deque.length == 1) = true
    ∧ next (exec (.pushts 4 5 8) arming) (fun t => t.rg (.slot 0) 4 == 1) = true := by
  unfold OwnWord Releases; decide

/-- `g5` names the last sync word of the core's scratch, and `g6` holds an update of one byte, one arrival and no error. -/
def syncing : State := setg (setg onSlot0 5 0x007F00000003FFF0) 6 0x100000001

/-- `SyncInstructions`: a word of the core's own scratch, an update, and generations that are released and not. -/
theorem witness_SyncInstructions : syncing.cur = .slot 0 ∧ (syncing.slot 0).spec ≠ .speculative ∧ OwnWord syncing 0 (syncing.rg syncing.cur 5).toNat 0x3FFF0
    ∧ Update (syncing.rg syncing.cur 6) ∧ Releases syncing.mem (syncing.palette (coreOf 0) + 0x3FFF0) 0 ∧ ¬ Releases syncing.mem (syncing.palette (coreOf 0) + 0x3FFF0) 1
    ∧ next (exec (.swait 5 6) syncing) (fun t => (t.slot 0).wait == .sync 0x20000003FFF0) = true
    ∧ next (exec (.swait 5 7) syncing) (fun t => (t.slot 0).h.pc == 4) = true ∧ (syncing.slot 0).out = 0
    ∧ next (exec (.sadd .pkg 5 6) syncing) (fun t => (t.slot 0).out == 1) = true
    ∧ next (exec (.sadd .pkg 5 6) (syncing.setSlot 0 { syncing.slot 0 with out := 1 })) (fun t => (t.slot 0).wait == .updates) = true := by
  unfold OwnWord Releases Update; decide

/-- The place of a transaction barrier in HBM. -/
def txnPlace : Dest := { place := .slice, pa := 0x20000010, page := some { va := 0x40000000, bits := 29, asid := 0x11, glob := false }, sld := false }

/-- `g5` names a transaction barrier in HBM. -/
def atBarrier : State := setg (setg onSlot0 5 0x40000010) 6 0x100000001

/-- `SyncInstructions`: a transaction barrier that an arrival may update, and that may be read. -/
theorem witness_SyncInstructions_txn : TxnPlace atBarrier 0 (atBarrier.rg atBarrier.cur 5).toNat .atomic txnPlace ∧ txnPlace.sld = false
    ∧ Readable atBarrier 0 (atBarrier.rg atBarrier.cur 5).toNat 16 txnPlace ∧ inWindow (atBarrier.rg atBarrier.cur 5).toNat = false := by
  refine ⟨⟨rfl, by decide, by decide, by decide, rfl, by decide⟩, rfl, readable_of (by decide), by decide⟩

/-- `twait` completes on a released generation, and waits for the next. -/
theorem test_twait : next (exec (.twait 5 7) atBarrier) (fun t => (t.slot 0).h.pc == 4) = true
    ∧ next (exec (.twait 5 6) atBarrier) (fun t => (t.slot 0).st == .waiting) = true := by decide

/-- A core barrier pair of slot 0, with `g5` naming domain 1. -/
def paired (b : Nat) : State := setg (onSlot0.setSlot 0 { onSlot0.slot 0 with pair := some (1, b) }) 5 1

/-- `CoreBarriers`: a domain of the launch; pairs of a barrier that has been released and of one that has not, and no pair; and no domain. -/
theorem witness_CoreBarriers : CoreDomain (paired 3) 0 1 dom1 ∧ (paired 3).rg (paired 3).cur 5 = BitVec.ofNat 64 1 ∧ ((paired 3).slot 0).pair = some (1, 3) ∧ 3 < dom1.step
    ∧ ((paired 4).slot 0).pair = some (1, 4) ∧ dom1.step ≤ 4 ∧ (∀ x, ¬ CoreDomain onSlot0 0 63 x)
    ∧ next (exec (.barArr 5) (paired 3)) (fun t => (t.slot 0).pair == some (1, 4)) = true ∧ next (exec (.barWait 5) (paired 3)) (fun t => (t.slot 0).h.pc == 4) = true
    ∧ next (exec (.barWait 5) (paired 4)) (fun t => (t.slot 0).wait == .barrier 1 4) = true := by
  refine ⟨⟨rfl, by decide, by decide, by decide⟩, by decide, by decide, by decide, by decide, by decide, fun x h => ?_, by decide, by decide, by decide⟩
  have h1 := h.1
  have : onSlot0.domains.find 63 = none := by decide
  simp [this] at h1

/-- `g5` names a copy block of zeros, the last of the core's scratch. -/
def copying : State := ownAt 0x3FFC0

/-- `CopyInstructions`: a block that is read at once, without a sync word, and room in the copy unit. -/
theorem witness_CopyInstructions : BlockRead copying 0 (copying.rg copying.cur 5).toNat 0x3FFC0 ∧ (copying.copiesOf (coreOf 0)).length < 16
    ∧ blockWord copying (copying.palette (coreOf 0) + 0x3FFC0) 3 = 0
    ∧ (∀ p ∈ copying.copies, coreOf p.2.slot = coreOf 0 → p.2.va ≠ (copying.rg copying.cur 5).toNat)
    ∧ (∀ p ∈ copyForms 5, next (exec p.1 copying) (fun t => (t.copies.find 0).map (fun c => c.kind) == some p.2) = true) := by
  unfold BlockRead OwnScratch OwnFree BanksFree; decide

/-- A copy of 64 bytes by slot 0, with its block at 0x3FFC0, of which nothing has been sent. -/
def copy0 : Copy :=
  { kind := .lin, va := 0x007F00000003FFC0, block := 0x3FFC0, blk := #v[0, 0x40000000, 0x40000100, 0, 64, 0, 0, 0], slot := 0, held := false
    sync := none, sent := 0, opn := [], stop := none, marked := false, closing := false, done := false, pdc := none, upd := [], port := 0, psn := 0, kept := [], refused := false, tryAt := 0 }

/-- The copy is in its copy unit. -/
def copied : State := { copying with copies := [(0, copy0)], nextCopy := 1 }

/-- `CopyInstructions`: the oldest copy with the block, to cancel before its first byte. -/
theorem witness_CopyInstructions_cancel : BlockRead copied 0 (copied.rg copied.cur 5).toNat 0x3FFC0 ∧ (copied.copiesOf (coreOf 0)).length < 16
    ∧ copied.copies = (0, copy0) :: [] ∧ coreOf copy0.slot = coreOf 0 ∧ copy0.va = (copied.rg copied.cur 5).toNat ∧ copy0.held = false ∧ copy0.closing = false
    ∧ copy0.sent < copy0.total ∧ copy0.stop = none
    ∧ next (exec (.cpCancel 5) copied) (fun t => (t.copies.find 0).any (fun c => c.stop == some ⟨3, 0, 0, 0, 0⟩)) = true := by
  unfold BlockRead OwnScratch OwnFree BanksFree; decide

/-- Slot 0 is launch-capable; pool record 255 is valid, and its word 15 may be patched; `g5` holds `x`. -/
def pooling (armed : Bool) (x : Nat) : State :=
  let s := onSlot0.setSlot 0 { onSlot0.slot 0 with lc := true }
  setg { s with pool := [(255, (Vector.replicate 16 0).set 0 (0x8000800000000000#64 ||| if armed then 0x4000000000000000 else 0))] } 5 x

/-- `LaunchAndWindowInstructions`: every case of `lpatch`, at record 255 and above, and words 0 and 15. -/
theorem witness_lpatch : ((pooling false 0).slot 0).lc = true ∧ ((pooling false (16 * 255 + 15)).rg (.slot 0) 5).toNat = 16 * 255 + 15 ∧ (pooling true 0).poolArmed 255 = true
    ∧ (pooling false 0).poolArmed 255 = false ∧ (((pooling false 0).poolAt 255)[0]).getLsbD (32 + 15) = true ∧ (((pooling false 0).poolAt 255)[0]).getLsbD (32 + 14) = false
    ∧ next (exec (.lpatch 4 5 6) (pooling false (16 * 255 + 15))) (fun t => t.rg (.slot 0) 4 == 0) = true
    ∧ next (exec (.lpatch 4 5 6) (pooling false (16 * 256))) (fun t => t.rg (.slot 0) 4 == 3) = true
    ∧ next (exec (.lpatch 4 5 6) (pooling true (16 * 255 + 15))) (fun t => t.rg (.slot 0) 4 == 2) = true
    ∧ next (exec (.lpatch 4 5 6) (pooling false (16 * 255))) (fun t => t.rg (.slot 0) 4 == 1) = true := by decide

/-- `LaunchAndWindowInstructions`: every case of `larm`, and a task that is not launch-capable. -/
theorem witness_larm : next (exec (.larm 4 5) (pooling false 255)) (fun t => t.rg (.slot 0) 4 == 0) = true
    ∧ next (exec (.larm 4 5) (pooling true 255)) (fun t => t.rg (.slot 0) 4 == 2) = true ∧ next (exec (.larm 4 5) (pooling true 254)) (fun t => t.rg (.slot 0) 4 == 1) = true
    ∧ next (exec (.larm 4 5) (pooling true 256)) (fun t => t.rg (.slot 0) 4 == 3) = true ∧ (onSlot0.slot 0).lc = false := by decide

/-- Window 7 of domain 1. -/
def win7 : Window :=
  { wid := 7, hold := true, every := 1, first := 0, opn := 5, close := 60, rbase := 0x10000, rlen := 0x1000, defpost := Vector.replicate 8 0, isOpen := true
    posted := none, kept := false, stopped := none, delivered := none, prior := none, wrote := [] }

/-- A state with window 7 in domain 1, and `g5` at a block that names it; `g6` names it for a query. -/
def atWindow (w : Window) : State :=
  { setg (putNat copying 0x20000003FFC0 8 0x700) 6 7 with domains := [(1, { dom1 with windows := [w] })] }

/-- `LaunchAndWindowInstructions`: a post and a query of a window of the launch, and of one that is not. -/
theorem witness_windows : BlockRead (atWindow win7) 0 ((atWindow win7).rg (atWindow win7).cur 5).toNat 0x3FFC0
    ∧ bitsAt (blockWord (atWindow win7) ((atWindow win7).palette (coreOf 0) + 0x3FFC0) 0) 8 8 = 7
    ∧ (atWindow win7).windowOf ((atWindow win7).core (coreOf 0)).lid 7 = some (1, { dom1 with windows := [win7] }, win7)
    ∧ bitsAt (blockWord (atWindow win7) ((atWindow win7).palette (coreOf 0) + 0x3FFC0) 0) 32 32 = 0
    ∧ bitsAt (blockWord (atWindow win7) ((atWindow win7).palette (coreOf 0) + 0x3FFC0) 0) 1 7 = 0
    ∧ bitsAt ((atWindow win7).rg (atWindow win7).cur 6) 8 56 = 0 ∧ copying.windowOf (copying.core (coreOf 0)).lid 7 = none
    ∧ next (exec (.wpost 4 5) (atWindow win7)) (fun t => (t.slot 0).wait == .post 1 7) = true ∧ next (exec (.wpost 4 5) copying) (fun t => t.rg (.slot 0) 4 == 3) = true
    ∧ next (exec (.wquery 4 6) (atWindow win7)) (fun t => t.rg (.slot 0) 4 == 1) = true ∧ next (exec (.wquery 4 6) copying) (fun t => t.rg (.slot 0) 4 == 8) = true := by
  unfold BlockRead OwnScratch OwnFree BanksFree; decide

/-- Copies 0 to 15 of core 0 are in its copy unit. -/
def crowded (c : Copy) : State := { copying with copies := (List.range 16).map (fun k => (k, c)), nextCopy := 16 }

/-- `SyncInstructions`, `CoreBarriers`, `CopyInstructions`: instructions that wait for an update, a full copy unit, one whose copies have ended, and copies that a
cancellation no longer changes. -/
theorem witness_copyWaits : BlockRead (crowded copy0) 0 ((crowded copy0).rg (crowded copy0).cur 5).toNat 0x3FFC0
    ∧ 16 ≤ InFlightCopies (crowded copy0) 0 ∧ InFlightCopies (crowded { copy0 with done := true }) 0 = 0
    ∧ next (exec (.cpLin 5) (crowded copy0)) (fun t => (t.slot 0).wait == .copyUnit) = true
    ∧ next (exec (.cpLin 5) (crowded { copy0 with done := true })) (fun t => (t.slot 0).h.pc == 4) = true
    ∧ next (exec (.cpLin 5) (copying.setSlot 0 { copying.slot 0 with out := 1 })) (fun t => (t.slot 0).wait == .updates) = true
    ∧ next (exec (.barArr 5) ((paired 3).setSlot 0 { (paired 3).slot 0 with out := 1 })) (fun t => (t.slot 0).wait == .updates) = true
    ∧ (∀ c ∈ [{ copy0 with closing := true }, { copy0 with sent := 64 }], copy0.va = (copied.rg copied.cur 5).toNat ∧ (c.closing = true ∨ c.total ≤ c.sent) ∧ c.held = false ∧ c.done = false
        ∧ next (exec (.cpCancel 5) { copied with copies := [(0, c)] }) (fun t => t.copies.find 0 == some c && (t.slot 0).h.pc == 4) = true) := by
  unfold BlockRead OwnScratch OwnFree BanksFree; decide +kernel

/-- Pool record 255 is a launch with context 1. -/
def submitting : State := { pooling false 255 with pool := [(255, #v[0x8001000000000000, 0x40000000, 0, 0, 0x8000000002000001, 0, 0, 0, 2, 0, 0, 0, 0, 0, 0, 0])] }

/-- `LaunchAndWindowInstructions`: `larm` of a record that passes its checks, and a post with a reserved bit. -/
theorem witness_submission : (submitting.poolArmed 255 = false ∧ ((submitting.poolAt 255)[0]).getLsbD 63 = true ∧ rcdBad (submitting.poolAt 255) = false
      ∧ rcdCTX (submitting.poolAt 255) = submitting.ctxOf (submitting.core (coreOf 0)).lid ∧ ctxEN (submitting.asctxAt (rcdCTX (submitting.poolAt 255))) = true ∧ submitting.closed = false)
    ∧ next (exec (.larm 4 5) submitting) (fun t => t.poolArmed 255 && (t.launches.find submitting.nextLid).isSome && t.agenda.contains (.launchClaim submitting.nextLid)) = true
    ∧ next (exec (.wpost 4 5) (putNat (atWindow win7) 0x20000003FFC0 8 0x702)) (fun t => t.rg (.slot 0) 4 == 4) = true
    ∧ next (exec (.wpost 4 5) ((atWindow win7).setSlot 0 { (atWindow win7).slot 0 with out := 1 })) (fun t => (t.slot 0).wait == .updates) = true := by decide +kernel

/-- Page tables that map 0x40000000 as the translation caches do: a level-1 entry at 0, and a level-2 leaf. -/
def mapped (s : State) : State := putNat (putNat s 0 8 0x10001) 0x10010 8 0x2000003F

/-- Core 0 with an overlay table at 0x40000000 whose entry 1 is 4 bytes at 0x40000100. -/
def overlaid : State :=
  let s := setg (setg onSlot0 5 1) 6 0x800
  putNat (putNat (mapped (s.setCore 0 { s.core 0 with ovtab := 0x40000000 })) 0x20000000 8 2) 0x20000020 16 (0x40000100 + 4 * 2 ^ 64)

/-- `SystemInstructions`: an overlay that may be loaded. -/
theorem witness_ovl : overlaid.Canonical ∧ (∃ u, overlaid.ovlEntry 0 (overlaid.rg overlaid.cur 5).toNat (overlaid.rg overlaid.cur 6).toNat
      = .ok (0x40000100, 4) u ∧ gives (u.ovlPieces 0 .code (chunks 0x40000100 4)) [(0x20000100, 4)] (fun _ => true) = true)
    ∧ next (exec (.ovl 5 6) overlaid) (fun t => (t.slot 0).h.pc == 4) = true := by
  refine ⟨by unfold State.Canonical; decide, gives_of (by decide), by decide⟩

/-- `SystemInstructions`: a launch-capable task that names its own ASID, and one that is not launch-capable. -/
theorem witness_tlbi : ((pooling false 0x11).slot 0).lc = true ∧ ((pooling false 0x11).slot 0).spec ≠ .speculative
    ∧ ((pooling false 0x11).rg (pooling false 0x11).cur 5).toNat = ((pooling false 0x11).asidOf (coreOf 0)).toNat ∧ (onSlot0.slot 0).lc = false
    ∧ (∀ p ∈ tlbiForms (pooling false 0x11) 5 6, next (exec p.1 (pooling false 0x11)) (fun t => (t.slot 0).wait == .inval 0 0 0) = true) := by decide

/-! ### Witnesses: events of tasks, slices and invalidations -/

/-- `g6` names core 0 and offset 0x40 for a `spawn`. -/
def spawning : State := setg onSlot0 6 (0x40 * 2 ^ 32)

/-- A spawn from slot 0 arrives at core `c`. -/
def arriving (c : CoreId) : State := onEvent (waiting (.spawn 4)) (.spawnArrival c 0 rec1)

/-- Every slot of core 0 is taken. -/
def full : State :=
  { base with slots := (List.range 4).map (fun k => (k, { Slot.reset with st := .running, task := some rec1 })) }

/-- `SpawnedTasks`: a spawn of a present core of the launch, an arrival at a core with a free slot, and one at a full core. -/
theorem witness_SpawnedTasks : spawning.rg spawning.cur 6 = BitVec.ofNat 64 ((0x40#18).toNat * 2 ^ 32 + (0 : CoreId).val) ∧ spawning.clusterPresent 0 = true
    ∧ (∃ l, spawning.launchOf (coreOf 0) = some l ∧ l.hasCluster 0 = true) ∧ clmapChg (spawning.clmapAt 0) = false
    ∧ next (exec (.spawn 4 6 28) spawning) (fun t => (t.slot 0).wait == .spawn 4) = true
    ∧ ((arriving 7).slot 0).st = .waiting ∧ ((arriving 7).slot 0).wait = .spawn 4 ∧ LowestFree (arriving 7) 7 0 ∧ LowestFree (arriving 0) 0 1
    ∧ next (exec .spawnArrival (arriving 0)) (fun t => (t.slot 1).h.pc == 0x40 && (t.slot 0).h.pc == 4) = true := by
  refine ⟨by decide, by decide, ⟨_, rfl, by decide⟩, by decide, by decide, by decide, by decide, ?_, ?_, by decide⟩ <;>
    (unfold LowestFree Free; decide)

/-- A spawn arrives at core 0, whose slots are all taken. -/
def inlining : State :=
  onEvent (full.setSlot 0 { full.slot 0 with st := .waiting, wait := .spawn 4 }) (.spawnArrival 0 0 rec1)

/-- `SpawnedTasks`: with no free slot, the child runs inline at its creator. -/
theorem witness_SpawnedTasks_inline : (inlining.slot 0).wait = .spawn 4 ∧ (∀ k < 4, ¬ Free inlining 0 k) ∧ (inlining.slot 0).h.ild ≠ 0xFFFF
    ∧ next (exec .spawnArrival inlining) (fun t => (t.slot 0).h.pc == 0x40 && (t.slot 0).h.ild == 1) = true := by
  unfold Free; decide

/-- A state whose core 0 is changed. -/
def core0 (s : State) (f : Core → Core) : State := s.setCore 0 (f (s.core 0))

/-- `TaskStartsAndSteals`: the start of a preloaded record, and of one from the deque. -/
theorem witness_taskStart : ∀ s ∈ [onEvent ({ base with slots := [(0, { Slot.reset with preload := some rec1 })] } : State) (.taskStart 0),
      onEvent (core0 base (fun c => { c with deque := [rec1] })) (.taskStart 0)],
    (s.slot 0).st = .idle ∧ ((s.slot 0).preload = some rec1 ∨ (s.slot 0).preload = none ∧ (s.core (coreOf 0)).deque = [rec1])
    ∧ next (exec .taskStart s) (fun t => (t.slot 0).st == .running && (t.slot 0).h.rg 4 == 4) = true := by decide

/-- `TaskStartsAndSteals`: a steal request with a thief, replies with and without a record, to a core with a free slot and to a full one, and a released
arm entry. -/
theorem witness_steals : spillEN (base.core 0).dqspill = false ∧ rec1.lnk = false ∧ LowestFree base 0 0 ∧ (∀ k < 4, ¬ Free full 0 k)
    ∧ next (exec .stealRequest (onEvent (core0 base (fun c => { c with thieves := [(1, 0)], deque := [rec1] })) (.stealRequest 0)))
        (fun t => t.agenda.contains (.stealReply 1 (some rec1)) && (t.core 0).deque.isEmpty) = true
    ∧ next (exec .stealReply (onEvent (core0 base (fun c => { c with stealing := true })) (.stealReply 0 none))) (fun t => !(t.core 0).stealing) = true
    ∧ next (exec .stealReply (onEvent base (.stealReply 0 (some rec1)))) (fun t => (t.slot 0).st == .running) = true
    ∧ next (exec .stealReply (onEvent full (.stealReply 0 (some rec1)))) (fun t => (t.core 0).deque == [rec1]) = true
    ∧ next (exec .armEntryPush (onEvent (core0 base (fun c => { c with arms := [⟨0, 0, rec1, true⟩] })) (.armEntryPush 0)))
        (fun t => (t.core 0).deque == [rec1] && (t.core 0).arms.isEmpty) = true := by
  refine ⟨by decide, by decide, by unfold LowestFree Free; decide, by unfold Free; decide, by decide, by decide, by decide, by decide, by decide⟩

/-- A task of timestamp 0 in domain 1 has stored one byte and waits to commit. -/
def toCommit (w : Wait) : State :=
  onEvent ({ base with slots := [(0, { Slot.reset with st := .committing, wait := w, task := some { rec1 with dom := 1 }, dom := 1, spec := .speculative,
                                                       buf := [.store 0x20000000 [some 0x5A] none] })] } : State) (.commit 0)

/-- `Commits`: a task that commits at its end, or on the way to becoming irrevocable. -/
theorem witness_Commits : ∀ w, w = Wait.commit ∨ w = Wait.irr → (toCommit w).Canonical ∧ (toCommit w).mayCommit 0 = true ∧ ((toCommit w).slot 0).held = []
    ∧ (∀ o ∈ ((toCommit w).slot 0).buf, o = .store 0x20000000 [some 0x5A] none ∧ (toCommit w).claim 0 o.range.1 o.range.2 = .ok)
    ∧ next (exec .commit (toCommit w)) (fun t => memRead t.mem 0x20000000 == 0x5A && (t.slot 0).buf.isEmpty && (t.slot 0).st == (if w == .irr then .running else .idle)) = true := by
  unfold State.Canonical
  rintro w (rfl | rfl) <;> refine ⟨by decide, by decide, by decide, by decide, by decide⟩

/-- `Commits`: a task that waits for room in its commit buffer commits and runs on; `SpawnedTasks`: a spawn while the mesh is rerouted. -/
theorem witness_Commits_full : (let s := toCommit .commit
      let w := s.setSlot 0 { s.slot 0 with st := .waiting }
      w.mayCommit 0 = true ∧ (w.slot 0).st ≠ .committing ∧ next (exec .commit w) (fun t => memRead t.mem 0x20000000 == 0x5A && (t.slot 0).st == .running && (t.slot 0).h == (w.slot 0).h) = true)
    ∧ (spawning.rerouting = false ∧ ({ spawning with rerouting := true } : State).rerouting = true
      ∧ next (exec (.spawn 4 6 28) { spawning with rerouting := true }) (fun t => (t.slot 0).wait == .retry 2040) = true) := by decide +kernel

/-- `Commits`: a free and a speculative task at `commit.irr`; and a message of the commit front. -/
theorem witness_commitIrr : (task0.slot 0).spec ≠ .speculative ∧ (spec0.slot 0).spec = .speculative ∧ (spec0.slot 0).task.isSome
    ∧ next (exec .commitIrr spec0) (fun t => (t.slot 0).wait == .irr) = true
    ∧ next (exec .commitFrontMessage (onEvent base (.commitFrontMessage 0 15 9))) (fun t => (t.core 0).views.toList.getD 14 0 == 9) = true := by decide

/-- Cluster 0 alone, whose slots are taken: those of core 0 wait to commit timestamps 1 to 4 of domain 1, and its deque holds timestamp 0. -/
def starving : State :=
  let r (k : Nat) : TaskRec := { rec1 with ts := BitVec.ofNat 32 k, dom := 1 }
  onEvent ({ base with
    clmap := (List.range 127).map (fun n => (n + 1, 0))
    cores := [(0, { base.core 0 with deque := [r 0] })]
    slots := (List.range 32).map (fun k => (k, if k < 4 then
        { Slot.reset with st := .committing, wait := .commit, task := some (r (k + 1)), spec := .speculative, dom := 1, ts := BitVec.ofNat 32 (k + 1) }
      else { Slot.reset with st := .running, task := some rec1 })) } : State)
    (.starvedFrontTimeout 1 1)

/-- `Commits`: a starved front, and the slot that it takes. -/
theorem witness_starved : starving.starved 1 1 = some 0 ∧ (∃ r0, starving.highestWaiting 1 = some (3, r0))
    ∧ (∃ u, (starving.giveBack 3).takeFront 0 1 (starving.front (some 1) 1) = .ok (some { rec1 with dom := 1 }) u ∧ u.aborted.all (fun a => a.1 != { rec1 with dom := 1 }) = true)
    ∧ next (exec .starvedFrontTimeout starving) (fun t => (t.slot 3).st == .running && (t.slot 3).h.pc == 0x40) = true := by
  refine ⟨by decide +kernel, ⟨_, rfl⟩, gives_of (by decide +kernel), by decide +kernel⟩

/-- `BoundaryEvents`: a budget overrun, a pre-emption of a running slot and of a speculative task, a user interrupt, a return from it, and a resumption. -/
theorem witness_BoundaryEvents : Enterable (onEvent trapReady (.budgetOverrun 0)) 0
    ∧ Unread (onEvent trapReady (.budgetOverrun 0)) 0 (framePlace (onEvent trapReady (.budgetOverrun 0)) 0)
    ∧ next (exec .budgetOverrun (onEvent trapReady (.budgetOverrun 0))) (fun t => (t.slot 0).h.pc == 0x100 && bitsAt (t.slot 0).h.cause 0 8 == 0x0D) = true
    ∧ ((onSlot0.slot 0).st = .running ∧ (onSlot0.slot 0).preload = none ∧ (onSlot0.slot 0).spec ≠ .speculative)
    ∧ ((spec0.slot 0).st ≠ .idle ∧ (spec0.slot 0).st ≠ .suspended ∧ (spec0.slot 0).spec = .speculative ∧ (spec0.slot 0).task = some rec1)
    ∧ next (exec .preemptionRequest (onEvent spec0 (.preemptionRequest 0))) (fun t => (t.slot 0).st == .idle && (t.core 0).deque == [rec1]) = true
    ∧ next (exec .preemptionRequest (onEvent onSlot0 (.preemptionRequest 0))) (fun t => (t.slot 0).st == .suspended && bitsAt (t.slot 0).h.cause 0 8 == 0x1B) = true := by
  refine ⟨by unfold Enterable; decide +kernel, unread_of _ _ (by decide +kernel), by decide, by decide, by decide, by decide, by decide⟩

/-- `BoundaryEvents`: a pre-emption of a slot that waits in an instruction, and of one that waits for the end of an invalidation. -/
theorem witness_preemption : WaitsFreely ((waiting .idle).slot 0) ∧ ((waiting .idle).slot 0).preload = none
    ∧ next (exec .preemptionRequest (onEvent (waiting .idle) (.preemptionRequest 0))) (fun t => (t.slot 0).st == .suspended) = true
    ∧ next (exec .preemptionRequest (onEvent (waiting (.inval 2 0 0)) (.preemptionRequest 0))) (fun t => (t.slot 0).wait == .inval 2 0 0
      && (t.slot 0).due == [.preempt]) = true := ⟨trivial, by decide, by decide, by decide⟩

/-- With no entry kept for an abort of this ck, none is. -/
theorem noUndo_of {s : State} (h : ∀ p ∈ s.slots, p.2.undo = none) : NoUndo s := fun j u e => by
  have := slots_of (s := s) (P := fun _ x => x.undo = none) h (fun _ => rfl) j
  simp [this] at e

/-- `BoundaryEvents`: a speculative task with no entry to undo. -/
theorem witness_NoUndo : NoUndo (onEvent spec0 (.preemptionRequest 0)) := noUndo_of (by decide)

/-- Slot 0 with one user interrupt queued. -/
def interrupted : State := onSlot0.setSlot 0 { onSlot0.slot 0 with uiq := [(5, 0x8000000000000200#64)], uih := 0x8000000000000200#64 }

/-- Slot 0 in its user-interrupt handler. -/
def inUi : State := onSlot0.setSlot 0 { onSlot0.slot 0 with uih := 0xC000000000000080#64 }

/-- Slot 0 suspended. -/
def parked : State := onSlot0.setSlot 0 { onSlot0.slot 0 with st := .suspended }

/-- `BoundaryEvents`: a user interrupt, a return from it, and a resumption. -/
theorem witness_interrupts : (interrupted.slot 0).uiq = (5, 0x8000000000000200#64) :: [] ∧ bitsAt (inUi.slot 0).h.cause 62 1 = 0 ∧ bitsAt (inUi.slot 0).uih 62 1 = 1
    ∧ (parked.slot 0).st = .suspended ∧ (parked.slot 0).wait = .none
    ∧ next (exec .userInterruptEntry (onEvent interrupted (.userInterruptEntry 0))) (fun t => (t.slot 0).h.pc == 0x200 && (t.slot 0).xfer == 5) = true
    ∧ next (exec .eret inUi) (fun t => (t.slot 0).h.pc == 0x80) = true
    ∧ next (exec .resumption (onEvent parked (.resumption 0))) (fun t => (t.slot 0).st == .running) = true := by decide

/-- `SyncUpdates`: a word of core 0 for which slot 0 waits, a barrier in a line that is served, and waits for a poll and for a retry. -/
theorem witness_SyncUpdates : NoSpeculation (waiting (.sync 0x20000003FFF0)) ∧ (waiting (.sync 0x20000003FFF0)).Canonical
    ∧ (waiting (.sync 0x20000003FFF0)).paletteOf 0x20000003FFF0 = some (0, 0x3FFF0) ∧ ((waiting (.sync 0x20000003FFF0)).core 0).arms = []
    ∧ (waiting (.sync 0x20000003FFF0)).lineAnswer (0x20000010 / 256) true = .serve
    ∧ clmapChg ((waiting (.sync 0x20000003FFF0)).clmapAt 0) = false
    ∧ (∀ b ∈ palBanks 0x20000003FFF0 16, (waiting (.sync 0x20000003FFF0)).bankServes (.event (.syncUpdate 0x20000003FFF0 0 1 false none (some (.slot 0)))) b = true)
    ∧ (let e := Event.transactionBarrierUpdate 0x20000010 0 1 true (some (0, 0x40000010))
       ((onEvent (waiting .idle) e).underway e).answer (.event e) ⟨.slice, 0x20000010, none, false⟩ 16 true = .serve) := by
  refine ⟨noSpeculation_of (by decide), by unfold State.Canonical; decide, by decide, by decide, by decide, by decide, by decide, by decide⟩

/-- `SyncUpdates`: no commit has claimed the word; the answer to a copy and to a slot. -/
theorem witness_updateAnswers : (waiting (.sync 0x20000003FFF0)).claimed 0x20000003FFF0 16 = false
    ∧ next (exec .syncUpdate (onEvent (waiting .idle) (.syncUpdate 0x20000003FFF0 0 1 false none (some (.copy 5 2))))) (fun t => t.timers.any (fun p => p.2 == .updateAcknowledgment 5 2)) = true
    ∧ next (exec .syncUpdate (onEvent owing (.syncUpdate 0x20000003FFF0 0 1 false none (some (.slot 0))))) (fun t => (t.slot 0).out == 0) = true := by decide

/-- An arrival on a word of zero targets completes its generation, and the slot that waits for it reads it again; so does a poll. -/
theorem test_syncUpdate : next (exec .syncUpdate (onEvent (waiting (.sync 0x20000003FFF0)) (.syncUpdate 0x20000003FFF0 0 1 false none none)))
      (fun t => memNat t.mem 0x20000003FFF6 2 == 1 && (t.slot 0).st == .running) = true
    ∧ next (exec .transactionBarrierUpdate (onEvent (waiting .idle) (.transactionBarrierUpdate 0x20000010 0 1 true none))) (fun t => memNat t.mem 0x2000001F 1 == 0x80) = true
    ∧ next (exec .swaitPoll (onEvent (waiting (.sync 0x20000003FFF0)) (.swaitPoll 0))) (fun t => (t.slot 0).st == .running) = true
    ∧ next (exec .twaitRetry (onEvent (waiting (.txn 0x20000010 false)) (.twaitRetry 0))) (fun t => (t.slot 0).st == .running) = true := by decide

/-- Slot 0 waits for a request of its own at a physical address. -/
def requesting (pa : Nat) (op : ReqOp) : State :=
  { waiting (.request 9) with reqs := [(9, { who := .agent (.slot 0), pa := pa, va := 0, op := op, count := 0, reserved := false, claimed := false, kept := false, page := none, turn := 0 })] }

/-- The request. -/
def req0 (pa : Nat) (op : ReqOp) : Req := { who := .agent (.slot 0), pa := pa, va := 0, op := op, count := 0, reserved := false, claimed := false, kept := false, page := none, turn := 0 }

/-- `RequestsServed`: a load at a line that is served, over the mesh, and at the port of an open window; and a retry and the response. -/
theorem witness_RequestsServed : Waiting (onEvent (requesting 0x20000000 (.load 4 8 false)) (.sliceRequest 9)) 9 (req0 0x20000000 (.load 4 8 false)) 0
    ∧ Arrives (onEvent (requesting 0x20000000 (.load 4 8 false)) (.sliceRequest 9)) 9 (req0 0x20000000 (.load 4 8 false)) 0 .sliceRequest
    ∧ Arrives (onEvent (requesting 0x200000040000 (.store [1])) (.remotePaletteAccess 9)) 9 (req0 0x200000040000 (.store [1])) 0 .remotePaletteAccess
    ∧ (requesting 0x20000000 .again).marked 0x20000000 8 = false := by
  refine ⟨⟨rfl, rfl, rfl⟩, .inl ⟨.inl ⟨rfl, rfl⟩, .inl rfl, by decide +kernel⟩, .inr (.inl ⟨rfl, rfl, by decide +kernel⟩), by decide +kernel⟩

/-- The responses of a load, a retry and a store. -/
theorem test_requests : next (exec .sliceRequest (onEvent (requesting 0x20000000 (.load 4 8 false)) (.sliceRequest 9))) (fun t => t.agenda.contains (.responseArrival 9 0 0)) = true
    ∧ next (exec .requestRetry (onEvent (requesting 0x20000000 .again) (.requestRetry 9))) (fun t => (t.slot 0).st == .running) = true
    ∧ next (exec .requestRetry (onEvent (requesting 0x20000000 (.load 4 8 false)) (.requestRetry 9))) (fun t => t.agenda.contains (.responseArrival 9 0 0)) = true
    ∧ (requesting 0x200000040000 (.store [1])).placeOf 0 0x200000040000 = .palette 1 false
    ∧ next (exec .requestRetry (onEvent (requesting 0x200000040000 (.store [1])) (.requestRetry 9))) (fun t => t.timers.any (fun p => p.2 == .remotePaletteAccess 9)) = true
    ∧ (requesting (tileBase 3) (.store [1])).placeOf 0 (tileBase 3) = .tileMem 3
    ∧ next (exec .requestRetry (onEvent (requesting (tileBase 3) (.store [1])) (.requestRetry 9))) (fun t => t.timers.any (fun p => p.2 == .windowPortServe 9)) = true
    ∧ next (exec .responseArrival (onEvent (requesting 0x20000000 (.load 4 8 false)) (.responseArrival 9 0x55 0))) (fun t => (t.slot 0).h.rg 4 == 0x55 && (t.slot 0).h.pc == 4) = true := by decide +kernel

/-- Window 7 of domain 1, open over the first 64 KiB of each tile's memory; a request of slot 0 for a byte of tile 3. -/
def portRequest : State :=
  { onEvent (requesting (tileBase 3 + 0x10000) (.store [0x5A])) (.windowPortServe 9) with domains := [(1, { dom1 with windows := [win7] })] }

/-- `RequestsServed`: a store at the port of an open window. -/
theorem witness_windowPort : portRequest.phys (tileBase 3 + 0x10000) = .tileMem 3 0x10000 ∧ portRequest.windowTest 3 0x10000 1 = .ok
    ∧ portRequest.portBusy ⟨.tileMem (Fin.ofNat 128 3), tileBase 3 + 0x10000, none, false⟩ 1 = false
    ∧ next (exec .windowPortServe portRequest) (fun t => memRead t.mem (tileBase 3 + 0x10000) == 0x5A) = true := by decide +kernel

/-- A speculative task waits for a request of its own, with one byte of the place in its commit buffer. -/
def specRequest : State :=
  let s := requesting 0x20000000 (.load 4 8 false)
  onEvent (s.setSlot 0 { s.slot 0 with task := some rec1, spec := .speculative, buf := [.store 0x20000001 [some 0x77] none] }) (.sliceRequest 9)

/-- `RequestsServed`: a load of a speculative task, and places that no commit has claimed. -/
theorem witness_specRequest : Waiting specRequest 9 (req0 0x20000000 (.load 4 8 false)) 0 ∧ Arrives specRequest 9 (req0 0x20000000 (.load 4 8 false)) 0 .sliceRequest
    ∧ (specRequest.slot 0).task.isSome ∧ (specRequest.slot 0).spec = .speculative ∧ specRequest.marked 0x20000000 8 = false
    ∧ next (exec .sliceRequest specRequest) (fun t => t.agenda.contains (.responseArrival 9 0x7700 0)) = true
    ∧ portRequest.claimed (tileBase 3 + 0x10000) 1 = false := by
  refine ⟨⟨rfl, rfl, rfl⟩, .inl ⟨.inl ⟨rfl, rfl⟩, .inl rfl, by decide +kernel⟩, by decide, by decide, by decide, by decide +kernel, by decide⟩

/-- A pseudo-channel with reads and writes that wait. -/
def pch (r w : List Nat) : Pch := { Pch.reset with reads := r, writes := w }

/-- A line being filled, and two fills that wait for pseudo-channel 0. -/
def filling : State :=
  onEvent { base with lines := [(0x300000, { st := .filling, dirty := false, hostHeld := 0, asked := 0, pins := 0 })]
                      hbmQ := [(0, pch [0x300000, 0x300001] [])] } (.hbmDynamicSlot 0)

/-- A line that is written back, and 24 writes that wait for pseudo-channel 0. -/
def draining24 : State :=
  onEvent { base with lines := [(0x300000, { st := .writing, dirty := false, hostHeld := 0, asked := 0, pins := 0 })]
                      hbmQ := [(0, pch [] ((List.range 24).map (0x300000 + ·)))] } (.hbmDynamicSlot 0)

/-- `FillsAndWalks`: a fill, a write-back, and the dynamic slots that serve a read and a write. -/
theorem witness_fills : filling.lines.find 0x300000 = some { st := .filling, dirty := false, hostHeld := 0, asked := 0, pins := 0 }
    ∧ filling.hbmQ.find 0 = some (pch [0x300000, 0x300001] []) ∧ (pch [0x300000, 0x300001] []).pick [0x300000, 0x300001] = 0
    ∧ draining24.hbmQ.find 0 = some (pch [] ((List.range 24).map (0x300000 + ·))) ∧ (pch [] ((List.range 24).map (0x300000 + ·))).pick ((List.range 24).map (0x300000 + ·)) = 0
    ∧ draining24.lines.find 0x300000 = some { st := .writing, dirty := false, hostHeld := 0, asked := 0, pins := 0 }
    ∧ next (exec .l2Fill (onEvent filling (.l2Fill 0x300000))) (fun t => (t.lines.find 0x300000).any (fun l => l.st == .ready)) = true
    ∧ next (exec .l2Fill (onEvent draining24 (.l2Fill 0x300000))) (fun t => t.lines.isEmpty) = true := by decide

/-- `FillsAndWalks`: a line that is filled over CXL, whose granules may come with poison. -/
theorem witness_poison : (let s : State := onEvent { base with lines := [(0x1000000000, { st := .filling, dirty := false, hostHeld := 0, asked := 0, pins := 0 })], tier2 := [(0x100000000000, 0x10000)] } (.l2Fill 0x1000000000)
    s.phys (0x1000000000 * 256) = .tier2 ∧ (s.lines.find 0x1000000000).any (fun l => l.st == .filling) = true) := by decide

/-- Housekeeping closes the rows, whatever slots it takes; the other slots serve the oldest read, or the oldest write. -/
theorem test_dynamicSlot : (Config.housekeeping 0 0 = false → next (exec .hbmDynamicSlot filling) (fun t => t.timers.contains (144, .l2Fill 0x300000)) = true
      ∧ next (exec .hbmDynamicSlot draining24) (fun t => t.lines.isEmpty) = true)
    ∧ (Config.housekeeping 0 0 = true → next (exec .hbmDynamicSlot filling) (fun t => t.timers.isEmpty) = true) := by
  have e (s : State) (x : Pch) (h : s.event = some (.hbmDynamicSlot 0)) (h1 : s.hbmQ.find 0 = some x) (h2 : s.ck / 16 = 0) : exec .hbmDynamicSlot s =
      if Config.housekeeping 0 0 then .next { s with hbmQ := s.hbmQ.put 0 { x with rows := [] } }
      else match x.serve with
      | none => .next s
      | some (line, write, y) =>
        let s1 : State := { s with hbmQ := s.hbmQ.put 0 y }
        if write then
          match s1.lines.find line with
          | some l => .next (if l.st = .writing then { s1 with lines := s1.lines.del line }.answerKept line else s1)
          | none => .next s1
        else .next (s1.after 144 (.l2Fill line)) := by
    show execHbmDynamicSlot s = _
    unfold execHbmDynamicSlot
    rw [h]
    dsimp only
    rw [h1]
    dsimp only
    rw [h2]
    all_goals rfl
  refine ⟨fun h => ?_, fun h => ?_⟩
  · rw [e filling _ rfl rfl rfl, e draining24 _ rfl rfl rfl, h]; decide
  · rw [e filling _ rfl rfl rfl, h]; decide

/-- Slot 0 waits for a walk, whose entries' lines are in L2; the die TLB lacks the page. -/
def walking (s : State) (e : Event) : State :=
  onEvent { s with dtlb := [], lines := [(0, { st := .ready, dirty := false, hostHeld := 0, asked := 0, pins := 0 }),
                                         (0x100, { st := .ready, dirty := false, hostHeld := 0, asked := 0, pins := 0 })] } e

/-- A lookup in the die TLB misses. -/
def misses (x : Tr) : Bool :=
  match x with
  | .miss => true
  | _ => false

/-- A lookup that is found to miss does. -/
theorem miss_of {x : Tr} (h : misses x = true) : x = .miss := by
  cases x with
  | miss => rfl
  | _ => simp [misses] at h

/-- A walk comes to a leaf. -/
def leafWalk (x : Walked) : Bool :=
  match x with
  | .leaf .. => true
  | _ => false

/-- A walk that is found to come to a leaf does. -/
theorem leafWalk_of {x : Walked} (h : leafWalk x = true) : ∃ e pa u, x = .leaf e pa u := by
  cases x with
  | leaf e pa u => exact ⟨e, pa, u, rfl⟩
  | _ => simp [leafWalk] at h

/-- `FillsAndWalks`: a miss of the die TLB, a walk that comes to a leaf and one that faults. -/
theorem witness_walks : (walking (mapped (waiting (.walk 0x40000000))) (.pageWalk (.slot 0) 0x40000000 1 0)).waitOf (.slot 0) = .walk 0x40000000
    ∧ (walking (mapped (waiting (.walk 0x40000000))) (.pageWalk (.slot 0) 0x40000000 1 0)).dieLookup 0 1 .read 0x40000000 = .miss
    ∧ ∀ s ∈ [walking (mapped (waiting (.walk 0x40000000))) (.pageWalk (.slot 0) 0x40000000 1 1), walking (waiting (.walk 0x40000000)) (.pageWalk (.slot 0) 0x40000000 1 1)],
      (∀ ea ∈ s.walkAddrs 1 0x40000000, s.lineAnswer (ea / 256) false = .serve) ∧ s.Canonical ∧ NoSpeculation s
      ∧ ((∃ e l ea pa, s.walkCtx 1 .read true 0x40000000 = .leaf e l ea pa) ∧ (∃ e pa u, s.walkTo 1 .read true 0x40000000 = .leaf e pa u)
        ∨ ∃ f, s.walkTo 1 .read true 0x40000000 = .fault f) := by
  refine ⟨by decide, miss_of (by decide), fun s hs => ?_⟩
  have : s = walking (mapped (waiting (.walk 0x40000000))) (.pageWalk (.slot 0) 0x40000000 1 1) ∨ s = walking (waiting (.walk 0x40000000)) (.pageWalk (.slot 0) 0x40000000 1 1) := by
    simpa using hs
  rcases this with rfl | rfl
  · exact ⟨by decide, by unfold State.Canonical; decide, noSpeculation_of (by decide), .inl ⟨leaf_of (by decide), leafWalk_of (by decide)⟩⟩
  · exact ⟨by decide, by unfold State.Canonical; decide, noSpeculation_of (by decide), .inr ⟨_, rfl⟩⟩

/-- A walk of two levels takes its time and fills the die TLB; a retry does the same; a walk to an entry that is not valid faults. -/
theorem test_walks : next (exec .pageWalk (walking (mapped (waiting (.walk 0x40000000))) (.pageWalk (.slot 0) 0x40000000 1 0)))
      (fun t => t.timers.any (fun p => p.2 == .pageWalk (.slot 0) 0x40000000 1 1)) = true
    ∧ next (exec .walkRetry (walking (mapped (waiting (.walk 0x40000000))) (.walkRetry (.slot 0) 0x40000000 1)))
      (fun t => t.timers.any (fun p => p.2 == .pageWalk (.slot 0) 0x40000000 1 1)) = true
    ∧ next (exec .pageWalk (walking (mapped (waiting (.walk 0x40000000))) (.pageWalk (.slot 0) 0x40000000 1 1))) (fun t => (t.slot 0).st == .running && (t.dtlb.find 0).any (fun l => !l.isEmpty)) = true
    ∧ next (exec .pageWalk (walking (waiting (.walk 0x40000000)) (.pageWalk (.slot 0) 0x40000000 1 1))) (fun t => bitsAt (t.slot 0).h.cause 0 8 == 0x0A) = true := by decide +kernel

/-- Line 0x200000 held by the host, and asked for. -/
def hostLine : Line := { st := .birsp, dirty := false, hostHeld := 0b1001, asked := 0b1001, pins := 0 }

/-- A state with that line alone. -/
def hostHolds : State := { base with lines := [(0x200000, hostLine)] }

/-- A host line of the tier-2 range at 16 TiB, and one of host memory. -/
def snooped (line : Nat) : State := { base with lines := [(line, { st := .ready, dirty := false, hostHeld := 0, asked := 0, pins := 0 })], tier2 := [(0x100000000000, 0x10000)] }

/-- A line of the tier-2 range that memory lacks, and a back-invalidation snoop of it. -/
def dirtied : State :=
  onEvent { snooped 0 with lines := [(0x1000000000, { st := .ready, dirty := true, hostHeld := 0, asked := 0, pins := 0 })] } (.bisnp 0x1000000000)

/-- `HostAccesses`: a write and a read at a ready line, a response, back-invalidation snoops, host snoops and uncorrectable errors. -/
theorem witness_HostAccesses : base.Canonical ∧ base.lineAnswer (0x20000000 / 256) true = .serve ∧ base.lineAnswer (0x20000000 / 256) false = .serve
    ∧ base.lines.find (0x20000000 / 256) = some { st := .ready, dirty := false, hostHeld := 0, asked := 0, pins := 0 } ∧ hostHolds.lines.find 0x200000 = some hostLine
    ∧ (∀ e ∈ [Event.cxlMemWrite 0x20000000 (List.replicate 64 0x5A), .cxlMemRead 0x200000C0], base.mayServe (.event e) 0x20000000 = true)
    ∧ next (exec .cxlMemWrite (onEvent base (.cxlMemWrite 0x20000000 (List.replicate 64 0x5A)))) (fun t => memRead t.mem 0x2000003F == 0x5A) = true
    ∧ next (exec .cxlMemRead (onEvent base (.cxlMemRead 0x200000C0))) (fun t => (t.lines.find 0x200000).any (fun l => l.hostHeld == 0b1000)) = true
    ∧ next (exec .birsp (onEvent hostHolds (.birsp 0x200000 3))) (fun t => (t.lines.find 0x200000).any (fun l => l.hostHeld == 1 && l.st == .birsp)) = true
    ∧ next (exec .eccUncorrectable (onEvent base (.eccUncorrectable none 7))) (fun t => t.marks == [7]) = true
    ∧ next (exec .eccUncorrectable (onEvent base (.eccUncorrectable (some 3) 7))) (fun t => (t.tile 3).accMarks == [7]) = true := by
  unfold State.Canonical; decide

/-- `HostAccesses`: snoops of a line of the tier-2 range and of one of host memory. -/
theorem witness_snoops : (snooped 0x1000000000).phys (0x1000000000 * 256) = .tier2 ∧ (snooped 0x1000000000).lineHeld 0x1000000000 = false
    ∧ (snooped 0x4000000000).phys (0x4000000000 * 256) = .host ∧ (snooped 0x4000000000).lineHeld 0x4000000000 = false
    ∧ next (exec .bisnp (onEvent (snooped 0x1000000000) (.bisnp 0x1000000000))) (fun t => t.lines.isEmpty) = true
    ∧ next (exec .hostSnoop (onEvent (snooped 0x4000000000) (.hostSnoop 0x4000000000))) (fun t => t.lines.isEmpty) = true
    ∧ (snooped 5).lines.find 0x1000000000 = none ∧ (dirtied.lines.find 0x1000000000).any (fun l => l.dirty) = true ∧ dirtied.setBusy 0x1000000000 = false
    ∧ next (exec .bisnp dirtied) (fun _ => true) = true := by decide

/-- An invalidation of all entries of ASID 0x11, for slot 0, that makes a seal entry. -/
def inval1 (ph : InvPhase) : Inval :=
  { who := some 0, asid := 0x11, scope := .all, phase := ph, entry := some ⟨0x11, 0x10000, 0x10000, false, 1⟩, opening := true, dest := 4, since := 0 }

/-- That invalidation is in flight at ck 32. -/
def invalidating (ph : InvPhase) : State := { waiting (.inval 2 0 0) with invals := [(2, inval1 ph)], ck := 32, lines := [], tiles := [] }

/-- `Invalidations`: the three phases, of an entry that opens a range and of one that frees it. -/
theorem witness_Invalidations : ∀ ph ∈ [InvPhase.block, InvPhase.drain, InvPhase.ack], (invalidating ph).invals.find 2 = some (inval1 ph)
    ∧ (inval1 InvPhase.drain).since + 32 ≤ (invalidating InvPhase.drain).ck ∧ (invalidating InvPhase.drain).drained (inval1 InvPhase.drain) = true
    ∧ next (exec .invalidationRequest (onEvent (invalidating InvPhase.block) (.invalidationRequest 2 none))) (fun t => (t.invals.find 2).any (fun v => v.phase == .drain)) = true
    ∧ next (exec .invalidationDrainEnd (onEvent (invalidating InvPhase.drain) (.invalidationDrainEnd 2))) (fun t => t.timers.contains (64, .invalidationAcknowledge 2)) = true
    ∧ next (exec .invalidationAcknowledge (onEvent (invalidating InvPhase.ack) (.invalidationAcknowledge 2)))
        (fun t => t.seals == [⟨0x11, 0x10000, 0x10000, false, 1⟩] && (t.slot 0).st == .running) = true := by decide

/-- `Invalidations`: the drain of one before which another has drained. -/
theorem witness_drainOrder : (let s := onEvent { invalidating .drain with invals := [(1, inval1 .ack), (2, inval1 .drain)] } (.invalidationDrainEnd 2)
    (∀ p ∈ s.invals, p.1 < 2 → p.2.phase = .ack) ∧ s.drained (inval1 .drain) = true ∧ next (exec .invalidationDrainEnd s) (fun t => (t.invals.find 2).any (fun v => v.phase == .ack)) = true)
    ∧ NoUndo (onEvent (invalidating .block) (.invalidationRequest 2 none)) := ⟨by decide, noUndo_of (by decide)⟩

/-! ### Witnesses: vector instructions -/

/-- A vector of 32-bit lanes, lane 0 first. -/
def lanesOf (l : List Nat) : BitVec 2048 := BitVec.ofNat 2048 (natOfBytes (l.flatMap (bytesOfNat 4)))

/-- An agent with `v3`, `v4` and `v8` loaded, four q registers, stage 0 on and lane 2 alone in `p1`. -/
def vectors (s : State) : State :=
  let s := ((s.wv s.cur ⟨0, 3⟩ (lanesOf [0x4B800000, 0x3F800000, 0x3F800000, 0xCB800000])).wv s.cur ⟨0, 4⟩ (lanesOf [0x8000BC00, 0x3C000000])).wv s.cur
    ⟨0, 8⟩ (lanesOf [0x43960000, 0xC0200000, 0x7FC00000, 0x3FC00000])
  s.setHart s.cur { ((s.hart s.cur).wp 1 0xFFFFFFFFFFFFFFFB) with qa := 4, stg := 1 }

/-- `ElementwiseVectors`, `VectorMoves`, `Reductions`, `VectorFrame`: agents of both profiles, and both forms of guard; `g5` is a broadcast source. -/
theorem witness_vectors : ∀ s ∈ [vectors onSlot0, vectors onTile3], s.Canonical ∧ Runs (me s) (.pred 1) ∧ Runs (me s) (.stage 0) ∧ ¬ Runs (me s) (.stage 15)
    ∧ (me s).qa ≠ 0 ∧ next (exec (.vaddF32 (.stage 0) false ⟨0, 5⟩ ⟨0, 3⟩ ⟨1, 3⟩) s) (fun t => t.rv t.cur ⟨0, 5⟩ == s.rv s.cur ⟨0, 3⟩) = true := by
  unfold State.Canonical Runs; decide +kernel

/-- R346, the spec's example: the tree gives 1.0 and NX; with lane 2 disabled, +0. -/
theorem test_vredsum : decode 0xB00A3000 = .ok (.vredsum (.pred 0) .f32 false 5 ⟨0, 3⟩)
    ∧ next (exec (.vredsum (.pred 0) .f32 false 5 ⟨0, 3⟩) (vectors onSlot0)) (fun t => t.rg (.slot 0) 5 == 0x3F800000 && (t.slot 0).h.nst == 2) = true
    ∧ next (exec (.vredsum (.pred 1) .f32 false 5 ⟨0, 3⟩) (vectors onSlot0)) (fun t => t.rg (.slot 0) 5 == 0) = true := ⟨rfl, by decide +kernel, by decide +kernel⟩

/-- R349, the spec's example: the keys of -1.0, -0, +0 and +1.0. -/
theorem test_vflip : decode 0xB0084068 = .ok (.vflip (.pred 0) .f16 false ⟨0, 4⟩ ⟨0, 4⟩)
    ∧ next (exec (.vflip (.pred 0) .f16 false ⟨0, 4⟩ ⟨0, 4⟩) (vectors onSlot0)) (fun t =>
        (List.range 4).map (elemAt (t.rv (.slot 0) ⟨0, 4⟩) 16) == [0x43FF, 0x7FFF, 0x8000, 0xBC00]) = true := ⟨rfl, by decide +kernel⟩

/-- R354, the spec's example: 300.0, -2.5, NaN and 1.5 to signed bytes; the bytes above the packed result stay. -/
theorem test_vcvt_i8 : decode 0xC00A8001 = .ok (.vcvtNarrowInt (.pred 0) .i8 .rne false ⟨0, 5⟩ ⟨0, 8⟩ 0)
    ∧ next (exec (.vcvtNarrowInt (.pred 0) .i8 .rne false ⟨0, 3⟩ ⟨0, 8⟩ 0) (vectors onSlot0)) (fun t =>
        elemAt (t.rv (.slot 0) ⟨0, 3⟩) 32 0 == 0x0200FE7F && elemAt (t.rv (.slot 0) ⟨0, 3⟩) 32 1 == 0 && (t.slot 0).h.nst == 18) = true := ⟨rfl, by decide +kernel⟩

/-- `VectorMemory`: the vector at `g5` is read and written at once, by a core slot and by a tile; so are the elements that `v9` names. -/
theorem witness_VectorMemory : (vectors (ownAt 0x3FFC0)).Canonical
    ∧ ReadPlace (vectors (ownAt 0x3FFC0)) (vectorAddr (vectors (ownAt 0x3FFC0)) 5 0) 64 0x20000003FFC0 ∧ WritePlace (vectors (ownAt 0x3FFC0)) (vectorAddr (vectors (ownAt 0x3FFC0)) 5 0) 64 0x20000003FFC0
    ∧ ReadPlace (vectors (tileAt 0x4FFF00)) (vectorAddr (vectors (tileAt 0x4FFF00)) 5 0) 256 (tileBase 3 + 0x4FFF00)
    ∧ WritePlace (vectors (tileAt 0x4FFF00)) (vectorAddr (vectors (tileAt 0x4FFF00)) 5 0) 256 (tileBase 3 + 0x4FFF00) := by
  refine ⟨by unfold State.Canonical; decide +kernel, .inl ⟨0, ⟨.palette 0 true, 0x20000003FFC0, none, false⟩, readable_of (by decide +kernel), rfl⟩,
    .inl ⟨0, ⟨.palette 0 true, 0x20000003FFC0, none, false⟩, served_of (by decide +kernel), rfl⟩,
    .inr ⟨3, 0x4FFF00, by unfold TileServed; decide +kernel, by decide +kernel, by decide +kernel⟩, .inr ⟨3, 0x4FFF00, by unfold TileServed; decide +kernel, by decide +kernel⟩⟩

/-- Lane 0 alone is on, and its element is the last byte of the core's scratch. -/
def oneLane : State := let s := vectors (ownAt 0x3FFFF); s.setHart s.cur ((s.hart s.cur).wp 1 1)

/-- `VectorMemory`: indexed accesses of bytes, and a broadcast. -/
theorem witness_indexed : (∀ k < 16, LaneOn (me oneLane) (.pred 1) (laneFor 32 k) → ReadPlace oneLane (elementAddr oneLane 5 ⟨0, 9⟩ 1 k) 1 0x20000003FFFF
      ∧ WritePlace oneLane (elementAddr oneLane 5 ⟨0, 9⟩ 1 k) 1 0x20000003FFFF) ∧ ReadPlace oneLane (oneLane.rg oneLane.cur 5).toNat 1 0x20000003FFFF
    ∧ next (exec (.vstx (.pred 1) .i8 ⟨0, 4⟩ 5 ⟨0, 9⟩) (oneLane.wv (.slot 0) ⟨0, 4⟩ 0x7A)) (fun t => memRead t.mem 0x20000003FFFF == 0x7A) = true := by
  have r : Readable oneLane 0 (elementAddr oneLane 5 ⟨0, 9⟩ 1 0) 1 ⟨.palette 0 true, 0x20000003FFFF, none, false⟩ := readable_of (by decide +kernel)
  have w : Served oneLane 0 (elementAddr oneLane 5 ⟨0, 9⟩ 1 0) 1 .write ⟨.palette 0 true, 0x20000003FFFF, none, false⟩ := served_of (by decide +kernel)
  have g : (oneLane.rg oneLane.cur 5).toNat = elementAddr oneLane 5 ⟨0, 9⟩ 1 0 := by decide +kernel
  refine ⟨fun k hk h => ?_, by rw [g]; exact .inl ⟨0, _, r, rfl⟩, by decide +kernel⟩
  have h0 : ∀ k < 16, LaneOn (me oneLane) (.pred 1) (laneFor 32 k) = true → k = 0 := by decide +kernel
  obtain rfl := h0 k hk h
  exact ⟨.inl ⟨0, _, r, rfl⟩, .inl ⟨0, _, w, rfl⟩⟩

/-- Lanes 0 and 1 of tile 3 are on, and their elements lie at 0x1000 and `d` bytes beyond. -/
def twoLanes (d : Nat) : State :=
  let s := (vectors (tileAt 0x1000)).wv (.tile 3) ⟨0, 9⟩ (lanesOf [0, d])
  s.setHart s.cur ((s.hart s.cur).wp 1 3)

/-- `VectorMemory`: elements of one line have their turn together; those of two lines of one bank take a further ck. -/
theorem witness_turns : (∀ d ∈ [1, 0x80000], ∀ k < 64, LaneOn (me (twoLanes d)) (.pred 1) (laneFor 32 k) →
      TileServed (twoLanes d) 3 (elementAddr (twoLanes d) 5 ⟨0, 9⟩ 1 k) 1 true (0x1000 + if k = 0 then 0 else d))
    ∧ ((twoLanes 1).tile 3).turn = 0 ∧ bankOf 0x1000 = bankOf (0x1000 + 0x80000) ∧ 0x1000 / 256 ≠ (0x1000 + 0x80000) / 256 ∧ 0x1000 / 256 = (0x1000 + 1) / 256
    ∧ next (exec (.vstx (.pred 1) .i8 ⟨0, 4⟩ 5 ⟨0, 9⟩) (twoLanes 1)) (fun t => (t.tile 3).h.pc == 4 && (t.tile 3).turn == 0) = true
    ∧ next (exec (.vstx (.pred 1) .i8 ⟨0, 4⟩ 5 ⟨0, 9⟩) (twoLanes 0x80000)) (fun t => (t.tile 3).h.pc == 0 && (t.tile 3).turn == 1) = true := by
  unfold TileServed; decide +kernel

/-- `VectorMemory`: a core slot's access has its turn. -/
theorem witness_Apart : Apart oneLane (fun k => k < 64 ∧ LaneOn (me oneLane) (.pred 1) (laneFor 32 k) = true) (elementAddr oneLane 5 ⟨0, 9⟩ 1) (fun _ => 0x20000003FFFF) := by
  have c : oneLane.cur = .slot 0 := by decide +kernel
  refine ⟨fun t h => (by rw [c] at h; cases h), fun i h k n e _ _ _ => ?_⟩
  obtain rfl : 0 = i := by rw [c] at h; injection h
  decide +kernel

/-- `Conversions`: forms that pass the checks, with a residue, with a register pair and with the highest scale register. -/
theorem witness_Conversions : (∀ i ∈ [Instr.vcvtNarrowFp (.pred 1) .f16 .ef true ⟨0, 5⟩ ⟨0, 8⟩ 15, .vcvtNarrowInt (.pred 1) .e2m1 .rne false ⟨0, 5⟩ ⟨1, 3⟩ 0,
      .vcvtFxToFx128 (.pred 1) .rne ⟨0, 6⟩ ⟨0, 8⟩, .vqMx (.pred 1) .mx32e4m3 .rne 2 ⟨0, 8⟩ 31, .vdqMx (.pred 1) .mx32i8 ⟨0, 8⟩ 2 31], Legal (vectors onSlot0) i)
    ∧ (∀ i ∈ [Instr.vqMx (.pred 0) .mx32e4m3 .ef 2 ⟨0, 8⟩ 4], Legal (vectors onTile3) i ∧ ∀ j < groupSize (.tile 3) .mx32e4m3, groupAt ⟨0, 8⟩ (groupSize (.tile 3) .mx32e4m3 + j) ≠ ⟨0#1, 2⟩)
    ∧ (∀ i ∈ [Instr.vcvtFxFromFx128 (.pred 0) ⟨0, 5⟩ ⟨0, 8⟩, .vcvtWiden (.pred 0) .f16 .rne ⟨0, 5⟩ ⟨0, 8⟩], next (exec i (vectors onSlot0)) (fun t => (t.slot 0).h.pc == 4) = true) := by
  unfold Legal; decide +kernel

/-! ### Witnesses: tensor instructions and timed transfers -/

/-- A number in the memory of tile 3. -/
def putw (s : State) (off n x : Nat) : State := { s with mem := memPut s.mem (tileBase 3 + off) (bytesOfNat n x) }

/-- A template that zeroes the accumulators of 2 rows and 64 columns. -/
def zeroing : BitVec 256 := BitVec.ofNat 256 (0x4000 + 2 * 2 ^ 32 + 64 * 2 ^ 48)

/-- The last 32 bytes of the first 4,096 hold that template, at offset 2 from `g2`; tile 3 also has it as template 5; `g7` names its column alone. -/
def templated : State :=
  let s := setg (setg (putw onTile3 0xFE0 32 zeroing.toNat) 2 0x007F000000000FA0) 7 0x10003
  s.setTile 3 { s.tile 3 with r := { (s.tile 3).r with tmpl := (s.tile 3).r.tmpl.put 5 zeroing } }

/-- `TensorInstructions`: a template that is read, one amended in halfword 2, and a gang of one tile. -/
theorem witness_templates : templated.Canonical ∧ TileServed templated 3 ((((templated.rg templated.cur 2).toNat : Int) + 32 * (2 : BitVec 15).toInt) % 2 ^ 64).toNat 32 false 0xFE0
    ∧ templated.tmMarked 3 0xFE0 32 = false ∧ Amended ((templated.tile 3).tmplAt 5) (amend zeroing 2 3) 2 3 ∧ templated.tmplFault 3 (amend zeroing 2 3) = none
    ∧ (templated.tile 3).engineBusy (footTmpl (amend zeroing 2 3) 0 (tN (amend zeroing 2 3))) = none ∧ templated.queueFull 3 = false ∧ InDomain templated 3 1 dom1
    ∧ bitsAt (templated.rg templated.cur 7) 24 40 = 0 ∧ bitsAt (templated.rg templated.cur 7) (16 + 3 % 64 / 8) 1 = 1 ∧ gangOf 3 1 = [3] ∧ dom1.member 3 = true
    ∧ next (exec (.tload 4 2 2) templated) (fun u => (u.tile 3).tmplAt 4 == zeroing) = true ∧ next (exec (.tx 5 2 3) templated) (fun u => (u.tile 3).queue.length == 1) = true
    ∧ next (exec (.tgang 5 2 7) templated) (fun u => u.timers.contains (4, .gangQueueEntry 3 1 (amend zeroing 2 3))) = true := by
  unfold State.Canonical TileServed Amended InDomain; decide +kernel

/-- `g5` names the accumulator buffer of core 2's palette, and `g3` four lines. -/
def draining : State := setg (setg onTile3 5 (0x007F000010000000 + 2 * 0x40000 + 0x5000)) 3 0x400

/-- `TensorInstructions`: four lines to drain. -/
theorem witness_tdrain : bitsAt (draining.rg draining.cur 3) 8 12 = 4 ∧ draining.drainAim 3 (draining.rg draining.cur 5).toNat 1024 0 = .ok (2, 0x5000)
    ∧ ((draining.tile 3).drains.map (fun z => z.nl)).sum + 4 ≤ 1024 ∧ clmapChg (draining.clmapAt ((2 : CoreId).val / 8)) = false
    ∧ next (exec (.tdrain 5 3) draining) (fun u => (u.tile 3).drains == [⟨2, 0x5000, 0, 4, 0, 0, [], 0⟩]) = true :=
  ⟨by decide +kernel, ok_of (by decide +kernel), by decide +kernel, by decide +kernel, by decide +kernel⟩

/-- The descriptor of a `tred`, at 0x2000, and the operands that name it and source 0. -/
def redDesc : Vector Word 4 := #v[0x2000000, 0x40000000000, 0, 0x300000000000]
def reducing : State :=
  setg (setg (putw (putw (putw onTile3 0x2000 8 0x2000000) 0x2008 8 0x40000000000) 0x2018 8 0x300000000000) 5 0x2000) 3 0x4000

/-- `TensorInstructions`: a `tred` that passes its checks. -/
theorem witness_tred : DescriptorRead reducing 3 (reducing.rg reducing.cur 5).toNat redDesc ∧ tredOk redDesc = true ∧ tredMisaligned redDesc 0x4000 = none
    ∧ reducing.footFault 3 (footRed redDesc 0x4000) = none ∧ (reducing.tile 3).engineBusy (footRed redDesc 0x4000) = none ∧ reducing.queueFull 3 = false
    ∧ next (exec (.tred 5 3) reducing) (fun u => (u.tile 3).queue.map (fun o => o.kind) == [.red redDesc 0x4000]) = true := by
  unfold DescriptorRead OwnRange; decide +kernel

/-- The row-mask word at the end of tile 3's memory. -/
def rows : State := setg (setg (putw onTile3 0x4FFFF8 8 0x0F) 5 0x4FFFF8) 3 0x31

/-- `TensorInstructions`: a row-mask word that is set, cleared and read. -/
theorem witness_prow : tileOperand (rows.rg rows.cur 5).toNat = 0x4FFFF8 ∧ OwnRange rows 3 0x4FFFF8 8 false ∧ OwnRange rows 3 0x4FFFF8 8 true
    ∧ next (exec (.prowGet 4 5) rows) (fun u => u.rg (.tile 3) 4 == 0x0F) = true
    ∧ next (exec (.prowSet 5 3) rows) (fun u => u.tmNat 3 0x4FFFF8 8 == 0x3F && (u.tile 3).h.nst == 1) = true
    ∧ next (exec (.prowClr 5 3) rows) (fun u => u.tmNat 3 0x4FFFF8 8 == 0x0E && (u.tile 3).h.nst == 0) = true := by
  unfold OwnRange; decide +kernel

/-- `g5` names HBM and `g3` three lines to the end of tile 3's memory. -/
def moving (x : Nat) : State := setg (setg onTile3 5 0x40000000) 3 x

/-- The lines of a transfer between HBM and a tile. -/
def linesOf (s : State) (write : Bool) (n : Nat) : List TLine :=
  match s.timedLines 3 (if write then .write else .read) 0x40000000 n 0 with
  | .ok l _ => l
  | _ => []

/-- The lines are found, and the state does not change. -/
def found (s : State) (write : Bool) (n : Nat) : Bool :=
  match s.timedLines 3 (if write then .write else .read) 0x40000000 n 0 with
  | .ok _ u => u == s
  | _ => false

/-- Lines that are found are found without a change. -/
theorem found_spec {s : State} {write : Bool} {n : Nat} (h : found s write n = true) :
    s.timedLines 3 (if write then .write else .read) 0x40000000 n 0 = .ok (linesOf s write n) s := by
  unfold found at h
  unfold linesOf
  split at h <;> simp_all

/-- `TimedTransfers`: a transfer of no line, a line read and a line written at the end of the tile's memory, and three lines streamed. -/
theorem witness_TimedTransfers : MoveOperand (moving 0) 3 0x40000000 ((moving 0).rg (.tile 3) 3) false 0 0
    ∧ (∀ p ∈ [(false, 0x1004FFF00), (true, 0x80000001004FFF00)], MoveOperand (moving p.2) 3 0x40000000 ((moving p.2).rg (.tile 3) 3) p.1 1 0x4FFF00
      ∧ (moving p.2).timedLines 3 (if p.1 then .write else .read) 0x40000000 1 0 = .ok (linesOf (moving p.2) p.1 1) (moving p.2)
      ∧ (moving p.2).fetchFault 3 p.1 0x40000000 (linesOf (moving p.2) p.1 1) = none ∧ ((moving p.2).tile 3).pendingOf .fetch + 1 ≤ 4096
      ∧ next (exec (.tfetch 5 3) (moving p.2)) (fun u => (u.tile 3).writes.length == bitNat p.1 0 && (u.tile 3).lands.length == bitNat (!p.1) 0) = true)
    ∧ (∀ l ∈ linesOf (moving 0x3004FFD00) false 3, Streamable (moving 0x3004FFD00) l) ∧ (moving 0x3004FFD00).ownsPattern 3 = true
    ∧ ((moving 0x3004FFD00).tile 3).pendingOf .stream + 3 ≤ 4096
    ∧ next (exec (.tstream 5 3) (moving 0x3004FFD00)) (fun u => (u.tile 3).lands.map (fun l => l.slotCk.isSome) == [true, true, true]) = true := by
  refine ⟨by unfold MoveOperand; decide +kernel, ?_, by unfold Streamable; decide +kernel, by decide +kernel, by decide +kernel, by decide +kernel⟩
  intro p hp
  have h : ∀ p ∈ [(false, 0x1004FFF00), (true, 0x80000001004FFF00)], found (moving p.2) p.1 1 = true := by decide +kernel
  refine ⟨?_, found_spec (h p hp), ?_⟩
  · clear h; unfold MoveOperand; revert p; decide +kernel
  · clear h; revert p; decide +kernel

/-- Scratch lines: `g5` names the scratch of die 0's first slice. -/
def fromScratch : State := setg (setg onTile3 5 0x007F000080000000) 3 0x100001000

/-- Its line. -/
def scratchLine : List TLine := ((fromScratch.scratchLines (fromScratch.rg fromScratch.cur 5).toNat 0 1).toOption).getD []

/-- `TimedTransfers`: a line of slice scratch. -/
theorem witness_scratchLines : scratchOff (fromScratch.rg fromScratch.cur 5).toNat = some 0 ∧ (fromScratch.scratchLines (fromScratch.rg fromScratch.cur 5).toNat 0 1 = .ok scratchLine
      ∧ fromScratch.fetchFault 3 false (fromScratch.rg fromScratch.cur 5).toNat scratchLine = none)
    ∧ next (exec (.tfetch 5 3) fromScratch) (fun u => (u.tile 3).lands.map landKey == [(.fetch, 0x200080000000, 0x1000)]) = true := by
  exact ⟨by decide +kernel, ⟨ok_of (by decide +kernel), by decide +kernel⟩, by decide +kernel⟩

/-- A gather of two blocks of two lines, with the indices 3 and 1 at 0x2000. -/
def gathering : State :=
  setg (setg (putw onTile3 0x2000 8 0x100000003) 5 0x40000000) 3 (2 ^ 60 + 2 * 2 ^ 44 + 0x800 * 2 ^ 23 + 0x1000)

/-- A line is found, and the state does not change. -/
def foundLine (s : State) (va : Nat) : Option TLine :=
  match s.timedLine 3 .read va with
  | .ok l u => if u = s then some l else none
  | _ => none

/-- A line that is found is found without a change. -/
theorem foundLine_spec {s : State} {va : Nat} {l : TLine} (h : foundLine s va = some l) : s.timedLine 3 .read va = .ok l s := by
  unfold foundLine at h
  split at h <;> simp_all

/-- `TimedTransfers`: a gather whose conditions hold. -/
theorem witness_tgather : (gathering.tile 3).gatherStart 2 = 0 ∧ gathering.ownsPattern 3 = true ∧ bitsAt (gathering.rg (.tile 3) 3) 60 4 = 1 ∧ bitsAt (gathering.rg (.tile 3) 3) 44 16 = 2
    ∧ 4 * bitsAt (gathering.rg (.tile 3) 3) 23 21 = 0x2000 ∧ 0x1000 + 2 * 2 ^ 9 ≤ 0x2000 / 256 * 256 ∧ (gathering.tile 3).pendingOf .stream + 4 ≤ 4096
    ∧ (∀ k < 2, (gathering.tile 3).busy (0x2000 + 4 * k) 4 false = none ∧ gathering.tmMarked 3 (0x2000 + 4 * k) 4 = false
      ∧ ∃ l, gathering.timedLine 3 .read (0x40000000 + gathering.tmNat 3 (0x2000 + 4 * k) 4 * 2 ^ 9) = .ok l gathering ∧ Streamable gathering l)
    ∧ next (exec (.tgather 5 3) gathering) (fun u => (u.tile 3).r.gprog == gprogWord false 2 2 && (u.tile 3).lands.map (fun l => l.pa) == [0x20000600, 0x20000700, 0x20000200, 0x20000300]) = true := by
  refine ⟨by decide +kernel, by decide +kernel, by decide +kernel, by decide +kernel, by decide +kernel, by decide +kernel, by decide +kernel, ?_, by decide +kernel⟩
  intro k hk
  have h : ∀ k < 2, (foundLine gathering (0x40000000 + gathering.tmNat 3 (0x2000 + 4 * k) 4 * 2 ^ 9)).isSome = true
      ∧ ∀ l ∈ (foundLine gathering (0x40000000 + gathering.tmNat 3 (0x2000 + 4 * k) 4 * 2 ^ 9)).toList, Streamable gathering l := by
    unfold Streamable; decide +kernel
  obtain ⟨l, e⟩ := Option.isSome_iff_exists.mp (h k hk).1
  have b : ∀ k < 2, (gathering.tile 3).busy (0x2000 + 4 * k) 4 false = none ∧ gathering.tmMarked 3 (0x2000 + 4 * k) 4 = false := by decide +kernel
  exact ⟨(b k hk).1, (b k hk).2, l, foundLine_spec e, (h k hk).2 l (Option.mem_toList.mpr e)⟩

/-- `TimedTransfers`: the indices of the gather share one line, so that they come at once. -/
theorem witness_gatherLines : ∀ k < 2, ∀ m < 2, bankOf (0x2000 + 4 * k) = bankOf (0x2000 + 4 * m) → (0x2000 + 4 * k) / 256 = (0x2000 + 4 * m) / 256 := by decide

/-! ### Witnesses: the exchange, timed engines and the matrix array -/

/-- A state whose domain 1 is changed. -/
def withDom (s : State) (f : Domain → Domain) : State := { s with domains := s.domains.put 1 (f dom1) }

/-- A member of a cross-package domain. -/
def crossing : State := withDom onTile3 (fun x => { x with ent := ent false false true })

/-- `ExchangeInstructions`: an arrival in both kinds of domain, a vote, every domain state and a clear of THR, and every tap. -/
theorem witness_arrivals : InDomain onTile3 3 1 dom1 ∧ onTile3.enginesDone 3 = true ∧ (∃ x, InDomain crossing 3 1 x ∧ x.xpkg = true)
    ∧ next (exec .xsync onTile3) (fun u => (u.tile 3).wait == .barrier 1 4 && u.domains == [(1, { dom1 with arrived := [3] })]) = true
    ∧ next (exec .xsync crossing) (fun u => (u.tile 3).arrive == some 10) = true
    ∧ next (exec (.xvote 4 5) (setg onTile3 5 15)) (fun u => u.rg (.tile 3) 4 == 2 && (u.tile 3).r.vote == 15) = true
    ∧ (∀ p ∈ [(0, 1), (1, 4), (2, 10), (3, 2), (4, onTile3.exchangeEnd dom1), (5, 7), (6, 0), (22, 0)],
        next (exec (.xdom 4 5) (setg onTile3 5 p.1)) (fun u => u.rg (.tile 3) 4 == BitVec.ofNat 64 p.2) = true)
    ∧ ∀ p ∈ [(63, some 63), (128, none)], (∀ l, p.2 = some l → dom1.member l = true) ∧ next (exec (.xmux 5) (setg onTile3 5 p.1)) (fun u => (u.tile 3).r.tap == p.2) = true := by
  refine ⟨by unfold InDomain; decide +kernel, by decide +kernel, ⟨{ dom1 with ent := ent false false true }, by unfold InDomain; decide +kernel, by decide +kernel⟩,
    by decide +kernel, by decide +kernel, by decide +kernel, by decide +kernel, ?_⟩
  intro p hp
  have h : ∀ p ∈ [(63, some 63), (128, none)], p.2.all dom1.member = true ∧ next (exec (.xmux 5) (setg onTile3 5 p.1)) (fun u => (u.tile 3).r.tap == p.2) = true := by decide +kernel
  exact ⟨fun l e => by simpa [e] using (h p hp).1, (h p hp).2⟩

/-- `g5` names the last four words of the memory of tile 3, and `g3` holds their number. -/
def spans : State := setg (setg onTile3 5 0x4FFF00) 3 4

/-- `ExchangeInstructions`: a span to send and one to receive. -/
theorem witness_spans : max ((spans.tile 3).so + 1) (spansEnd (spans.tile 3).sends) = 11 ∧ spans.maySend 3 dom1 11 4 = true ∧ (spans.tile 3).sendBusy 0x4FFF00 256 = none
    ∧ (spans.tile 3).tclen ≤ 0x4FFF00 ∧ next (exec (.xsend 5 3) spans) (fun u => (u.tile 3).sends == [⟨0, 11, 4, 0x4FFF00, 0⟩] && u.agenda.contains (.xsendWord 3)) = true
    ∧ next (exec (.xrecv 5 3) spans) (fun u => (u.tile 3).recvs == [⟨0, 11, 4, 0x4FFF00, 0⟩]) = true := by decide +kernel

/-- The descriptor of an `xred` of one row of 64 bytes, at 0x2000. -/
def xredDesc : Vector Word 4 := #v[0x100000040, 0x300000004000, 0x5000, 0]
def contributing : State :=
  setg (setg (putw (putw (putw onTile3 0x2000 8 0x100000040) 0x2008 8 0x300000004000) 0x2010 8 0x5000) 5 0x2000) 3 77

/-- `ExchangeInstructions`: a contribution. -/
theorem witness_xred : DescriptorRead contributing 3 (contributing.rg contributing.cur 5).toNat xredDesc ∧ xredOk xredDesc = true ∧ xredMisaligned xredDesc = none
    ∧ contributing.footFault 3 (xredFoot xredDesc) = none ∧ (contributing.tile 3).engineBusy (xredFoot xredDesc) = none
    ∧ (∀ r ∈ (xredFoot xredDesc).rd, r.2 ≠ 0 → (contributing.tile 3).sendBusy r.1 r.2 = none)
    ∧ (∀ o ∈ [xrSMSK xredDesc, xrDMSK xredDesc], o = 0 ∨ contributing.tmMarked 3 o (8 * cdiv (xrROWS xredDesc) 64) = false)
    ∧ next (exec (.xred 5 3) contributing) (fun u => (u.tile 3).xreds.map (fun v => (v.tag, v.src.length)) == [(77, 64)]) = true := by
  unfold DescriptorRead OwnRange; decide +kernel

/-- A window with a delivered post, and one with none that does not open in this superstep. -/
def tenth (delivered : Bool) : Window :=
  { win7 with first := if delivered then 0 else 5, delivered := if delivered then some (Vector.replicate 8 9, 4) else none, defpost := Vector.replicate 8 5 }

/-- `ExchangeInstructions`: an armed issue ahead and late, and the record of a window with and without a post. -/
theorem witness_records : (∀ p ∈ [(10, false), (9, true)], next (exec (.xarmAt 5 3) (setg (setg onTile3 5 p.1) 3 1)) (fun u => (u.tile 3).armed == some (true, p.1) && (u.tile 3).r.late == p.2) = true)
    ∧ (tenth true).opensIn 4 = true ∧ (tenth false).opensIn 4 = false
    ∧ (∀ p ∈ [(true, 0x702, 9), (false, 0x707, 5)], let s := setg (withDom onTile3 (fun x => { x with windows := [tenth p.1] })) 5 p.2.1
        (s.windowOf (s.tile 3).lid 7).isSome ∧ next (exec (.wtake 4 5) s) (fun u => u.rg (.tile 3) 4 == BitVec.ofNat 64 p.2.2) = true) := by decide +kernel

/-- A line of `tstream` that lands at 0x1000, with its data or to be read in this ck. -/
def landing0 (held : Bool) : Landing :=
  { id := 4, seq := 0, kind := .stream, pa := 0x20000000, off := 0x1000, asked := 0, slotCk := some 0, pinned := false, page := none, held := if held then some (7, 0) else none, since := none, buf := false, own := false }

/-- The line at tile 3, and whether its bank has been written in this ck. -/
def landing (held busy : Bool) : State := base.setTile 3 { base.tile 3 with lands := [landing0 held], banks := if busy then [bankOf 0x1000] else [] }

/-- `TimedEvents`: an armed issue in time and late, in a domain that is strict and in one that is not; and a landing, with its bank free or taken. -/
theorem witness_landings : (∀ p ∈ [(10, false), (9, true)], ∀ b ∈ [false, true],
        let s := onEvent (withDom (base.setTile 3 { base.tile 3 with armed := some (true, p.1) }) (fun x => { x with ent := ent false b false })) (.armedIssue 3)
        decide ((s.tile 3).armed = some (true, p.1)) = true ∧ decide (p.1 < s.armClock 3 true) = p.2
          ∧ next (exec .armedIssue s) (fun u => (u.tile 3).armed == none && (u.tile 3).r.late == (p.2 && !b) && (u.tile 3).wait == (if p.2 && b then .stopped else .none)) = true)
    ∧ ∀ b ∈ [false, true], (landing true b).Canonical ∧ ((landing true b).tile 3).lands.find? (fun z => z.id == 4) = some (landing0 true) ∧ ((landing true b).tile 3).banks.contains (bankOf 0x1000) = b
      ∧ next (exec .tstreamLineArrival (onEvent (landing true b) (.tstreamLineArrival 3 4)))
          (fun u => memRead u.mem (tileBase 3 + 0x1000) == (if b then 0 else 7) && u.timers.contains (1, .tstreamLineArrival 3 4) == b) = true
      ∧ next (exec .landingBufferWrite (onEvent (landing true b) (.landingBufferWrite 3 4))) (fun u => (u.tile 3).lands.isEmpty == !b) = true := by
  unfold State.Canonical; decide +kernel

/-- Line 4 has lost its bank and waits in the landing buffer, or, where `store` is set, in the landing store; line 5 waits there for the same bank. -/
def waitingLines (store : Bool) : State :=
  (landing true false).setTile 3 { (landing true false).tile 3 with
    lands := [{ landing0 true with since := some 0, buf := !store }, { landing0 true with id := 5, off := 0x3000, since := some 1 }] }

/-- `TimedEvents`: a line of the landing store waits for the buffer of its bank; as a line leaves the buffer, the oldest line of the store enters it. -/
theorem witness_landingStore : InStore { landing0 true with since := some 0 } ∧ ¬ InStore { landing0 true with since := some 0, buf := true } ∧ bankOf 0x3000 = bankOf 0x1000
    ∧ next (exec .landingBufferWrite (onEvent (waitingLines true) (.landingBufferWrite 3 4))) (fun u => u.mem == (waitingLines true).mem && u.timers.contains (1, .tstreamLineArrival 3 4)) = true
    ∧ (((waitingLines false).tile 3).lands.map (fun l => (l.id, l.buf)) = [(4, true), (5, false)])
    ∧ next (exec .landingBufferWrite (onEvent (waitingLines false) (.landingBufferWrite 3 4))) (fun u => (u.tile 3).lands.map (fun l => (l.id, l.buf)) == [(5, true)]) = true := by
  unfold InStore; decide +kernel

/-- `TimedEvents`: a timed slot that reads a line, and a line on the ring. -/
theorem witness_slots : SlotLine (landing false false) (pchOf 0x20000000) (landing0 false) ∧ (∀ u : TileId, (((landing false false).tile u).lands.map (fun l => l.id)).Nodup)
    ∧ next (exec .hbmTimedSlot (onEvent (landing false false) (.hbmTimedSlot (pchOf 0x20000000)))) (fun u => u.timers.contains (512, .tstreamLineArrival 3 4)) = true
    ∧ next (exec .ringSlotArrival (onEvent (landing true false) (.ringSlotArrival 3 [4]))) (fun u => u.timers.contains (2, .landingBufferWrite 3 4)) = true := by
  unfold SlotLine; decide +kernel

/-- A line of `tfetch` for tile 3, and a line that tile 3 writes; entries of the ring slots that carry them. -/
def ringLine : Landing := { landing0 false with kind := .fetch, slotCk := none, pinned := true }
def ringWrite : WLine := { off := 0x3000, pa := 0x20000000, seq := 1, gone := false, page := none }
def onRing : State := { base.setTile 3 { base.tile 3 with lands := [ringLine], writes := [ringWrite] } with ck := 4096 }
def readSlot : Word := BitVec.ofNat 64 (2 ^ 61 + sliceStation (base.sliceNo 0x20000000) * 2 ^ 48 + tileStation 3 * 2 ^ 41)
def writeSlot : Word := BitVec.ofNat 64 (2 * 2 ^ 61 + tileStation 3 * 2 ^ 48 + sliceStation (sliceOf 0x20000000) * 2 ^ 41)

/-- `TimedEvents`: ring slots that carry lines both ways. -/
theorem witness_ringSlots : seOP readSlot = 1 ∧ stationTile 0 (seDST readSlot) % 128 = 3 ∧ onRing.slotReads 3 (seSRC readSlot) = [ringLine] ∧ seOP writeSlot ≠ 1
    ∧ stationTile 0 (seSRC writeSlot) % 128 = 3 ∧ onRing.slotWrites 3 (seDST writeSlot) = [ringWrite]
    ∧ next (exec .ringSlotDeparture (onEvent onRing (.ringSlotDeparture 0 readSlot))) (fun u => u.timers.contains (4096 + seDist readSlot, .ringSlotArrival 3 [4])) = true
    ∧ next (exec .ringSlotDeparture (onEvent onRing (.ringSlotDeparture 0 writeSlot))) (fun u => (u.tile 3).writes == [{ ringWrite with gone := true }]) = true := by decide +kernel

/-- A written line arrives at its slice; `full` fills the set with tentative lines of another domain. -/
def accepting (full : Bool) : State :=
  let z : Tent := { dom := 2, bytes := [], marks := 0, page := none }
  onEvent { base.setTile 3 { base.tile 3 with writes := [{ ringWrite with gone := true }] } with tent := if full then [(64 * 0x200000 + 2, z), (64 * 0x200000 + 3, z)] else [] }
    (.timedWriteAccept 3 0x20000000 5 0)

/-- `TimedEvents`: a tentative line with room and without. -/
theorem witness_timedWriteAccept : ∀ b ∈ [false, true], ((accepting b).tile 3).writes.find? (fun z => z.gone && z.pa == 0x20000000) = some { ringWrite with gone := true }
    ∧ InDomain (accepting b) 3 1 dom1 ∧ (accepting b).tentFull 0x200000 (64 * 0x200000 + 1) = b
    ∧ next (exec .timedWriteAccept (accepting b)) (fun u => (u.tent.find (64 * 0x200000 + 1)).isSome == !b && u.agenda.contains (.tileFaultHandling 3 { cause := 0x14, asy := true }) == b) = true := by
  unfold InDomain; decide +kernel

/-- Tile 3 sends the second word of its memory, and receives from its own lane a word that arrives at offset 10. -/
def exchanging : State :=
  let a := laneDelay 3 3
  (putw base 0x2040 1 0x5A).setTile 3 { base.tile 3 with
    sends := [⟨0, 10, 2, 0x2000, 1⟩], recvs := [⟨0, 10, 1, 0x3000, 0⟩], lane := [(74 - a, (BitVec.ofNat 512 0x77, false))], r := { (base.tile 3).r with tap := some 3 } }

/-- `TimedEvents`: a word that leaves, and one received. -/
theorem witness_exchange : (exchanging.tile 3).sending = some ⟨0, 10, 2, 0x2000, 1⟩ ∧ (exchanging.tile 3).receiving dom1.off = some ⟨0, 10, 1, 0x3000, 0⟩
    ∧ exchanging.tapped 3 dom1.off = some (0x77, false) ∧ InDomain exchanging 3 1 dom1 ∧ exchanging.Canonical
    ∧ next (exec .xsendWord (onEvent exchanging (.xsendWord 3))) (fun u => (u.tile 3).lane.find 75 == some (0x5A, false)) = true
    ∧ next (exec .exchangeReceive (onEvent exchanging (.exchangeReceive 3))) (fun u => memRead u.mem (tileBase 3 + 0x3000) == 0x77) = true := by
  unfold InDomain State.Canonical; decide +kernel

/-- An INT8 product of 1 row by 1 column with K = 2, A at 0x1000 and B at 0x2000; with an accumulator or a bias as its start. -/
def product (acc bias : Nat) : BitVec 256 :=
  BitVec.ofNat 256 (0x1660 + acc + bias * 2 ^ 25 + 2 ^ 32 + 2 ^ 48 + 2 * 2 ^ 64 + 0x10 * 2 ^ 80 + 0x20 * 2 ^ 96 + bias * 0x60 * 2 ^ 112 + 5 * 2 ^ 160 + 2 ^ 176 + 2 ^ 192 + 0x100 * 2 ^ 240)

/-- The matrix array of tile 3 completes an operation in this ck. -/
def computing (T : BitVec 256) : State :=
  let s := putw (putw (putw base 0x1000 2 0x02FF) 0x2000 2 0x0405) 0x6000 4 100
  onEvent (s.setTile 3 { s.tile 3 with queue := [⟨.tmpl T none, 0, some 0, [], []⟩], acc := [(5, 1000)] }) (.matrixOpComplete 3)

/-- `MatrixEvents`: products that start at 0, at the accumulator and at the bias, and a zeroing: -1 × 5 + 2 × 4 = 3. -/
theorem witness_products : (∀ p ∈ [(product 0 0, 3), (product 1 0, 1003), (product 0 1, 103)], (computing p.1).Canonical ∧ tOPC p.1 = 1 ∧ tAF p.1 = 6 ∧ tBF p.1 = 6 ∧ tmplOk p.1 = true
      ∧ (∀ r ∈ (footTmpl p.1 0 (tN p.1)).rd, (computing p.1).tmMarked 3 r.1 r.2 = false) ∧ ((computing p.1).tile 3).accMarks = [] ∧ tM p.1 = 1 ∧ tMSKS p.1 = 0 ∧ tMSKD p.1 = 0x8000 ∧ memRead (computing p.1).mem (tileBase 3 + 0x8000) = 0
      ∧ next (exec .matrixOpComplete (computing p.1)) (fun u => (u.tile 3).accAt 5 1 0 0 == p.2 && (u.tile 3).queue.isEmpty) = true)
    ∧ tOPC zeroing = 4 ∧ next (exec .matrixOpComplete (computing zeroing)) (fun u => (u.tile 3).accLine 5 == 1000 && (u.tile 3).accLine 1 == 0) = true := by
  unfold State.Canonical; decide +kernel

/-- The matrix array of tile 3 completes a `tred` of one line: 1.0 is added to the accumulator's 1.0. -/
def adding : State :=
  let s := putw base 0x4000 4 0x3F800000
  onEvent (s.setTile 3 { s.tile 3 with queue := [⟨.red redDesc 0x4000, 1, some 0, [], []⟩], acc := [(bitsAt redDesc[0] 37 11, 0x3F800000)] }) (.matrixOpComplete 3)

/-- `MatrixEvents`: what the reducer leaves, where no row is poisoned. -/
theorem witness_reduced : adding.Canonical ∧ tredOk redDesc = true ∧ ((adding.tile 3).queue.head?.all (fun o => !(adding.tile 3).drainBars o)) = true
    ∧ Unmarked adding 3 (footRed redDesc 0x4000)
    ∧ (∀ m < bitsAt redDesc[0] 25 12 / (bitsAt redDesc[0] 48 6 + 1), ¬ maskAtRow adding 3 (bitsAt redDesc[3] 32 32) m) ∧ bitsAt redDesc[2] 32 32 = 0
    ∧ (∀ l < bitsAt redDesc[0] 25 12, ∀ x < 64, (Fmt.fp32.decode (reduced adding 3 redDesc 0x4000 l x)).isNan = false ∧ (Fmt.fp32.decode (reduced adding 3 redDesc 0x4000 l x)).isInf = false)
    ∧ reduced adding 3 redDesc 0x4000 0 0 = 0x40000000
    ∧ next (exec .matrixOpComplete adding) (fun u => elemAt ((u.tile 3).accLine (bitsAt redDesc[0] 37 11)) 32 0 == 0x40000000) = true := by
  refine ⟨by unfold State.Canonical; decide +kernel, by decide +kernel, by decide +kernel, ⟨by decide +kernel, fun l => ?_⟩, ?_, by decide +kernel, by decide +kernel,
    by decide +kernel, by decide +kernel⟩
  · have : (adding.tile 3).accMarks = [] := by decide +kernel
    simp only [Tile.accLineMarks, this, List.contains_nil]
    decide
  · unfold maskAtRow; decide +kernel

/-- An operation of tile 3 that zeroes lines 0 and 1 of the accumulators completes, while an earlier drain has still to read line 1. -/
def barred : State :=
  let s := computing zeroing
  s.setTile 3 { s.tile 3 with queue := [⟨.tmpl zeroing none, 1, some 0, [], []⟩], drains := [⟨2, 0x5000, 0, 2, 0, 0, [(0x5A, 0)], 0⟩] }

/-- `MatrixEvents`: the operation completes a ck later. -/
theorem witness_barred : ((barred.tile 3).queue.map (fun o => (o.seq, o.kind.foot.accWr)) = [(1, 0, 2)] ∧ (barred.tile 3).drains.map (fun d => (d.seq, d.acc + d.got.length, d.acc + d.nl)) = [(0, 1, 2)])
    ∧ next (exec .matrixOpComplete barred) (fun u => u.timers.contains (1, .matrixOpComplete 3) && (u.tile 3).queue.map (fun o => o.left) == [some 1]) = true := by decide +kernel

/-- Tile 3 has read the one line of a drain to core 2. -/
def delivering : State :=
  onEvent (base.setTile 3 { base.tile 3 with drains := [{ core := 2, off := 0x5000, acc := 0, nl := 1, swo := 16, seq := 3, got := [(0x5A, 0)], put := 0 }] }) (.drainDelivery 3 3 0)

/-- A gang of one tile is on its way to the queue. -/
def ganged : State := onEvent (base.setTile 3 { base.tile 3 with gangs := [⟨.tmpl zeroing (some (0, 1)), 0, none, [], []⟩] }) (.gangQueueEntry 3 1 zeroing)

/-- `MatrixEvents`: a gang of one tile, and a drain that is delivered, or waits for its cluster. -/
theorem witness_drains : gangOf 3 1 = [3] ∧ clmapChg (delivering.clmapAt ((2 : CoreId).val / 8)) = false ∧ delivering.Canonical
    ∧ (∀ b ∈ palBanks (delivering.palette 2 + 0x5000) 256, delivering.bankServes (.event (.drainDelivery 3 3 0)) b = true)
    ∧ ((ganged.tile 3).gangs.head?).map (fun o => o.kind) = some (.tmpl zeroing (some (0, 1)))
    ∧ next (exec .gangQueueEntry ganged) (fun u => (u.tile 3).queue.map (fun o => o.kind) == [.tmpl zeroing (some (0, 1))]) = true
    ∧ next (exec .drainDelivery delivering) (fun u => memRead u.mem (u.palette 2 + 0x5000) == 0x5A && (u.tile 3).drains.isEmpty
        && u.agenda.contains (.syncUpdate (u.palette 2 + 16) 256 1 false none none)) = true
    ∧ clmapChg (({ delivering with clmap := [(0, 0xC0000000)] } : State).clmapAt ((2 : CoreId).val / 8)) = true
    ∧ next (exec .drainDelivery { delivering with clmap := [(0, 0xC0000000)] }) (fun u => u.timers.contains (1, .drainDelivery 3 3 0)) = true := by
  unfold State.Canonical; decide +kernel

/-- `MatrixEvents`: a line that a rollback may still take back, one whose release has been granted, one that a commit has claimed, and one whose bank has been used. -/
theorem witness_drainLines : InDomain (withDom delivering (fun x => { x with ent := ent true false false })) 3 1 { dom1 with ent := ent true false false }
    ∧ next (exec .drainDelivery (withDom delivering (fun x => { x with ent := ent true false false }))) (fun u => (u.tile 3).drains.length == 1 && u.timers.isEmpty) = true
    ∧ next (exec .drainDelivery (withDom delivering (fun x => { x with ent := ent true false false, releasing := true }))) (fun u => (u.tile 3).drains.isEmpty) = true
    ∧ ({ delivering with claims := [((delivering.palette 2 + 0x5000) / 64, 0)] } : State).claimed (delivering.palette 2 + 0x5000) 256 = true
    ∧ next (exec .drainDelivery { delivering with claims := [((delivering.palette 2 + 0x5000) / 64, 0)] }) (fun u => u.timers.contains (16, .drainDelivery 3 3 0)) = true
    ∧ (let s := { delivering with banks := (palBanks (delivering.palette 2 + 0x5000) 256).map (fun b => (b, .agent (.slot 0))) }
       (∃ b ∈ palBanks (delivering.palette 2 + 0x5000) 256, s.bankServes (.event (.drainDelivery 3 3 0)) b = false)
         ∧ next (exec .drainDelivery s) (fun u => u.timers.contains (1, .drainDelivery 3 3 0) && (u.tile 3).drains.length == 1) = true) := by
  unfold InDomain; decide +kernel

/-! ### Witnesses: events of domains -/

/-- Tile 3 and slot 0 wait for barrier 4 of domain 1, which is released now. -/
def releasing : State :=
  onEvent ((waiting (.barrier 1 4)).setTile 3 { base.tile 3 with wait := .barrier 1 4, r := { (base.tile 3).r with vote := 5, voted := true } }) (.barrierRelease 1)

/-- A tentative line of domain 1 at 0x20000100. -/
def tentative : State :=
  onEvent { base with tent := [(64 * 0x200001 + 1, { dom := 1, bytes := List.replicate 256 0x5A, marks := 0, page := none })] } (.promotion 1)

/-- A drain of a domain with pentimento, over several packages or not, that has not been delivered. -/
def undrained (xpkg : Bool) : State :=
  withDom (releasing.setTile 3 { releasing.tile 3 with drains := [{ core := 2, off := 0x5000, acc := 0, nl := 1, swo := 16, seq := 3, got := [], put := 0 }] }) (fun x => { x with ent := ent true false xpkg })

/-- `BarrierEvents`: a drain that puts a release off, a release for which a tile and a slot wait, and a promotion of one line. -/
theorem witness_BarrierEvents : releasing.Canonical ∧ releasing.domains.find 1 = some dom1 ∧ 3 ∈ dom1.tiles ∧ (releasing.tile 3).wait = .barrier 1 4 ∧ (releasing.tile 5).wait = .none
    ∧ (releasing.slot 0).wait = .barrier 1 4 ∧ 4 ≤ dom1.step ∧ tentative.Canonical ∧ ((tentative.tent.filter (fun p => p.2.dom == 1)).map (fun p => p.1 / 64)).Nodup
    ∧ (∀ p ∈ tentative.tent, p.2.bytes.length = 256)
    ∧ ({ dom1 with ent := ent true false false } : Domain).pent = true ∧ ((undrained true).tile 3).drains ≠ []
    ∧ next (exec .barrierRelease (undrained true)) (fun u => u.timers.contains (1, .barrierRelease 1)) = true
    ∧ next (exec .barrierRelease (undrained false)) (fun u => u.timers.isEmpty && (u.domains.find 1).any (fun y => y.step == 4)) = true
    ∧ next (exec .barrierRelease releasing) (fun u => (u.domains.find 1).any (fun y => y.step == 5 && y.off == 0) && (u.tile 3).h.pc == 4 && (u.tile 3).r.vote == 0 && (u.slot 0).st == .running) = true
    ∧ next (exec .promotion tentative) (fun u => memRead u.mem 0x200001FF == 0x5A && memRead u.mem 0x20000200 == 0) = true := by
  unfold State.Canonical; decide +kernel

/-- Window 7 of domain 1 in one of its states, with slot 0 waiting for the answer to its post, and tile 3 for its record. -/
def windowed (w : Window) (e : Event) : State :=
  onEvent (withDom ((waiting (.post 1 7)).setTile 3 { base.tile 3 with wait := .window 1 7 }) (fun x => { x with windows := [w] })) e

/-- Window 7 in the ck of its CLOSE. -/
def closingWindow (w : Window) : State := onEvent (withDom (base.setTile 3 { base.tile 3 with wait := .window 1 7 }) (fun x => { x with off := 60, windows := [w] })) (.windowClose 1 7)

/-- `WindowEvents`: in the ck of CLOSE a window with a post delivers it and stays open, and one that holds the clock goes on; a post to a slot
that is suspended, and one whose slot does not wait. -/
theorem witness_closing : (∀ w ∈ [win7, { win7 with posted := some (Vector.replicate 8 3) }], w.closing { dom1 with off := 60, windows := [w] } = true ∧ w.hold = true
      ∧ next (exec .windowClose (closingWindow w)) (fun u => ((u.tile 3).wait == .none) == w.posted.isSome && (u.domains.find 1).any (fun y => y.windows.all (fun v => v.isOpen))) = true)
    ∧ (∀ rd ∈ [none, some 4], next (exec .windowPostArrival (onEvent (withDom (waiting .idle) (fun x => { x with windows := [win7] })) (.windowPostArrival 0 rd 1 7 (Vector.replicate 8 1))))
        (fun u => (u.slot 0).wait == .idle) = true)
    ∧ (let s := windowed win7 (.windowPostArrival 0 (some 4) 1 7 (Vector.replicate 8 1))
       next (exec .windowPostArrival (s.setSlot 0 { s.slot 0 with st := .suspended })) (fun u => (u.slot 0).st == .suspended && (u.slot 0).wait == .none && (u.slot 0).h.pc == 4) = true) := by
  decide +kernel

/-- `WindowEvents`: an opening, a close with and without a post, posts to each state of a window, and a time-out. -/
theorem witness_WindowEvents : (∀ w ∈ [win7, { win7 with isOpen := false }, { win7 with posted := some (Vector.replicate 8 3) }],
      ({ dom1 with windows := [w] } : Domain).windows.find? (fun v => v.wid == 7) = some w
      ∧ next (exec .windowOpen (windowed w (.windowOpen 1 7))) (fun u => (u.domains.find 1).any (fun y => y.windows.any (fun v => v.isOpen))) = true
      ∧ next (exec .windowClose (windowed w (.windowClose 1 7))) (fun u => (u.tile 3).wait == .none && (u.domains.find 1).any (fun y => y.windows.any (fun v => v.delivered.isSome))) = true
      ∧ next (exec .windowPostArrival (windowed w (.windowPostArrival 0 (some 4) 1 7 (Vector.replicate 8 1))))
          (fun u => u.rg (.slot 0) 4 == (if !w.isOpen then 1 else if w.posted.isSome then 2 else 0)) = true
      ∧ next (exec .windowTimeout (windowed w (.windowTimeout 1 7))) (fun u => (u.tile 3).wait == .stopped && bitsAt (u.tile 3).h.cause 0 8 == 0x0F) = true)
    ∧ ((windowed win7 .packageReset).slot 0).st = .waiting ∧ ((windowed win7 .packageReset).slot 0).wait = .post 1 7
    ∧ (∀ t ∈ dom1.tiles, ∀ j ∈ ((windowed win7 .packageReset).tile t).journal, j.wid ≠ 7) := by decide +kernel

/-- The contribution of tile 3 to an INT32 sum of one row of 64 bytes at 0x4000. -/
def xred0 : Xred :=
  { seq := 0, desc := #v[0x2000000100000040, 0x300000004000, 0, 0], tag := 7, src := 5 :: List.replicate 63 0, smsk := [false], ssc := [], bad := [false], fin := false }

/-- Tiles 3 and 4 collect; tile 4 with the tag `g`. -/
def collecting (g : BitVec 16) : State :=
  let s := withDom base (fun x => { x with colTiles := [3, 4] })
  onEvent ((s.setTile 3 { s.tile 3 with xreds := [xred0] }).setTile 4 { s.tile 3 with xreds := [{ xred0 with tag := g }] }) (.collectiveComplete 1 0)

/-- Tile 4 has been stopped by the loss of a member. -/
def lost (s : State) : State := s.setTile 4 { s.tile 4 with wait := .stopped, r := { (s.tile 4).r with h := { (s.tile 4).r.h with cause := 0x15 } } }

/-- Their domain and contributions. -/
def colDom : Domain := { dom1 with colTiles := [3, 4] }
def colRow (g : BitVec 16) : List Xred := [xred0, { xred0 with tag := g }]

/-- `CollectiveEvents`: contributions that agree, and that do not; and the loss of a member. -/
theorem witness_CollectiveEvents : ((collecting 7).Canonical ∧ (collecting 7).domains.find 1 = some colDom ∧ (collecting 7).contributions 1 colDom 0 = some (colRow 7))
    ∧ ((collecting 8).Canonical ∧ (collecting 8).domains.find 1 = some colDom ∧ (collecting 8).contributions 1 colDom 0 = some (colRow 8))
    ∧ (NoLoss (collecting 7) colDom ∧ NoLoss (collecting 8) colDom ∧ ¬ NoLoss (lost (collecting 7)) colDom)
    ∧ (∀ c ∈ colDom.colTiles, (((collecting 7).tile (Fin.ofNat 128 c)).xreds[0]?).all (fun v =>
        !(collecting 7).tmMarked (Fin.ofNat 128 c) (xrDMSK v.desc) (8 * cdiv (xrROWS v.desc) 64)) = true)
    ∧ agree (colRow 7) = true ∧ agree (colRow 8) = false ∧ PlainSum colDom (collecting 7) (colRow 7)
    ∧ next (exec .collectiveComplete (collecting 7)) (fun u => memNat u.mem (tileBase 4 + 0x4000) 4 == 10 && (u.tile 3).xreds.all (fun v => v.fin)) = true
    ∧ next (exec .collectiveComplete (collecting 8)) (fun u => bitsAt (u.tile 4).h.cause 0 8 == 0x14) = true
    ∧ next (exec .collectiveMemberLost (onEvent (collecting 7) (.collectiveMemberLost 1))) (fun u => bitsAt (u.tile 4).h.cause 0 8 == 0x15) = true := by
  have p : agree (colRow 7) = true ∧ colRow 7 ≠ [] ∧ (colRow 7).length ≤ 65536 ∧ (∀ v ∈ colRow 7, xrOP v.desc = 2 ∧ xrRLEN v.desc % 64 = 0
      ∧ v.src.length = xrROWS v.desc * xrRLEN v.desc ∧ v.smsk.all (fun b => !b) = true ∧ v.bad.all (fun b => !b) = true) := by decide +kernel
  refine ⟨⟨by unfold State.Canonical; decide +kernel, by decide +kernel, by decide +kernel⟩, ⟨by unfold State.Canonical; decide +kernel, by decide +kernel, by decide +kernel⟩,
    by unfold NoLoss; decide +kernel, by decide +kernel, by decide +kernel, by decide +kernel, ⟨p.1, p.2.1, p.2.2.1, p.2.2.2, ?_⟩,
    by decide +kernel, by decide +kernel, by decide +kernel⟩
  have h : ∀ c ∈ colDom.colTiles, (((collecting 7).tile (Fin.ofNat 128 c)).xreds[colDom.colDone]?).all (fun v => decide (xrDST v.desc + xrROWS v.desc * xrRLEN v.desc ≤ 0x800000)) = true := by
    decide +kernel
  intro c hc v e
  have := h c hc
  rw [e] at this
  simpa using this

/-- A fault of tile 3, with a fault ring at 0x40000000 in queue 0, in a domain with or without pentimento. -/
def faulting (pent : Bool) (f : FaultInfo) : State :=
  let s := withDom ((mapped base).setTile 3 { base.tile 3 with wait := .stopped }) (fun x => { x with ent := ent pent false false })
  onEvent { s with queues := [(0, ⟨#v[0x8001000000000000, 0, 0x40000000, 0, 0, 0, 0, 0], [], 0, 0⟩)] } (.tileFaultHandling 3 f)

/-- The result waits. -/
def waits {α : Type} (r : Res α) : Bool :=
  match r with
  | .wait .. => true
  | _ => false

/-- A result that is found to wait does. -/
theorem waits_of {α : Type} {r : Res α} (h : waits r = true) : ∃ w u, r = .wait w u := by
  cases r with
  | wait w u => exact ⟨w, u, rfl⟩
  | _ => simp [waits] at h

/-- `RecoveryEvents`: a fault that the host serves, one that a rollback answers, and one that ends the launch. -/
theorem witness_tileFaults : (∀ p ∈ [(true, 0x17, 0), (true, 0x11, 1), (false, 0x05, 2)], let s := faulting p.1 { cause := p.2.1 }
      answerOf { cause := p.2.1 } = p.2.2 ∧ s.Canonical ∧ (s.tile 3).lid = some 1 ∧ s.launches.find 1 = some launch1 ∧ launch1.fault = none ∧ (s.tile 3).wait = .stopped ∧ s.skew = false
      ∧ (s.domainOf 3).isSome
      ∧ next (exec .tileFaultHandling s) (fun u => (u.domains.find 1).any (fun y => y.service == (p.2.2 == 0)) && u.agenda.contains (.rollback 1) == (p.2.2 == 1)
          && (u.launches.find 1).any (fun l => (l.st == .leaving) == (p.2.2 == 2))) = true)
    ∧ ({ dom1 with ent := ent true false false } : Domain).pent = true ∧ dom1.releasing = false ∧ dom1.unprot = false ∧ dom1.rollbacks < 3 := by
  unfold State.Canonical; decide +kernel

/-- Tile 3 has a fault that a rollback answers, in domain 1 with pentimento, changed. -/
def repeating (f : Domain → Domain) : State :=
  let s := faulting true { cause := 0x11 }
  { s with domains := s.domains.map (fun p => (p.1, f p.2)) }

/-- `RecoveryEvents`: such a fault ends the launch where pentimento is off, the superstep is unprotected, or it has been repeated three times; it waits for a release, and
a skew step of the package answers for it. -/
theorem witness_noRollback : (∀ s ∈ [faulting false { cause := 0x11 }, repeating (fun x => { x with unprot := true }), repeating (fun x => { x with rollbacks := 3 })],
      (s.tile 3).lid = some 1 ∧ s.skew = false ∧ (s.domainOf 3).isSome ∧ next (exec .tileFaultHandling s) (fun u => (u.launches.find 1).any (fun l => l.st == .leaving)) = true)
    ∧ (let s := repeating (fun x => { x with releasing := true })
       (s.domains.find 1).any (fun x => x.releasing) = true ∧ next (exec .tileFaultHandling s) (fun u => u.timers.contains (1, .tileFaultHandling 3 { cause := 0x11 })) = true)
    ∧ (let s : State := { repeating id with skew := true }
       next (exec .tileFaultHandling s) (fun u => u == s) = true) := by decide +kernel

/-- A fault for the host, whose fault ring lies in a page under migration. -/
def faultMigrating : State := putNat (faulting true { cause := 0x17 }) 0x10010 8 0x2000103F

/-- A fault for the host, whose queue has no fault ring. -/
def faultUnserved : State := { faulting true { cause := 0x17 } with queues := [] }

/-- `RecoveryEvents`: a record that is written, one that waits, and one that the queue does not take. -/
theorem witness_faultRecords : (∃ v, (faulting true { cause := 0x17 }).faultRecord 0 1 3 ((faulting true { cause := 0x17 }).tileWord 3) = .ok true v
      ∧ decide (v.domainOf 3 = (faulting true { cause := 0x17 }).domainOf 3) = true)
    ∧ (∃ w v, faultMigrating.faultRecord 0 1 3 (faultMigrating.tileWord 3) = .wait w v) ∧ (∃ v, faultUnserved.faultRecord 0 1 3 (faultUnserved.tileWord 3) = .ok false v)
    ∧ next (exec .tileFaultHandling faultMigrating) (fun u => u.timers.any (fun p => p.2 == .tileFaultHandling 3 { cause := 0x17 })) = true
    ∧ next (exec .tileFaultHandling faultUnserved) (fun u => (u.launches.find 1).any (fun l => l.st == .leaving)) = true := by
  refine ⟨gives_of (by decide +kernel), waits_of (by decide +kernel), ?_, by decide +kernel, by decide +kernel⟩
  obtain ⟨v, h, -⟩ := gives_of (r := faultUnserved.faultRecord 0 1 3 (faultUnserved.tileWord 3)) (a := false) (p := fun _ => true) (by decide +kernel)
  exact ⟨v, h⟩

/-- Tile 3 has a checkpoint and the shadows of a memory line and of an accumulator line. -/
def rolling : State :=
  let s := withDom base id
  onEvent (s.setTile 3 { s.tile 3 with checkpoint := some { (s.tile 3).r with h := { (s.tile 3).h with pc := 0x80 } }, shadow := [⟨false, 16, 0x77, 0⟩, ⟨true, 5, 9, 0⟩] }) (.rollback 1)

/-- `RecoveryEvents`: a rollback. -/
theorem witness_rollback : rolling.domains.find 1 = some dom1 ∧ rolling.Canonical ∧ rolling.stoppedBy dom1 0x15 = none ∧ rolling.stoppedBy dom1 0x16 = none ∧ ShadowsSound rolling dom1
    ∧ next (exec .rollback rolling) (fun u => memRead u.mem (tileBase 3 + 0x1000) == 0x77 && (u.tile 3).accLine 5 == 9 && (u.tile 3).h.pc == 0x80 && (u.domains.find 1).any (fun y => y.rollbacks == 1)) = true := by
  unfold ShadowsSound State.Canonical; decide +kernel

/-- Window 7 has delivered its record of this superstep, after that of superstep 3. -/
def deliveredTwice : Window := { win7 with delivered := some (Vector.replicate 8 9, 4), prior := some (Vector.replicate 8 2, 3) }

/-- `RecoveryEvents`: the repeat of a superstep whose window has delivered finds the record before that; one with a post that was accepted keeps it. -/
theorem witness_repeatedWindow : deliveredTwice.deliveredIn 4 = true
    ∧ next (exec .rollback (withDom rolling (fun x => { x with windows := [deliveredTwice] }))) (fun u =>
        (u.domains.find 1).any (fun y => y.windows == [{ deliveredTwice with isOpen := false, delivered := some (Vector.replicate 8 2, 3) }])) = true
    ∧ next (exec .rollback (withDom rolling (fun x => { x with windows := [{ win7 with posted := some (Vector.replicate 8 3) }] }))) (fun u =>
        (u.domains.find 1).any (fun y => y.windows.map (fun w => (w.isOpen, w.kept)) == [(false, true)])) = true := by decide +kernel

/-! ### Witnesses: copies, scale-out, queues and launches -/

/-- The copy of slot 0 is in flight, and something of it happens; its 64 bytes go from line 0x20000000 to line 0x20000100. -/
def inFlight (c : Copy) (e : Event) : State := onEvent { onSlot0 with copies := [(5, c)], mem := memPut [] 0x20000000 [0x11, 0x22] } e

/-- The copy, with all its bytes sent and one piece open. -/
def copy1 : Copy := { copy0 with sent := 64, opn := [0], sync := some (0, 0x3FFF0) }

/-- Its piece, at its agent: still to read, or with the writes that are left. -/
def piece0 (todo : Option (List DstRun)) (aimed : Bool) : Piece :=
  { copy := 5, first := 0, agent := sliceOf 0x20000000, line := 0x20000000, page := none, runs := [(0, 0x40000100, 64)], len := 64, marks := [], arrived := true, todo := todo, aimed := aimed, begun := false }

/-- A write of three bytes at 0x40000100. -/
def run0 (va : Nat) : DstRun := { va := va, pal := none, pa := 0x20000100, page := none, bytes := [1, 2, 3] }

/-- The piece is in flight, and something of it happens. -/
def pieceAt (c : Copy) (x : Piece) (e : Event) : State := { inFlight c e with pieces := [(9, x)] }

/-- Every destination is ready. -/
def aimed (x : Dests) (l : List DstRun) : Bool :=
  match x with
  | .ok m _ => m == l
  | _ => false

/-- Destinations that are found ready are. -/
theorem aimed_of {x : Dests} {l : List DstRun} (h : aimed x l = true) : ∃ u, x = .ok l u := by
  cases x with
  | ok m u => exact ⟨u, by simpa [aimed] using h⟩
  | _ => simp [aimed] at h

/-- A destination faults. -/
def aimFaults (x : Dests) : Bool :=
  match x with
  | .fault .. => true
  | _ => false

/-- Destinations that are found to fault do. -/
theorem aimFaults_of {x : Dests} (h : aimFaults x = true) : ∃ code cause synd, x = .fault code cause synd := by
  cases x with
  | fault a b c => exact ⟨a, b, c, rfl⟩
  | _ => simp [aimFaults] at h

/-- The piece once its unit's walk for a destination has come back. -/
def walked (s : State) : State :=
  match exec .copyPiece s with
  | .next u => { u with ck := 64, event := s.event, timers := [] }
  | _ => s

/-- A piece whose destination does not translate, with the line of the page table in L2. -/
def astray : Piece := piece0 (some [run0 0x70000000]) false
def strayed : State :=
  let s := pieceAt copy1 astray (.copyPiece 9)
  { s with lines := (0, { st := .ready, dirty := false, hostHeld := 0, asked := 0, pins := 0 }) :: s.lines }

/-- `CopyEvents`: a piece that may read its line, and pieces whose destinations are translated and fault. -/
theorem witness_copyPiece : (inFlight copy1 .packageReset).Canonical ∧ (inFlight copy1 .packageReset).copies.find 5 = some copy1
    ∧ (let s := pieceAt copy1 (piece0 none false) (.copyPiece 9)
       UnitServes s { s with rerouting := false } (.copyPiece 9) (s.agentPlace 0x20000000) (0x20000000 + 0) none (64 - 0) false ∧ s.marked 0x20000000 64 = false)
    ∧ (let s := pieceAt copy1 (piece0 (some [run0 0x40000100]) false) (.copyPiece 9)
       next (exec .copyPiece s) (fun u => u.timers.any (fun p => p.2 == .piecePush 9)) = true)
    ∧ next (exec .copyPiece strayed) (fun u => u.timers.contains (64, .copyPiece 9)) = true
    ∧ (walked strayed).pieces.find 9 = some astray
    ∧ next (exec .copyPiece (walked strayed)) (fun u => (u.copies.find 5).any (fun c => c.stop.any (fun z => z.code == 2))) = true := by
  unfold UnitServes State.Canonical; decide +kernel

/-- `CopyEvents`: the destinations of those pieces. -/
theorem witness_aimRuns : (let x := piece0 (some [run0 0x40000100]) false
      let s := pieceAt copy1 x (.copyPiece 9)
      ∃ u, (s.setPiece 9 x).aimRuns copy1 (x.agent / 32) [run0 0x40000100]
        = .ok [{ run0 0x40000100 with page := some { va := 0x40000000, bits := 29, asid := 0x11, glob := false } }] u)
    ∧ ∃ code cause synd, ((walked strayed).setPiece 9 astray).aimRuns copy1 (astray.agent / 32) [run0 0x70000000]
        = .fault code cause synd :=
  ⟨aimed_of (by decide +kernel), aimFaults_of (by decide +kernel)⟩

/-- `CopyEvents`: a write that another follows, and the last one, with a sync word and without. -/
theorem witness_piecePush : (∀ l ∈ [[run0 0x40000100], [run0 0x40000100, run0 0x40000200]], let s := pieceAt copy1 (piece0 (some l) true) (.piecePush 9)
      UnitServes s (s.underway (.piecePush 9)) (.piecePush 9) (s.agentPlace (runPlace s (run0 0x40000100))) (runPlace s (run0 0x40000100)) none 3 true
      ∧ next (exec .piecePush s) (fun u => memRead u.mem 0x20000102 == 3 && (u.pieces.find 9).isSome == (l.length == 2) && (l.length == 2) == u.timers.contains (1, .piecePush 9)) = true)
    ∧ next (exec .piecePush (pieceAt copy1 (piece0 (some [run0 0x40000100]) true) (.piecePush 9))) (fun u => u.timers.any (fun p =>
        match p.2 with
        | .syncUpdate 0x20000003FFF0 64 0 false _ (some (.copy 5 0)) => true
        | _ => false)) = true
    ∧ next (exec .piecePush (pieceAt { copy1 with sync := none } (piece0 (some [run0 0x40000100]) true) (.piecePush 9))) (fun u =>
        u.timers.any (fun p => p.2 == .updateAcknowledgment 5 0)) = true := by
  unfold UnitServes; decide +kernel

/-- The copy without its sync word, and once its arrival is on its way. -/
def mute : Copy := { copy1 with sync := none }
def copyDone : Copy := { copy1 with closing := true, done := true }

/-- The line of its parameter block is claimed by a commit of slot 1. -/
def completing (c : Copy) (claimed : Bool) : State :=
  let s := inFlight c (.copyCompletion 5)
  { s with claims := if claimed then [((s.palette 0 + c.block + 56) / 64, 1)] else [] }

/-- `CopyEvents`: the last acknowledgment; the completion at once, while the cluster is in change and while a commit has claimed the line; and the acknowledgment
of the arrival. -/
theorem witness_completion : Finished { copy1 with opn := copy1.opn.erase 0 } ∧ statOf { copy1 with closing := true } = 2 ^ 56 + 64 ∧ copy1.done = false ∧ copyDone.done = true
    ∧ next (exec .updateAcknowledgment (inFlight copy1 (.updateAcknowledgment 5 0))) (fun u => u.agenda.contains (.copyCompletion 5)) = true
    ∧ next (exec .updateAcknowledgment (inFlight copyDone (.updateAcknowledgment 5 64))) (fun u => u.copies.isEmpty) = true
    ∧ (∀ c ∈ [copy1, mute], let s := completing c false
       s.changing (s.palette 0 + c.block + 56) = false ∧ s.claimed (s.palette 0 + c.block + 56) 8 = false
       ∧ (∀ b ∈ palBanks (s.palette 0 + c.block + 56) 8, s.bankServes (.event (.copyCompletion 5)) b = true)
       ∧ next (exec .copyCompletion s) (fun u => u.copies.find 5 == c.sync.map (fun _ => { copy1 with done := true }) && memNat u.mem (s.palette 0 + c.block + 56) 8 == 2 ^ 56 + 64
          && u.timers.contains (4, .syncUpdate (s.palette 0 + 0x3FFF0) 0 1 false none (some (.copy 5 64))) == c.sync.isSome) = true)
    ∧ (let s := { inFlight copy1 (.copyCompletion 5) with clmap := [(0, 0xC0000000)] }
       s.changing (s.palette 0 + copy1.block + 56) = true ∧ next (exec .copyCompletion s) (fun u => u.timers.contains (1, .copyCompletion 5)) = true)
    ∧ (let s := completing copy1 true
       s.changing (s.palette 0 + copy1.block + 56) = false ∧ s.claimed (s.palette 0 + copy1.block + 56) 8 = true
       ∧ next (exec .copyCompletion s) (fun u => u.timers.contains (16, .copyCompletion 5)) = true) := by
  unfold Finished; decide +kernel

/-- A remote copy of 64 bytes to rank 7, which the job holds, or does not. -/
def rcopy : Copy := { copy0 with kind := .remote, blk := copy0.blk.set 5 7 }
def sending (job : Bool) (c : Copy) (e : Event) : State :=
  { inFlight c e with job := if job then [(7, ⟨0x1234, true, .k2, 3⟩)] else [] }

/-- Its port, and the state and the copy once it has taken a PDC (R451). -/
def packetPort : Nat := ((sending true rcopy .packageReset).portOfCopy rcopy ⟨0x1234, true, .k2, 3⟩).getD 9
def begun : State × Copy := (sending true rcopy .packageReset).startPackets 5 rcopy ⟨0x1234, true, .k2, 3⟩ packetPort
def formed (s : State) (c : Copy) : Bool :=
  match s.formPacket (.uetPacketTransmit 5 0) c (lineRuns (c.src + 0 * 2048) (min 2048 (c.total - 0 * 2048))) [] false with
  | .ok _ _ v => c.pdc.any (fun n => (v.pdcs.find n).isSome)
  | _ => false

/-- Both ports of the rank are in training. -/
def retraining : State :=
  let s := sending true rcopy (.uetPacketTransmit 5 0)
  { s with ue := s.ue.map (fun x => { x with training := true }) }

/-- A packet of another rank for 0x40000100, the first of its PDC and the only one of its copy. -/
def packet0 : RPacket :=
  { src := 7, pdc := 2, rod := true, psn := 0, base := 0, psn0 := 0, k := 0, n := 1, ctx := 1, dst := 0x40000100, sync := some (0, 0x3FFF0), rbar := 0, data := [1, 2, 3], marked := false, err := false, ui := none }

/-- A PDC with the packet of the remote copy in flight. -/
def pdc0 (tries : Nat) : Pdc := { rank := 7, port := 0, rod := true, next := 1, cum := 0, acked := [], pkts := [(0, 5, 0)], tries := tries, since := 0, sentAt := 0 }
def acked (tries : Nat) (e : Event) : State := { sending true { rcopy with opn := [0], kept := [(0, [1])], sent := 64, sync := some (0, 0x3FFF0), pdc := some 2 } e with pdcs := [(2, pdc0 tries)] }

/-- `RemoteCopies`: a packet to a rank outside the job and to one of it; a packet received and received again; an acknowledgment; time-outs below and at the limit. -/
theorem witness_RemoteCopies : rcopy.rpkg = 7 ∧ (sending false rcopy .packageReset).job.find 7 = none ∧ packetPort < 2
    ∧ (sending true rcopy .packageReset).portOfCopy rcopy ⟨0x1234, true, .k2, 0⟩ = none ∧ rcopy.pdc = none
    ∧ (begun.2.pdc.isSome ∧ formed begun.1 begun.2 = true ∧ begun.1.behind 5 begun.2 = false ∧ ((sending true rcopy .packageReset).uePort packetPort).training = false)
    ∧ ((retraining.portOfCopy rcopy ⟨0x1234, true, .k2, 3⟩).any (fun p => (retraining.uePort p).training) = true
        ∧ next (exec .uetPacketTransmit retraining) (fun u => u.timers.contains (1, .uetPacketTransmit 5 0)) = true)
    ∧ next (exec .uetPacketTransmit (sending false rcopy (.uetPacketTransmit 5 0))) (fun u => (u.copies.find 5).any (fun c => c.stop.any (fun x => x.code == 8 && x.cause == 0x1C))) = true
    ∧ next (exec .uetPacketTransmit (sending true rcopy (.uetPacketTransmit 5 0))) (fun u => (u.copies.find 5).any (fun c => c.sent == 64 && c.opn == [0])) = true
    ∧ packet0.psn ∉ ((sending true rcopy .packageReset).rxOf 7 2).taken ∧ ((sending true rcopy .packageReset).rxOf 7 2).early = [] ∧ (sending true rcopy .packageReset).syncRefused packet0 = none
    ∧ next (exec .uetPacketReceive (sending true rcopy (.uetPacketReceive packet0))) (fun u => memRead u.mem 0x20000102 == 3 && (u.rxOf 7 2).taken == [0]
        && u.agenda.contains (.syncUpdate 0x20000003FFF0 3 0 false none none) && u.agenda.contains (.syncUpdate 0x20000003FFF0 0 1 false none none)) = true
    ∧ (acked 0 .packageReset).pdcs.find 2 = some (pdc0 0) ∧ (pdc0 0).pkts.find? (fun p => p.1 == 0) = some (0, 5, 0)
    ∧ next (exec .uetAck (acked 0 (.uetAck 2 0 none))) (fun u => (u.copies.find 5).any (fun c => c.opn == [] && c.kept == [] && c.upd == [0])
        && u.timers.any (fun p => p.2 == .syncUpdate 0x20000003FFF0 1 0 false none (some (.copy 5 0)))) = true
    ∧ next (exec .uetAck (acked 0 (.uetAck 2 0 (some (0x0A, 3))))) (fun u => (u.copies.find 5).any (fun c => c.stop.isSome)) = true
    ∧ next (exec .uetReplayTimeout (acked 15 (.uetReplayTimeout 2))) (fun u => (u.pdcs.find 2).any (fun x => x.tries == 16)) = true
    ∧ next (exec .uetReplayTimeout (acked 16 (.uetReplayTimeout 2))) (fun u => u.agenda.contains (.uetGiveUp 2)) = true
    ∧ next (exec .uetGiveUp (acked 16 (.uetGiveUp 2))) (fun u => (u.copies.find 5).any (fun c => c.stop.any (fun x => x.code == 8)) && (u.pdcs.find 2).any (fun x => x.pkts.isEmpty)) = true := by
  decide +kernel

/-- A landing is ready at one place, and its state passes a check. -/
def landsAt (x : Landed) (l : List (Nat × List Byte)) (p : State → Bool) : Bool :=
  match x with
  | .ok m u => m == l && p u
  | _ => false

/-- A landing that is found ready is. -/
theorem landsAt_of {x : Landed} {l : List (Nat × List Byte)} {p : State → Bool} (h : landsAt x l p = true) : ∃ u, x = .ok l u ∧ p u = true := by
  cases x with
  | ok m u =>
    simp only [landsAt, Bool.and_eq_true, beq_iff_eq] at h
    exact ⟨u, by rw [h.1], h.2⟩
  | _ => simp [landsAt] at h

/-- The packet is next for its PDC, and lands in HBM. -/
theorem witness_Lands : ∃ w, Lands (sending true rcopy (.uetPacketReceive packet0)) w packet0 0 0x20000100 := by
  obtain ⟨w, h, hw⟩ := landsAt_of (x := (sending true rcopy (.uetPacketReceive packet0)).checkLanding (.uetPacketReceive packet0) 1 (splitRun 64 0x40000100 [1, 2, 3]))
    (l := [(0x20000100, [1, 2, 3])]) (p := fun w => Memory.wf w.mem && (w.rxOf 7 2).early.isEmpty) (by decide +kernel)
  obtain ⟨v, hv, hs⟩ := gives_of (r := (sending true rcopy (.uetPacketReceive packet0)).rbarAim packet0) (a := 0)
    (p := fun v => decide (v.syncRefused packet0 = none) && decide (v = sending true rcopy (.uetPacketReceive packet0))) (by decide +kernel)
  simp only [Bool.and_eq_true, decide_eq_true_eq] at hw hs
  have z : ((sending true rcopy (.uetPacketReceive packet0)).rxOf 7 2).copyOf packet0 = none := by decide +kernel
  refine ⟨w, by decide +kernel, fun _ => by decide +kernel, fun y hy => ?_, rfl, hw.1, List.isEmpty_iff.mp hw.2, v, hv, fun _ => hs.1, by rw [hs.2]; exact h⟩
  have : ((sending true rcopy (.uetPacketReceive packet0)).rxOf 7 2).copyOf packet0 = some y := hy
  rw [z] at this
  cases this

/-! ### Witnesses: queues and launches -/

/-- Queue 3 with context 1, PRIV and EN, its ring at 0x40001000, and these packets. -/
def queue3 (l : List Packet) : Queue := ⟨#v[0xC001000000000000, 0x40001000, 0x40002000, 0, 0, 0, 0, 0], l, 0, 0⟩

/-- A packet of this type and operands, without a signal or a result record. -/
def packet (t : Nat) (a0 a1 a2 : Nat) : Packet := ⟨0, #v[0x8000000000000000#64 + BitVec.ofNat 64 (t * 2 ^ 48), BitVec.ofNat 64 a0, 0, 0, BitVec.ofNat 64 a1, BitVec.ofNat 64 a2, 0, 0], true, none, none, 0⟩

/-- A package with page tables, queue 3 with these packets, and pool record 9 valid and not armed. -/
def queued3 (l : List Packet) (e : Event) : State :=
  onEvent { mapped base with boot := { base.boot with st := .running }, queues := [(3, queue3 l)], pool := [(9, (Vector.replicate 16 0).set 0 0x8001000000000000)] } e

/-- A ring that holds a fence packet. -/
def ringed (e : Event) : State := putNat (queued3 [] e) 0x20001000 8 0x8002000000000000

/-- The result is a fault. -/
def faults {α : Type} (r : Res α) : Bool :=
  match r with
  | .fault .. => true
  | _ => false

/-- A result that is found to be a fault is one. -/
theorem faults_of {α : Type} {r : Res α} (h : faults r = true) : ∃ f u, r = .fault f u := by
  cases r with
  | fault f u => exact ⟨f, u, rfl⟩
  | _ => simp [faults] at h

/-- The result is a value, which with its state passes a check. -/
def comes {α : Type} (r : Res α) (p : α → State → Bool) : Bool :=
  match r with
  | .ok x u => p x u
  | _ => false

/-- A result that is found to be a value is one. -/
theorem comes_of {α : Type} {r : Res α} {p : α → State → Bool} (h : comes r p = true) : ∃ x u, r = .ok x u ∧ p x u = true := by
  cases r with
  | ok x u => exact ⟨x, u, rfl, h⟩
  | _ => simp [comes] at h

/-- A reading comes to a value, which with its state passes a check. -/
def reads {α : Type} (r : Load α) (p : α → State → Bool) : Bool :=
  match r with
  | .ok x u => p x u
  | _ => false

/-- A reading that is found to come to a value does. -/
theorem reads_of {α : Type} {r : Load α} {p : α → State → Bool} (h : reads r p = true) : ∃ x u, r = .ok x u ∧ p x u = true := by
  cases r with
  | ok x u => exact ⟨x, u, rfl, h⟩
  | _ => simp [reads] at h

/-- A reading fails a check. -/
def failing {α : Type} (r : Load α) : Bool :=
  match r with
  | .fail .. => true
  | _ => false

/-- A reading that is found to fail does. -/
theorem failing_of {α : Type} {r : Load α} (h : failing r = true) : ∃ f u, r = .fail f u := by
  cases r with
  | fail f u => exact ⟨f, u, rfl⟩
  | _ => simp [failing] at h

/-- A reading waits. -/
def laters {α : Type} (r : Load α) : Bool :=
  match r with
  | .later .. => true
  | _ => false

/-- A reading that is found to wait does. -/
theorem laters_of {α : Type} {r : Load α} (h : laters r = true) : ∃ n u, r = .later n u := by
  cases r with
  | later n u => exact ⟨n, u, rfl⟩
  | _ => simp [laters] at h

/-- The page at 0x40000000 is under migration. -/
def migrating (s : State) : State := putNat s 0x10010 8 0x2000103F

/-- `QueueEvents`: descriptor writes of an enabled and of a disabled queue, and of one without firmware; a consumption, a ring that does not translate or is under migration, and a disabled queue. -/
theorem witness_queues : (∀ j < 8, next (exec .queueDescriptorWrite (queued3 [] (.queueDescriptorWrite 3 j 0x40003000))) (fun u => (u.queueAt 3).w 2 == (if j == 2 then 0x40003000 else 0x40002000)) = true)
    ∧ (queued3 [] .packageReset).boot.st = .running ∧ base.boot.st ≠ .running
    ∧ next (exec .queueDescriptorWrite (queued3 [] (.queueDescriptorWrite 3 0 0x0001000000000000))) (fun u => (u.queueAt 3).en == false && (u.queueAt 3).prv == false) = true
    ∧ next (exec .queueDescriptorWrite (queued3 [] (.queueDescriptorWrite 3 0 0x8001000000000000))) (fun u => (u.queueAt 3).en == true && (u.queueAt 3).prv == false) = true
    ∧ next (exec .queueDescriptorWrite (queued3 [] (.queueDescriptorWrite 3 0 0x8002000000000000))) (fun u => (u.queueAt 3).en == true && (u.queueAt 3).prv == true) = true
    ∧ ((ringed (.notify 3)).queueAt 3).en = true ∧ ((ringed (.notify 3)).queueAt 3).ctx = 1 ∧ (base.queueAt 3).en = false
    ∧ ((ringed (.notify 3)).queueAt 3).base + 64 * (((ringed (.notify 3)).queueAt 3).ridx % ((ringed (.notify 3)).queueAt 3).cap) = 0x40001000
    ∧ (∃ b r, (ringed (.notify 3)).vread 1 false 0x40001000 64 = .ok b r ∧ (decide (((wordsOf b).getD 0 0).getLsbD 63 = true ∧ ((wordsOf b).getD 0 0).getLsbD 62 = false)
        && comes (r.vwrite 1 false 0x40001000 (bytesOfNat 8 (((wordsOf b).getD 0 0).toNat % 2 ^ 63))) (fun _ _ => true)) = true)
    ∧ (∃ f t, ({ queued3 [] (.notify 3) with mem := [] } : State).vread 1 false 0x40001000 64 = .fault f t) ∧ (∃ w t, (migrating (ringed (.notify 3))).vread 1 false 0x40001000 64 = .wait w t)
    ∧ next (exec .notify { queued3 [] (.notify 3) with mem := [] }) (fun u => !(u.queueAt 3).en) = true
    ∧ next (exec .notify (migrating (ringed (.notify 3)))) (fun u => u.timers.contains (1024, .notify 3)) = true
    ∧ next (exec .notify (ringed (.notify 3))) (fun u => (u.queueAt 3).packets.map (fun p => p.typ) == [2] && (u.queueAt 3).ridx == 1) = true := by
  refine ⟨by decide +kernel, by decide +kernel, by decide +kernel, by decide +kernel, by decide +kernel, by decide +kernel, by decide +kernel, by decide +kernel, by decide +kernel, by decide +kernel,
    comes_of (by decide +kernel), faults_of (by decide +kernel), waits_of (by decide +kernel), by decide +kernel, by decide +kernel, by decide +kernel⟩

/-- A launch record that claims cluster 1, with its code at 0x40000000. -/
def rcd2 : Vector Word 16 := #v[0x8001000000000000, 0x40000000, 0, 0, 0x8000000002000001, 0, 0, 0, 2, 0, 0, 0, 0, 0, 0, 0]

/-- The record at 0x40004000, and a code image of one word at 0x40000000. -/
def recorded (s : State) : State := putNat (putNat (putNat (putNat (putNat s 0x20004000 8 0x8001000000000000) 0x20004008 8 0x40000000) 0x20004020 8 0x8000000002000001) 0x20004040 8 2)
  0x20000000 8 0x400000040

/-- A packet of this type is under way in queue 3, behind another or alone. -/
def packed (p : Packet) (e : Event) : State := recorded (queued3 [p] e)
def behind (p : Packet) (e : Event) : State := recorded (queued3 [{ p with idx := 9 }, p] e)

/-- `QueueEvents`: a fence at the head and one behind a packet, a launch, pool launch and pool write that pass, and records that do not pass, do not translate and wait. -/
theorem witness_packets : (packed (packet 4 0 0 0) .packageReset).packetAt 3 0 = some (packet 4 0 0 0)
    ∧ ((behind (packet 4 0 0 0) .packageReset).queueAt 3).packets.head? = some { packet 4 0 0 0 with idx := 9 }
    ∧ next (exec .fence (packed (packet 4 0 0 0) (.fence 3 0))) (fun u => (u.queueAt 3).packets.isEmpty && u.agenda.contains (.notify 3)) = true
    ∧ next (exec .fence (behind (packet 4 0 0 0) (.fence 3 0))) (fun u => u.timers.contains (1, .fence 3 0)) = true
    ∧ (∃ t, (packed (packet 1 0x40004000 0 0) (.launch 3 0)).cpWords 1 0x40004000 16 = .ok rcd2.toList t
        ∧ decide (rcdBad rcd2 = false ∧ rcdCTX rcd2 = 1 ∧ ctxEN (t.asctxAt 1) = true ∧ t.closed = false) = true)
    ∧ (∃ t, (packed (packet 1 0x40005000 0 0) (.launch 3 0)).cpWords 1 0x40005000 16 = .ok (List.replicate 16 0) t
        ∧ decide (rcdBad (Vector.replicate 16 0) = true ∧ t.packetAt 3 0 = some (packet 1 0x40005000 0 0)) = true)
    ∧ (∃ f t, (packed (packet 1 0x70005000 0 0) (.launch 3 0)).cpWords 1 0x70005000 16 = .fail f t)
    ∧ (∃ n t, (migrating (packed (packet 1 0x40004000 0 0) (.launch 3 0))).cpWords 1 0x40004000 16 = .later n t)
    ∧ Acceptable (packed (packet 2 9 0 0) .packageReset) ((packed (packet 2 9 0 0) .packageReset).poolAt 9) 1
    ∧ (packed (packet 2 9 0 0) .packageReset).poolArmed 9 = false
    ∧ (∃ t, (packed (packet 3 9 0x40004000 0) (.poolWrite 3 0)).cpWords 1 0x40004000 16 = .ok rcd2.toList t
        ∧ decide (t.packetAt 3 0 = some (packet 3 9 0x40004000 0) ∧ t.pool = (packed (packet 3 9 0x40004000 0) (.poolWrite 3 0)).pool) = true)
    ∧ next (exec .launch (packed (packet 1 0x40004000 0 0) (.launch 3 0))) (fun u => u.agenda.contains (.launchClaim 1) && u.nextLid == 2) = true
    ∧ next (exec .launch (packed (packet 1 0x40005000 0 0) (.launch 3 0))) (fun u => (u.queueAt 3).packets.isEmpty && u.nextLid == 1) = true
    ∧ next (exec .poolLaunch (packed (packet 2 9 0 0) (.poolLaunch 3 0))) (fun u => u.poolArmed 9 && u.agenda.contains (.launchClaim 1)) = true
    ∧ next (exec .poolWrite (packed (packet 3 9 0x40004000 0) (.poolWrite 3 0))) (fun u => rcdW (u.poolAt 9) 8 == 2 && (u.queueAt 3).packets.isEmpty) = true := by
  refine ⟨by decide +kernel, by decide +kernel, by decide +kernel, by decide +kernel, loads_of (by decide +kernel), loads_of (by decide +kernel), failing_of (by decide +kernel),
    laters_of (by decide +kernel), by unfold Acceptable; decide +kernel, by decide +kernel, loads_of (by decide +kernel), by decide +kernel, by decide +kernel, by decide +kernel, by decide +kernel⟩

/-- A packet with a signal and a result record, at 0x40001000 and 0x40002000. -/
def signalled : Packet := ⟨0, #v[0x8004000000000000, 0, 0x40001000, 0x40002000, 0, 0, 0, 0], true, none, none, 0⟩

/-- Packets with a result record alone and with a signal alone. -/
def recorder (va : Nat) : Packet := { packet 4 0 0 0 with w := (packet 4 0 0 0).w.set 3 (BitVec.ofNat 64 va) }
def signaller (va : Nat) : Packet := { packet 4 0 0 0 with w := (packet 4 0 0 0).w.set 2 (BitVec.ofNat 64 va) }

/-- The state in which the completion of a packet is written. -/
def finished (p : Packet) : State := finishing (packed p (.fence 3 0)) 3 p 0 0 0 0

/-- `QueueEvents`: a packet with a record and a signal, whose writes come to an end; and one whose record does not translate. -/
theorem witness_bothWrites : (signalled.sig = 0x40001000 ∧ signalled.res = 0x40002000)
    ∧ (∃ x a, (finished signalled).normalAt 1 0x40002000 = .ok x a ∧ (x && comes (a.vwrite 1 false 0x40002000
        (bytesOfNat 8 (0 * 2 ^ 56 + 0 * 2 ^ 48 + signalled.tag * 2 ^ 32 + 0) ++ bytesOfNat 8 0)) (fun _ t => comes (t.normalAt 1 0x40001000) (fun y b =>
          y && comes (b.vread 1 false 0x40001000 8) (fun w c => comes (c.vwrite 1 false 0x40001000 (bytesOfNat 8 ((natOfBytes w + (2 ^ 64 - 1)) % 2 ^ 64))) (fun _ _ => true))))) = true)
    ∧ (∃ f t, (finished (recorder 0x70002000)).normalAt 1 0x70002000 = .fault f t)
    ∧ next (exec .fence (packed (recorder 0x70002000) (.fence 3 0))) (fun u => (u.queueAt 3).packets.isEmpty && !(u.queueAt 3).en) = true := by
  refine ⟨by decide +kernel, comes_of (by decide +kernel), faults_of (by decide +kernel), by decide +kernel⟩

/-- `QueueEvents`: a completion with nothing to write, with a result record, with a signal, with one that does not translate, and with one that waits. -/
theorem witness_completions : (packet 4 0 0 0).res = 0 ∧ (packet 4 0 0 0).sig = 0
    ∧ ((recorder 0x40002000).sig = 0 ∧ (recorder 0x40002000).res = 0x40002000)
    ∧ (∃ x a, (finished (recorder 0x40002000)).normalAt 1 0x40002000 = .ok x a ∧ (x && comes (a.vwrite 1 false 0x40002000
        (bytesOfNat 8 (0 * 2 ^ 56 + 0 * 2 ^ 48 + (recorder 0x40002000).tag * 2 ^ 32 + 0) ++ bytesOfNat 8 0)) (fun _ _ => true)) = true)
    ∧ ((signaller 0x40001000).res = 0 ∧ (signaller 0x40001000).sig = 0x40001000)
    ∧ (∃ x a, (finished (signaller 0x40001000)).normalAt 1 0x40001000 = .ok x a ∧ (x && comes (a.vread 1 false 0x40001000 8) (fun b c =>
        comes (c.vwrite 1 false 0x40001000 (bytesOfNat 8 ((natOfBytes b + (2 ^ 64 - 1)) % 2 ^ 64))) (fun _ _ => true))) = true)
    ∧ (∃ f t, (finished (signaller 0x70001000)).normalAt 1 0x70001000 = .fault f t)
    ∧ (∃ w t, (migrating (finished (signaller 0x40001000))).report 1 (signaller 0x40001000) (0, 0, 0, 0) = .wait w t)
    ∧ next (exec .fence (packed (recorder 0x40002000) (.fence 3 0))) (fun u => (u.queueAt 3).packets.isEmpty && (u.queueAt 3).en) = true
    ∧ next (exec .fence (packed (signaller 0x40001000) (.fence 3 0))) (fun u => (u.queueAt 3).packets.isEmpty && (u.queueAt 3).en) = true
    ∧ next (exec .fence (packed (signaller 0x70001000) (.fence 3 0))) (fun u => (u.queueAt 3).packets.isEmpty && !(u.queueAt 3).en) = true
    ∧ next (exec .fence (migrating (packed (signaller 0x40001000) (.fence 3 0)))) (fun u => (u.queueAt 3).packets.map (fun r => r.tryAt) == [1024]) = true := by
  refine ⟨by decide +kernel, by decide +kernel, by decide +kernel, comes_of (by decide +kernel), by decide +kernel, comes_of (by decide +kernel), faults_of (by decide +kernel),
    waits_of (by decide +kernel), by decide +kernel, by decide +kernel, by decide +kernel, by decide +kernel⟩

/-- The record and signal of a packet that has both. -/
theorem test_signal : next (exec .fence (packed signalled (.fence 3 0))) (fun u => memNat u.mem 0x20001000 8 == 2 ^ 64 - 1 && (u.queueAt 3).packets.isEmpty) = true := by decide +kernel

/-- Launch 2 of that record in a state. -/
def launch2 (st : LaunchSt) : Launch := { launch1 with rcd := rcd2, st := st, queue := some (3, 0), rings := [], timetable := [] }
def launching (st : LaunchSt) (e : Event) : State := { packed { packet 1 0x40004000 0 0 with lid := some 2 } e with launches := [(2, launch2 st)], cores := [], tiles := [], domains := [] }

/-- Launch 2 without a claim. -/
def unclaimed (e : Event) : State := { launching .claiming e with launches := [(2, { launch2 .claiming with rcd := rcd2.set 8 0 })] }

/-- The claim goes on from a state: its stage table, code header and initial tasks are read (R223). -/
def startable (s : State) (l : Launch) : Bool :=
  reads (s.stageTable l) fun _ a => reads (a.codeHeader l) fun _ b => reads (b.initialTasks l) fun _ _ => true

/-- What the steps of a claim come to: they all pass, and the launch joins, or not; where it does, it starts. -/
def claimed (s : State) (l : Launch) (joins : Bool) : Bool :=
  reads (s.loadCode l) fun _ s1 => reads (s1.loadShapes l) fun _ s2 => reads (s2.stageTable l) fun _ s3 => reads (s3.loadCartoon 2 l) fun l1 s4 =>
    let m : State := { s4 with launches := s4.launches.put 2 { l1 with st := .loading } }
    m.joined 2 == joins && (!joins || startable m { l1 with st := .loading })

/-- A reading does not wait. -/
def prompt {α : Type} (r : Load α) : Bool :=
  match r with
  | .later .. => false
  | _ => true

/-- A reading that is found not to wait does not. -/
theorem prompt_of {α : Type} {r : Load α} (h : prompt r = true) : ∀ n t, r ≠ .later n t := by
  intro n t e
  rw [e] at h
  cases h

/-- Launch 2 beside launch 1, which holds cluster 1 as well; launch 2 with a partition word that is wrong; without a claim; with a cartoon whose page is under migration; and with a
domain over two packages. -/
def contested (e : Event) : State := { launching .claiming e with launches := [(1, { launch2 .running with queue := none }), (2, launch2 .claiming)] }
def badPart : Launch := { launch2 .claiming with rcd := rcd2.set 4 (-1) }
def recordOf (l : Launch) (e : Event) : State := { launching .claiming e with launches := [(2, l)] }
def bare : Launch := { launch2 .claiming with rcd := rcd2.set 8 0 }
def drawn : Launch := { launch2 .claiming with rcd := rcd2.set 2 0x40006000 }
def parted (e : Event) : State := { launching .claiming e with extents := (2, 1, 1), domains := [(1, { dom1 with ent := (ent true false true).set 3 0x1000000, lid := 2 })] }

/-- `LaunchEvents`: a launch whose claims and checks pass, from its claim and from its loading; and one that waits for its cartoon, for its claims, or for another package,
and one whose partition word is wrong. -/
theorem witness_launchClaim : (launch2 .claiming).saved = none ∧ (launching .claiming .packageReset).launches.find 2 = some (launch2 .claiming)
    ∧ (launching .claiming .packageReset).claimFault (launch2 .claiming) = none ∧ prompt ((launching .claiming .packageReset).cartoonChecked (launch2 .claiming)) = true
    ∧ (launching .claiming .packageReset).claimable 2 (launch2 .claiming) = true ∧ partBad (rcdW rcd2 4) = false
    ∧ claimed (recordOf bare .packageReset) bare true = true
    ∧ ((recordOf bare .packageReset).claimFault bare = none ∧ prompt ((recordOf bare .packageReset).cartoonChecked bare) = true ∧ (recordOf bare .packageReset).claimable 2 bare = true) ∧ (launching .loading .packageReset).joined 2 = true
    ∧ startable (launching .loading .packageReset) (launch2 .loading) = true
    ∧ ((migrating (recordOf drawn .packageReset)).claimFault drawn = none ∧ laters ((migrating (recordOf drawn .packageReset)).cartoonChecked drawn) = true)
    ∧ ((contested .packageReset).claimFault (launch2 .claiming) = none ∧ prompt ((contested .packageReset).cartoonChecked (launch2 .claiming)) = true
        ∧ (contested .packageReset).claimable 2 (launch2 .claiming) = false)
    ∧ ((recordOf badPart .packageReset).claimFault badPart = none ∧ prompt ((recordOf badPart .packageReset).cartoonChecked badPart) = true
        ∧ (recordOf badPart .packageReset).claimable 2 badPart = true ∧ partBad (rcdW badPart.rcd 4) = true)
    ∧ ((parted .packageReset).claimFault (launch2 .claiming) = none ∧ (parted .packageReset).claimable 2 (launch2 .claiming) = true
        ∧ claimed (parted .packageReset) (launch2 .claiming) false = true)
    ∧ next (exec .launchClaim (launching .loading (.launchClaim 2)))
        (fun u => (u.launches.find 2).any (fun l => l.st == .running) && (u.core 8).lid == some 2 && (u.core 15).lid == some 2 && (u.core 16).lid == none) = true
    ∧ next (exec .launchClaim (unclaimed (.launchClaim 2))) (fun u => (u.launches.find 2).any (fun l => l.st == .running)) = true := by
  refine ⟨rfl, ?_, ?_, ?_, ?_, ?_, ?_, ?_, ?_, ?_, ?_, ?_, ?_, ?_, ?_, ?_⟩ <;> decide +kernel

/-- Launch 2 alone, running; `e` happens. -/
def ending (e : Event) : State := launching .running e

/-- Launch 2 with an arrival to send when it ends. -/
def announcing : Launch := { launch2 .running with rcd := rcd2.set 13 0x40007000 }

/-- Launch 2 as it leaves on a fault, with the dump buffer of its queue at 0x40020000, whose page is under migration. -/
def leaving : Launch := { launch2 .leaving with home := 3, fault := some (.slot 32, { cause := 0x15 }, 0, 0, 0), status := some 0x0D }
def dumping (e : Event) : State :=
  migrating { ending e with launches := [(2, leaving)], queues := [(3, ⟨#v[0xC001000000000000, 0x40001000, 0x40002000, 0, 0x40020000, 64, 0, 0], [], 0, 0⟩)] }

/-- No record fits into no room. -/
theorem fit_nothing (l : List (List Byte)) : (fitRecords 0 l).1.flatten = [] := by
  induction l with
  | nil => rfl
  | cons r t ih =>
    simp only [fitRecords]
    split
    · next h => simpa [List.eq_nil_of_length_eq_zero (Nat.le_zero.mp h)] using ih
    · exact ih

/-- A result waits where its first part does. -/
theorem waits_bind {α β : Type} {r : Res α} {k : α → State → Res β} (h : waits r = true) : waits (r.bind k) = true := by
  cases r with
  | wait w u => rfl
  | _ => simp [waits] at h

/-- A dump of 64 bytes waits for that page. -/
theorem waits_write (b : List Byte) (h : b.length = 64) : waits ((dumping .packageReset).draw.1.vwrite ((dumping .packageReset).queueAt 3).ctx false
    (((dumping .packageReset).queueAt 3).w 4).toNat b) = true := by
  unfold State.vwrite State.vwriteOf
  simp only [h]
  exact waits_bind (by decide +kernel)

/-- `LaunchEvents`: a launch that may end, with an arrival that is sent and one that waits, the first and the second step of an end on a fault, and the start of a domain. -/
theorem witness_launchEnd : (ending .packageReset).mayEnd 2 (launch2 .running) = true ∧ (launch2 .running).fault = none ∧ (ending .packageReset).copiesDone 2 = true
    ∧ ((ending .packageReset).mayEnd 2 announcing = true ∧ (∃ t, (ending .packageReset).vaPhys 1 .atomic true 0x40007000 = .ok 0x20007000 t
        ∧ (!t.sealedAt (ctxASID (t.asctxAt 1)) 0x40007000) = true))
    ∧ (∃ w t, (migrating (ending .packageReset)).vaPhys 1 .atomic true 0x40007000 = .wait w t)
    ∧ (leaving.fault ≠ none ∧ (dumping .packageReset).copiesDone 2 = true ∧ ∃ w t, (dumping .packageReset).writeDump 2 leaving = .wait w t)
    ∧ next (exec .launchEnd (ending (.launchEnd 2))) (fun u => u.launches.isEmpty && (u.queueAt 3).packets.isEmpty) = true
    ∧ next (exec .launchFaultEnd (ending (.launchFaultEnd 2 (.slot 32) { cause := 0x15 })))
        (fun u => (u.launches.find 2).any (fun l => l.st == .leaving && l.status == some 0x0D) && u.agenda.contains (.launchFaultEnd 2 (.slot 32) { cause := 0x15 })) = true
    ∧ next (exec .launchFaultEnd { ending (.launchFaultEnd 2 (.slot 32) { cause := 0x15 }) with
          launches := [(2, { launch2 .leaving with fault := some (.slot 32, { cause := 0x15 }, 0, 0, 0), status := some 0x0D })] }) (fun u => u.launches.isEmpty) = true
    ∧ next (exec .domainStart (onEvent (withDom base (fun x => { x with started := false })) (.domainStart 1))) (fun u => (u.domains.find 1).any (fun x => x.started)) = true := by
  have w : ∃ w t, (dumping .packageReset).writeDump 2 leaving = .wait w t := by
    refine waits_of ?_
    unfold State.writeDump
    simp only [show leaving.fault = some (.slot 32, { cause := 0x15 }, 0, 0, 0) from rfl, show leaving.home = 3 from rfl]
    rw [if_neg (show ¬((((dumping .packageReset).queueAt 3).w 4).toNat = 0 ∨ (((dumping .packageReset).queueAt 3).w 5).toNat < 64) by decide +kernel)]
    exact waits_write _ (by
      rw [show (((dumping .packageReset).queueAt 3).w 5).toNat - 64 = 0 by decide +kernel, List.length_append, fit_nothing]
      simp [State.dumpHeader, bytesOfNat])
  refine ⟨?_, rfl, ?_, ⟨?_, gives_of ?_⟩, waits_of ?_, ⟨?_, ?_, w⟩, ?_, ?_, ?_, ?_⟩ <;> decide +kernel

/-- An end on a fault whose slot 32 still awaits an update, and an end in order with a tentative line left. -/
def unsettled : State :=
  { ending (.launchFaultEnd 2 (.slot 32) { cause := 0x15 }) with
    launches := [(2, leaving)], cores := [(8, { Core.reset with lid := some 2 })], slots := [(32, { Slot.reset with st := .waiting, wait := .stopped, out := 1 })] }
def tentatively : State :=
  { ending (.launchEnd 2) with domains := [(1, { dom1 with lid := 2 })], tent := [(64 * 0x200001 + 1, { dom := 1, bytes := List.replicate 256 0x5A, marks := 0, page := none })] }

/-- `LaunchEvents`: the end waits for the update; the tentative line is dropped. -/
theorem witness_endWaits : unsettled.launches.find 2 = some leaving ∧ unsettled.stopped 2 = false
    ∧ next (exec .launchFaultEnd unsettled) (fun u => u.timers.contains (1, .launchFaultEnd 2 (.slot 32) { cause := 0x15 })) = true
    ∧ tentatively.mayEnd 2 (launch2 .running) = true ∧ next (exec .launchEnd tentatively) (fun u => u.tent.isEmpty && u.launches.isEmpty && memRead u.mem 0x20000100 == 0) = true := by decide +kernel

/-- Tile 3 of launch 2 has stopped on a fault that the host serves; the packet answers with `a1`. -/
def answering (a1 : Nat) : State :=
  { packed (packet 5 2 a1 0) (.faultAnswer 3 0) with launches := [(2, launch2 .running)], cores := [], tiles := [(3, { Tile.reset with lid := some 2, wait := .stopped })], domains := [] }

/-- `LaunchEvents`: both answers to a fault. -/
theorem witness_faultAnswer : (answering 0).servedTiles 2 = [3] ∧ (answering 1).servedTiles 2 = [3]
    ∧ next (exec .faultAnswer (answering 0)) (fun u => (u.tile 3).wait == .none) = true
    ∧ next (exec .faultAnswer (answering 1)) (fun u => u.agenda.any (fun e =>
        match e with
        | .launchFaultEnd 2 (.tile 3) _ => true
        | _ => false)) = true := by decide +kernel

/-- A packet that names launch 2 and a save area of the size that it needs. -/
def areaPacket (t : Nat) : Packet := { packet t 2 0x40010000 0 with w := (packet t 2 0x40010000 0).w.set 5 (Config.saveSize 1 0) }

/-- What launch 2 has saved: core 8, whose slot 32 is suspended. -/
def saved2 : Saved := { cores := [(8, { Core.reset with lid := some 2 })], slots := [(32, { Slot.reset with st := .suspended })], tiles := [], domains := [], bytes := [], marks := [] }

/-- The switch of launch 2 out and in. -/
def switching (st : LaunchSt) (t : Nat) (e : Event) : State :=
  { packed (areaPacket t) e with launches := [(2, { launch2 st with saved := if st = .suspended then some saved2 else none })], cores := [], tiles := [], domains := [] }

/-- `LaunchEvents`: a launch that is switched out, in both of its steps, and one that is switched in. -/
theorem witness_switch : (Config.saveSize (launch2 .running).clusters.length (launch2 .running).tiles.length).toNat ≤ (areaPacket 6).a2
    ∧ (switching .running 6 (.suspend 3 0)).packetAt 3 0 = some (areaPacket 6) ∧ (areaPacket 6).a0 = 2 ∧ (switching .leaving 6 (.suspend 3 0)).switchReady 2 = true
    ∧ (switching .suspended 7 (.resume 3 0)).claimFault { launch2 .suspended with saved := some saved2 } = none
    ∧ (switching .suspended 7 (.resume 3 0)).claimable 2 { launch2 .suspended with saved := some saved2 } = true
    ∧ reads ((switching .suspended 7 (.resume 3 0)).relock { launch2 .suspended with saved := some saved2 }) (fun _ _ => true) = true
    ∧ (saved2.tiles.map (fun z => z.1)).Nodup ∧ (saved2.cores.map (fun z => z.1)).Nodup := by
  have h : (launch2 .running).clusters.length = 1 ∧ (launch2 .running).tiles.length = 0 := by decide +kernel
  refine ⟨by rw [h.1, h.2]; exact Nat.le_refl _, rfl, ?_, ?_, ?_, ?_, ?_, ?_, ?_⟩ <;> decide +kernel

/-! ### Witnesses: links, firmware, steps -/

/-- The words of a cross-package domain over packages 0 and 1. -/
def boxed : Vector Word 4 := (ent true false true).set 3 0x1000000

/-- Package 0 of a torus of two, with a cross-package domain 1. -/
def torus (f : Domain → Domain) : State :=
  { base with extents := (2, 1, 1), domains := [(1, f { dom1 with ent := boxed })], launches := [(1, { launch1 with st := .running })] }

/-- A flit from package 1 that is expected at port 0. -/
def flit (b : FlitBody) : Flit := { domn := 1, seq := 0, dst := 0, src := 1, slot := 0, ack := none, body := b }

/-- The flit comes in with this event. -/
def coming (e : Nat → Flit → Bool → Event) (b : FlitBody) (f : Domain → Domain) : State := onEvent (torus f) (e 0 (flit b) true)

/-- `LinkEvents`: a flit that is taken and its effect, for each type. -/
theorem witness_flits : (Taken (torus id) 0 (flit .idle) true ∧ (flit .idle).dst = (torus id).here ∧ ({ dom1 with ent := boxed } : Domain).xpkg = true ∧ ({ dom1 with ent := boxed } : Domain).inBox 1 = true)
    ∧ (torus id).domains.filter (fun z => z.2.xpkg && z.2.inBox 1) = [(1, { dom1 with ent := boxed })] ∧ entriesAgree boxed boxed = true ∧ entriesAgree (boxed.set 3 0) boxed = false
    ∧ next (exec .data (coming .data (.data 7 (dataPos 1 5 4 0 104) [1]) id)) (fun u => (u.domains.find 1).any (fun x => x.xdata == [(1, 7, dataPos 1 5 4 0 104, [1])])) = true
    ∧ next (exec .data (coming .data (.data 7 (dataPos 2 5 4 0 104) [1]) id)) (fun u => (u.domains.find 1).any (fun x => x.xdata == [])) = true
    ∧ next (exec .arrive (coming .arrive (.arrive 4 3 2) id)) (fun u => (u.domains.find 1).any (fun x => x.xarr == [(1, 4)] && x.xvote == 3)) = true
    ∧ next (exec .release (coming .release (.release 4 3 90) id)) (fun u => (u.domains.find 1).any (fun x => x.trel == some 90 && x.xresult == 3)) = true
    ∧ next (exec .hold (coming .hold (.hold 4 12) id)) (fun u => (u.domains.find 1).any (fun x => x.xheld == [(1, 12)])) = true
    ∧ next (exec .go (coming .go (.go 4 12 90) id)) (fun u => (u.domains.find 1).any (fun x => x.xgo == [(1, 12, 90)])) = true
    ∧ next (exec .time (coming .time (.time 1 none none) id)) (fun u => (u.linkPort 0).outq.toList.any (fun q => q.any (fun f => f.dst == 1))) = true
    ∧ next (exec .time (coming .time (.time 0 (some 8) (some 8)) id)) (fun u => u.slew == 8 && !u.skew) = true
    ∧ next (exec .time (coming .time (.time 0 (some 22) (some 0)) id)) (fun u => u.skew && u.time == 11) = true
    ∧ next (exec .alarm (coming .alarm (.alarm 2 0) id)) (fun u => u.lostPkgs.contains 1 && u.agenda.contains (.collectiveMemberLost 1)) = true
    ∧ next (exec .control { coming .control (.record boxed) id with launches := [(1, { launch1 with st := .loading })] }) (fun u => (u.domains.find 1).any (fun x => x.xrec == [1])) = true
    ∧ next (exec .control (coming .control (.ready 4 7) (fun x => { x with started := false }))) (fun u => (u.domains.find 1).any (fun x => x.xready == [1])) = true
    ∧ next (exec .update (coming .update (.update 0x20000010 8 1 false) id)) (fun u => u.agenda.contains (.transactionBarrierUpdate 0x20000010 8 1 false none)) = true := by
  unfold Taken
  refine ⟨?_, ?_, ?_, ?_, ?_, ?_, ?_, ?_, ?_, ?_, ?_, ?_, ?_, ?_, ?_, ?_, ?_⟩ <;> decide +kernel

/-- The header of R435: TYPE 2 in 63:60, DOMN 1 in 59:54, SEQ 3 in 53:42, DST 0x101 in 41:30, SRC 1 in 29:18, SLOT 5. -/
theorem test_flitHeader : flitHeader { domn := 1, seq := 3, dst := 0x101, src := 1, slot := 5, ack := some 4, body := .arrive 0 0 1 } = 0x20400C4040040005
    ∧ flitAck { domn := 1, seq := 3, dst := 0x101, src := 1, slot := 5, ack := some 4, body := .arrive 0 0 1 } = 0x80040000 := by decide +kernel

/-- Tile 3 here and tile 9 of package 1 contribute 64 bytes each: the other's come in one flit after their head. -/
def twoPackages (g : Nat) : Domain :=
  { dom1 with ent := boxed, colTiles := [3], xdata := [(1, g, dataPos 1 9 4 0 headByte, headBytes 1 0 xred0.desc[0]),
      (1, g, dataPos 1 9 4 0 0, xred0.stream)] }

/-- R397: the contributions of both packages, in rank order; tags that differ do not agree. -/
theorem test_contributions : (((torus id).setTile 3 { base.tile 3 with xreds := [xred0] }).contributions 1 (twoPackages 7) 0) = some [xred0, xred0]
    ∧ ((((torus id).setTile 3 { base.tile 3 with xreds := [xred0] }).contributions 1 (twoPackages 8) 0).map agree) = some false
    ∧ ((twoPackages 7).dropData 1 0).xdata = [] ∧ (twoPackages 7).headsIn 1 = [0] := by decide +kernel

/-- Port 0 keeps flits 4 and 5, has one to send, and its peer has asked 15 times for flit 4. -/
def keeping (e : Event) : State :=
  let f (n : Nat) : Flit := { flit .idle with seq := n, dst := 1, src := 0 }
  onEvent { torus id with ports := (torus id).ports.set 0 { LinkPort.reset with kept := [f 4, f 5], retries := (4, 15), outq := (Vector.replicate 4 []).set 2 [f 9] } } e

/-- `LinkEvents`: a replay at the limit, a slot, idle and unsequenced flits, a flit out of order, failures, lost lanes and a measurement. -/
theorem witness_ports : Taken (keeping .linkSlot) 0 (flit (.retry 4)) true ∧ (keeping .linkSlot).inTorus = true ∧ (torus id).timeParent = none
    ∧ ({ torus id with pos := (1, 0, 0) } : State).timeParent = some 0
    ∧ next (exec .retry (keeping (.retry 0 (flit (.retry 4)) true))) (fun u => (u.linkPort 0).resend.length == 2 && u.agenda.contains (.portFailure 0)) = true
    ∧ next (exec .linkSlot (keeping .linkSlot)) (fun u => (u.linkPort 0).kept.length == 3) = true
    ∧ next (exec .idleFlit (keeping (.idleFlit 0 { flit .idle with ack := some 4 } true))) (fun u => (u.linkPort 0).kept.map (fun f => f.seq) == [5]) = true
    ∧ next (exec .arrive (keeping (.arrive 0 { flit (.arrive 4 0 1) with seq := 3 } true))) (fun u => (u.linkPort 0).outq.toList.any (fun q => q.any (fun f => f.body == .retry 0))) = true
    ∧ next (exec .data (keeping (.data 0 { flit (.data 1 0 []) with dst := 1 } true))) (fun u => (u.linkPort 0).outq.toList.any (fun q => q.any (fun f => f.body == .data 1 0 []))) = true
    ∧ next (exec .reservedFlit (keeping (.reservedFlit 0 (flit (.reserved 14)) true))) (fun u => (u.linkPort 0).counted == 1) = true
    ∧ next (exec .portFailure (keeping (.portFailure 0))) (fun u => (u.linkPort 0).failed && (u.linkPort 1).outq.toList.any (fun q => q.any (fun f => f.dst == 1))) = true
    ∧ next (exec .laneLoss (keeping (.laneLoss 0 3))) (fun u => (u.uePort 0).lost == [3] && (u.uePort 0).training) = true
    ∧ next (exec .retrainingEnd (keeping (.retrainingEnd 0))) (fun u => !(u.uePort 0).training) = true
    ∧ next (exec .timeMeasurement { keeping .timeMeasurement with pos := (1, 0, 0) }) (fun u => u.ports.toList.any (fun p => p.outq.toList.any (fun q => q.any (fun f => f.body == .time 0 none none)))) = true := by
  unfold Taken
  refine ⟨?_, ?_, ?_, ?_, ?_, ?_, ?_, ?_, ?_, ?_, ?_, ?_, ?_, ?_⟩ <;> decide +kernel

/-- Port 0 is discarding, and expects flit 0. -/
def discards (e : Event) : State := onEvent { torus id with ports := (torus id).ports.set 0 { LinkPort.reset with discarding := true } } e

/-- `LinkEvents`: a port that discards asks again only where a CRC fails; an idle flit whose CRC fails; and a payload for a later superstep, which is kept. -/
theorem witness_discards : next (exec .arrive (discards (.arrive 0 { flit (.arrive 4 0 1) with seq := 3 } true))) (fun u => u == discards (.arrive 0 { flit (.arrive 4 0 1) with seq := 3 } true)) = true
    ∧ next (exec .arrive (discards (.arrive 0 (flit (.arrive 4 0 1)) false))) (fun u => (u.linkPort 0).outq.toList.any (fun q => q.any (fun f => f.body == .retry 0))) = true
    ∧ next (exec .idleFlit (keeping (.idleFlit 0 (flit .idle) false))) (fun u => (u.linkPort 0).outq.toList.any (fun q => q.any (fun f => f.body == .retry 0))) = true
    ∧ (∀ b ∈ [FlitBody.arrive 5 1 2, .hold 5 12, .go 5 12 90], stepOf b = some 5)
    ∧ next (exec .arrive (coming .arrive (.arrive 5 1 2) id)) (fun u => u.early == [(1, 1, .arrive 5 1 2)] && u.domains == (torus id).domains) = true
    ∧ next (exec .hold (coming .hold (.hold 3 12) id)) (fun u => u.early.isEmpty && u.domains == (torus id).domains) = true := by decide +kernel

/-- A torus whose cross-package domain has pentimento. -/
def protectedTorus (f : Domain → Domain) : State := torus (fun x => f { x with ent := boxed.set 0 (boxed[0] ||| 1#64 <<< 62) })

/-- `LinkEvents`: another package that is ready for a repeat asks for one here; alarms of a skew and of a lost link; a port whose partner has failed, and one whose partner takes over. -/
theorem witness_failures : (let s := onEvent (protectedTorus id) (.control 0 (flit (.ready 4 7)) true)
      (s.domains.find 1).any (fun x => x.pent && x.xpkg && x.started && !x.unprot && x.windows.isEmpty && x.inBox 1 && !x.saved) = true
      ∧ next (exec .control s) (fun u => (u.domains.find 1).any (fun x => x.frozen) && u.agenda.contains (.rollback 1)) = true)
    ∧ next (exec .alarm (coming .alarm (.alarm 1 0) id)) (fun u => bitsAt (u.tile 3).h.cause 0 8 == 0x11) = true
    ∧ ((torus id).usesLink { dom1 with ent := boxed } 1 1 = true ∧ (torus id).usesLink { dom1 with ent := boxed } 0 0 = true)
    ∧ next (exec .alarm (coming .alarm (.alarm 3 1) id)) (fun u => u.lostLinks.contains (1, 1) && bitsAt (u.tile 3).h.cause 0 8 == 0x16) = true
    ∧ (let s := keeping (.portFailure 0)
       next (exec .portFailure { s with ports := s.ports.set 1 { LinkPort.reset with failed := true } }) (fun u => u.lostLinks.contains (0, 0) && bitsAt (u.tile 3).h.cause 0 8 == 0x16) = true)
    ∧ next (exec .portFailure (keeping (.portFailure 0))) (fun u => (u.linkPort 1).kept.map (fun f => f.seq) == [0, 1] && (u.linkPort 1).nextSeq == 2) = true := by
  refine ⟨?_, ?_, ?_, ?_, ?_, ?_⟩ <;> decide +kernel

/-- `LinkEvents`: a cross-package release, and a phase clock that may go on. -/
theorem witness_clocks : (torus id).promotable 1 = true
    ∧ next (exec .crossPackageRelease (onEvent (torus (fun x => { x with trel := some 0 })) (.crossPackageRelease 1))) (fun u => (u.domains.find 1).any (fun x => x.trel == none)) = true
    ∧ next (exec .phaseClockResume (onEvent (torus (fun x => { x with xheld := [(1, 10)], xgo := [(1, 10, 0)] })) (.phaseClockResume 1))) (fun u => (u.domains.find 1).any (fun x => x.xheld == [])) = true := by decide +kernel

/-- Core 0 checks groups of slots that have failed once. -/
def checking (c : List Nat) (e : Event) : State := onEvent (onSlot0.setCore 0 { onSlot0.core 0 with checking := c }) e

/-- Slot 0 waits for its second run under the checker. -/
def rerun : State := onEvent (waiting (.retry 18)) (.checkerRetry 0)

/-- The image runs, and something happens; and a message of a steal is on its way. -/
def firm (e : Event) : State := onEvent { base with boot := { base.boot with st := .running } } e
def stealing : State := { base with agenda := [.stealRequest 0] }

/-- Core 9 of cluster 1 has stopped. -/
def stoppedCore (e : Event) : State := { firm e with cores := base.cores ++ [(9, { Core.reset with stopped := true })] }

/-- Lines of slices 0 and 1 that were written, and one that was not. -/
def written (e : Event) : State :=
  let z (d : Bool) : Line := { st := .ready, dirty := d, hostHeld := 0, asked := 0, pins := 0 }
  onEvent { base with lines := [(0, z true), (1, z true), (64, z false)], mem := memPut [] 0 (List.replicate 512 0x5A) } e

/-- `FirmwareEvents`: register writes, the cluster map and the power limit, with firmware and without; the checker; a recovery image; and a mesh router with and without a slice. -/
theorem witness_FirmwareEvents : base.Canonical ∧ base.boot.st = .rom ∧ (firm .packageReset).boot.st = .running ∧ (onSlot0.slot 0).st = .running ∧ ((waiting .idle).slot 0).st ≠ .running
    ∧ (rerun.slot 0).wait = .retry 18 ∧ (rerun.slot 0).st = .waiting ∧ (∀ t, ((waiting .idle).slot 0).wait ≠ .retry t)
    ∧ (base.launches.map (fun p => p.1)).Pairwise (· < ·) ∧ HoldsCluster 0 launch1 ∧ base.meshBusy = false ∧ stealing.meshBusy = true
    ∧ (∀ p ∈ (firm .packageReset).cores, p.1 / 8 = 127 → p.2.stopped = false) ∧ (∃ p ∈ (stoppedCore .packageReset).cores, p.1 / 8 = 1 ∧ p.2.stopped = true)
    ∧ next (exec .registerWrite (firm (.registerWrite 0x3000000007F8 0x8000000000000012))) (fun u => u.asctxAt 255 == 0x8000000000000012) = true
    ∧ (exec .registerWrite (firm (.registerWrite 0x300000010200 0)) = .fault (.deviceRegister 0x300000010200))
    ∧ next (exec .clmapWrite (firm (.clmapWrite 127 0xC0000005))) (fun u => clmapV (u.clmapAt 127) && clmapChg (u.clmapAt 127) && clmapPhys (u.clmapAt 127) == 127) = true
    ∧ next (exec .clmapWrite (stoppedCore (.clmapWrite 1 0x80000001))) (fun u => !clmapV (u.clmapAt 1)) = true
    ∧ next (exec .powerLimit (firm (.powerLimit 5))) (fun u => u.duty == 3 && u.throttle == 2) = true
    ∧ next (exec .powerLimit (onEvent base (.powerLimit 5))) (fun u => u.duty == base.duty) = true
    ∧ next (exec .checkerPass (checking [0, 1] (.checkerPass 0))) (fun u => (u.core 0).checking == [1]) = true
    ∧ next (exec .checkerMismatch (checking [1] (.checkerMismatch 0))) (fun u => (u.slot 0).wait == .retry 18 && (u.core 0).checking == [0, 1]) = true
    ∧ next (exec .checkerMismatch (checking [0] (.checkerMismatch 0))) (fun u => bitsAt (u.slot 0).h.cause 0 8 == 0x12 && (u.core 0).stopped
        && (u.launches.find 1).any (fun l => l.st == .leaving)) = true
    ∧ next (exec .checkerRetry rerun) (fun u => (u.slot 0).st == .running) = true
    ∧ next (exec .checkerRetry (onEvent (waiting .idle) (.checkerRetry 0))) (fun u => u.timers.contains (6, .checkerPass 0)) = true
    ∧ next (exec .recoveryImageLoad { onEvent base (.recoveryImageLoad [1]) with boot := { base.boot with st := .recovery } }) (fun u => u.boot.flash == [1]) = true
    ∧ next (exec .svnRaise { onEvent base .svnRaise with boot := { base.boot with st := .running, svn := 64 } }) (fun u => u.boot.svnFuse == 64) = true
    ∧ next (exec .spdmRequest (firm (.spdmRequest [7]))) (fun u => u.boot.response.isSome) = true := by
  unfold State.Canonical HoldsCluster
  refine ⟨?_, ?_, ?_, ?_, ?_, ?_, ?_, fun _ h => ?_, ?_, ?_, ?_, ?_, ?_, ?_, ?_, rfl, ?_, ?_, ?_, ?_, ?_, ?_, ?_, ?_, ?_, ?_, ?_, ?_⟩
  case refine_8 => cases h
  all_goals decide +kernel

/-- `FirmwareEvents`: a mesh router with a slice, whose written lines are lost, and one with a cluster; and the new tables, once the mesh is idle. -/
theorem witness_meshRouters : 0 ∉ base.routers ∧ sliceOf 0 = 0 ∧ sliceOf 256 ≠ 0
    ∧ next (exec .meshRouterFailure (written (.meshRouterFailure 0))) (fun u => u.closed && (u.launches.find 1).any (fun l => l.st == .leaving)
        && u.lines.map (fun p => p.1) == [1, 64]) = true
    ∧ next (exec .meshRouterFailure (onEvent base (.meshRouterFailure 1))) (fun u => u.rerouting && !clmapV (u.clmapAt 1)) = true
    ∧ next (exec .meshReroute (onEvent { base with agenda := [] } (.meshReroute 1))) (fun u => u.generation == base.generation + 1) = true
    ∧ next (exec .meshReroute (onEvent stealing (.meshReroute 1))) (fun u => u.timers.contains (1, .meshReroute 1)) = true := by decide +kernel

/-- Slot 0 has its turn, at a word of its code. -/
def turn (w : Nat) : State := putNat { onSlot0 with agenda := [], round := [.slot 0, .tile 3] } 0x200000000000 4 w

/-- At two words that form an issue group; and at the second of them, with a pre-emption due. -/
def pair : State := putNat (turn 0x04081280) 0x200000000004 4 0xAC104420
def secondTurn : State := pair.setSlot 0 { pair.slot 0 with second := some 4, due := [.preempt], h := { (pair.slot 0).h with pc := 4 } }

/-- `StepRunsDecoded`: an event, a word that decodes, one that does not, a PC past the code, an agent that may not issue, and both instructions of a group. -/
theorem witness_StepRunsDecoded : (turn 0x04081280).mayIssue (.slot 0) = true ∧ ((turn 0x04081280).slot 0).due = [] ∧ ((turn 0x04081280).slot 0).mayInterrupt = false
    ∧ WordAt (turnState (turn 0x04081280) (.slot 0) [.tile 3]) (.slot 0) 0x80 0x12 0x08 0x04 ∧ decodeBytes 0x80 0x12 0x08 0x04 = .ok (.add (.pred 0) 4 1 5)
    ∧ checkFault (.slot 0) ((turn 0x04081280).hart (.slot 0)) (.add (.pred 0) 4 1 5) = none ∧ (turn 0).mayIssue (.tile 5) = false
    ∧ next (step (turn 0x04081280)) (fun u => (u.slot 0).h.pc == 4 && u.round == [.tile 3]) = true ∧ next (step (turn 0)) (fun u => bitsAt (u.slot 0).h.cause 0 8 == 1) = true
    ∧ next (step { onSlot0 with boot := { base.boot with st := .running }, agenda := [.powerLimit 1] }) (fun u => u.duty == 1) = true
    ∧ (pair.groupSecond 0 = some 4 ∧ next (step pair) (fun u => (u.slot 0).second == some 4 && u.round == [.slot 0, .tile 3] && (u.slot 0).h.pc == 4) = true)
    ∧ (secondTurn.mayIssue (.slot 0) = true ∧ (secondTurn.slot 0).second = some (secondTurn.slot 0).h.pc
        ∧ WordAt (turnState secondTurn (.slot 0) [.tile 3]) (.slot 0) 0x20 0x44 0x10 0xAC ∧ (decodeBytes 0x20 0x44 0x10 0xAC).isOk = true
        ∧ next (step secondTurn) (fun u => (u.slot 0).h.pc == 8 && (u.slot 0).second == none && u.round == [.tile 3]) = true) := by
  unfold WordAt
  refine ⟨?_, ?_, ?_, ?_, rfl, ?_, ?_, ?_, ?_, ?_, ?_, ?_⟩ <;> decide +kernel

/-- `EncodeDecode`, `StepKeepsMemory`: an instruction that has a word and keeps the limits; and a state whose step goes on. -/
theorem witness_EncodeDecode : (fieldsOf (.bfx 6 4 8 3)).isSome = true ∧ wellFormed (.bfx 6 4 8 3) = true ∧ (decode 0x24C42030).isOk = true
    ∧ (turn 0x04081280).Canonical ∧ next (step (turn 0x04081280)) (fun _ => true) = true := by
  unfold State.Canonical; decide +kernel

/-! ### The form checks of WellFormed -/

/-- For each check of WellFormed an instruction that it refuses, beside one that it lets through. -/
theorem test_wellFormed_smoke : ([(.bfx 6 4 63 1, .bfx 6 4 63 0), (.bfi 6 4 1 63, .bfi 6 4 0 63), (.loop 0 true 1 0, .loop 0 true 1 1), (.loopr 0 true 3 0, .loopr 0 true 3 1),
      (.amoAdd .none .pkg true 5 6 7, .amoAdd .none .core true 5 6 7), (.krd 5 0x012, .krd 5 0x011), (.kwr 5 0x030, .kwr 5 0x02F), (.vcmp (.pred 0) .lo .f32 false 2 ⟨0, 1⟩ ⟨0, 2⟩, .vcmp (.pred 0) .lt .f32 false 2 ⟨0, 1⟩ ⟨0, 2⟩),
      (.vflip (.pred 0) .i32 false ⟨0, 1⟩ ⟨0, 2⟩, .vflip (.pred 0) .bf16 false ⟨0, 1⟩ ⟨0, 2⟩),
      (.vcvtNarrowFp (.pred 0) .f16 .ef false ⟨0, 17⟩ ⟨0, 2⟩ 1, .vcvtNarrowFp (.pred 0) .f16 .ef false ⟨1, 17⟩ ⟨0, 2⟩ 1),
      (.vcvtNarrowFp (.pred 0) .f16 .rne false ⟨0, 3⟩ ⟨0, 2⟩ 1, .vcvtNarrowFp (.pred 0) .f16 .rne false ⟨0, 3⟩ ⟨0, 2⟩ 0),
      (.vcvtNarrowInt (.pred 0) .i8 .rne true ⟨0, 3⟩ ⟨0, 2⟩ 0, .vcvtNarrowInt (.pred 0) .e2m1 .rne true ⟨0, 3⟩ ⟨0, 2⟩ 0),
      (.vcvtWiden (.pred 0) .i32 .ef ⟨0, 3⟩ ⟨0, 2⟩, .vcvtWiden (.pred 0) .i32 .rup ⟨0, 3⟩ ⟨0, 2⟩), (.vcvtWiden (.pred 0) .i8 .rup ⟨0, 3⟩ ⟨0, 2⟩, .vcvtWiden (.pred 0) .i8 .rne ⟨0, 3⟩ ⟨0, 2⟩),
      (.vcvtFxToFx128 (.pred 0) .rne ⟨0, 3⟩ ⟨0, 2⟩, .vcvtFxToFx128 (.pred 0) .rne ⟨0, 4⟩ ⟨0, 2⟩), (.vcvtFxToFx128 (.pred 0) .ef ⟨0, 4⟩ ⟨0, 2⟩, .vcvtFxToFx128 (.pred 0) .rup ⟨0, 4⟩ ⟨0, 2⟩),
      (.vcvtFxFromFx128 (.pred 0) ⟨0, 3⟩ ⟨0, 2⟩, .vcvtFxFromFx128 (.pred 0) ⟨0, 3⟩ ⟨0, 4⟩), (.tx 5 0 1, .tx 5 1 1)] : List (Instr × Instr)).all
    (fun p => !wellFormed p.1 && wellFormed p.2) = true := by decide +kernel

/-! ### Words bit by bit, one of each family -/

/-- Bits 31 to 26 hold the major, and the fields below follow as R249 gives them for each format. -/
theorem test_words_by_field : decodesTo
    [ (0b000001#6 ++ 0b0000#4 ++ 0b00100#5 ++ 0b00001#5 ++ 0b00101#5 ++ 0b0000000#7, .add (.pred 0) 4 1 5),
      (0b001101#6 ++ 0b00011#5 ++ 0b00100#5 ++ 0b0010#4 ++ 0b111111111101#12, .bcmpCc .lt 3 4 0xFFD),
      (0b001001#6 ++ 0b00110#5 ++ 0b00100#5 ++ 0b001000#6 ++ 0b000011#6 ++ 0b0000#4, .bfx 6 4 8 3),
      (0b010010#6 ++ 0b0011#4 ++ 0b00111#5 ++ 0b00101#5 ++ 0b110#3 ++ 0b000000010#9, .ldD (.pred 3) 7 5 2),
      (0b001111#6 ++ 0b00#2 ++ 0b1#1 ++ 0b00001000000#11 ++ 0b000000000101#12, .loop 0 true 0x40 5),
      (0b001110#6 ++ 0b00000#5 ++ 0b00000#5 ++ 0b00000#5 ++ 0b00111#5 ++ 0b000101#6, .trap 7),
      (0b100000#6 ++ 0b1001#4 ++ 0b00011#5 ++ 0b00000#5 ++ 0b00010#5 ++ 0b1#1 ++ 0b1#1 ++ 0b0#1 ++ 0b1#1 ++ 0b010#3, .vmulF32 (.stage 1) true ⟨1, 3⟩ ⟨1, 0⟩ ⟨0, 2⟩),
      (0b101011#6 ++ 0b0000#4 ++ 0b010#3 ++ 0b00001#5 ++ 0b00010#5 ++ 0b0#1 ++ 0b0#1 ++ 0b010#3 ++ 0b000#3 ++ 0b0#1, .vcmp (.pred 0) .lt .f32 false 2 ⟨0, 1⟩ ⟨0, 2⟩),
      (0b101111#6 ++ 0b0000#4 ++ 0b00110#5 ++ 0b00010#5 ++ 0b0001#4 ++ 0b0#1 ++ 0b0#1 ++ 0b1#1 ++ 0b100#3 ++ 0b10#2, .vcvtNarrowFp (.pred 0) .e4m3 .ef false ⟨0, 6⟩ ⟨1, 2⟩ 1),
      (0b101110#6 ++ 0b0000#4 ++ 0b00011#5 ++ 0b00001#5 ++ 0b00010#5 ++ 0b0#1 ++ 0b0#1 ++ 0b10#2 ++ 0b001#3, .vstx (.pred 0) .i32 ⟨0, 3⟩ 1 ⟨0, 2⟩),
      (0b110101#6 ++ 0b000011#6 ++ 0b00010#5 ++ 0b000000000000010#15, .tload 3 2 2),
      (0b110111#6 ++ 0b000101#6 ++ 0b0000#4 ++ 0b00111#5 ++ 0b00000000000#11, .tgang 5 0 7),
      (0b000110#6 ++ 0b00101#5 ++ 0b000000000000000000000#21, .li 5 0),
      (0b000111#6 ++ 0b00101#5 ++ 0b00011#5 ++ 0b0000000001111111#16, .lih 5 3 0x007F),
      (0b101100#6 ++ 0b0000#4 ++ 0b00100#5 ++ 0b00100#5 ++ 0b0#1 ++ 0b0#1 ++ 0b0#1 ++ 0b001#3 ++ 0b101#3 ++ 0b000#3, .vflip (.pred 0) .f16 false ⟨0, 4⟩ ⟨0, 4⟩),
      (0b110011#6 ++ 0b0000#4 ++ 0b01000#5 ++ 0b00010#5 ++ 0b01001#5 ++ 0b0#1 ++ 0b000#3 ++ 0b000#3, .vqMx (.pred 0) .mx32e4m3 .rne 8 ⟨0, 2⟩ 9),
      (0b110100#6 ++ 0b0000#4 ++ 0b00100#5 ++ 0b01000#5 ++ 0b01001#5 ++ 0b0#1 ++ 0b000#3 ++ 0b000#3, .vdqMx (.pred 0) .mx32e4m3 ⟨0, 4⟩ 8 9),
      (0b110110#6 ++ 0b000101#6 ++ 0b0100#4 ++ 0b0000000001000000#16, .tx 5 4 0x40) ] := rfl

/-! ### The spec's examples, one step each -/

/-- R270: `li`, then two `lih`, leave the palette base of core 1,023. -/
theorem test_li : decodesTo [(0x18A00000, .li 5 0), (0x1CA11FFC, .lih 5 1 0x1FFC), (0x1CA3007F, .lih 5 3 0x007F)]
    ∧ next (exec (.lih 5 1 0x1FFC) (setg onSlot0 5 0x007F00000000FFFF)) (fun u => u.rg (.slot 0) 5 == 0x007F00001FFCFFFF) = true := ⟨rfl, by decide +kernel⟩

/-- R271: `bfx g6, g4, 8, 4` reads 0xA from 0xA5C. -/
theorem test_bfx : next (exec (.bfx 6 4 8 3) (setg onSlot0 4 0xA5C)) (fun u => u.rg (.slot 0) 6 == 0xA) = true := by decide +kernel

/-- R289: `lam` 0xFFFF and `p2` 0x00F0 leave 0xFF0F. -/
theorem test_lbrkl : next (exec (.lbrkl 0 2) (onSlot0.setHart (.slot 0) { (onSlot0.slot 0).h.wp 2 0x00F0 with
      lam := 0xFFFF, lv := (onSlot0.slot 0).h.lv.set 0 { Level.zero with act := true } })) (fun u => (u.slot 0).h.lam == 0xFF0F) = true := by decide +kernel

/-- R317: 1.5 added to an FX128 word, and then -0.25. -/
theorem test_addfx : decode 0x54A63ECA = .ok (.amoAddfx .ar .pkg 5 6 7)
    ∧ next (exec (.amoAddfx .ar .pkg 5 6 7) (setg (setg onSlot0 6 0x007F000000020000) 7 0x180000000)) (fun u => memNat u.mem 0x200000020000 16 == 0x180000000) = true
    ∧ next (exec (.amoAddfx .ar .pkg 5 6 7) (putNat (setg (setg onSlot0 6 0x007F000000020000) 7 0xFFFFFFFFC0000000) 0x200000020000 16 0x180000000))
        (fun u => memNat u.mem 0x200000020000 16 == 0x140000000) = true := ⟨rfl, by decide +kernel, by decide +kernel⟩

/-- R345: a NaN compares as neither less nor equal; the other lanes compare as numbers. -/
theorem test_vcmp_nan : next (exec (.vcmp (.pred 0) .lt .f32 false 2 ⟨0, 8⟩ ⟨0, 3⟩) (vectors onSlot0)) (fun u => (u.slot 0).h.rp 2 == 0b0011#64) = true
    ∧ next (exec (.vcmp (.pred 0) .ne .f32 false 2 ⟨0, 8⟩ ⟨0, 8⟩) (vectors onSlot0)) (fun u => (u.slot 0).h.rp 2 == 0b0100#64) = true := by decide +kernel

/-- R357: 32 values whose largest is 3.375 take scale 0x78; the code 448 of the largest reads back as 3.5. -/
theorem test_vq : next (exec (.vqMx (.pred 0) .mx32e4m3 .rne 9 ⟨0, 2⟩ 9) (onSlot0.wv (.slot 0) ⟨0, 2⟩ (lanesOf [0x40580000])))
      (fun u => u.rg (.slot 0) 9 == 0x78 && elemAt (u.rv (.slot 0) ⟨0, 9⟩) 8 0 == 0x7E) = true
    ∧ next (exec (.vdqMx (.pred 0) .mx32e4m3 ⟨0, 4⟩ 9 9) (setg (onSlot0.wv (.slot 0) ⟨0, 9⟩ 0x7E) 9 0x78)) (fun u => elemAt (u.rv (.slot 0) ⟨0, 4⟩) 32 0 == 0x40600000) = true := by decide +kernel

/-- R156: a gather of 20 blocks that faults at block 13. -/
theorem test_gprog : gprogWord true 13 20 = 0x80000000000D0014 := by decide +kernel

/-- R370: a BF16 multiply of 64 by 64 by 64 takes 40 ck; an MX64-E4M3 by MX64-E2M1 multiply of 64 by 128 by 100 takes 56. -/
theorem test_matrixTime : (TKind.tmpl (BitVec.ofNat 256 (0x1220 + 64 * 2 ^ 32 + 64 * 2 ^ 48 + 64 * 2 ^ 64)) none).duration = 40
    ∧ (TKind.tmpl (BitVec.ofNat 256 (0x1CF0 + 64 * 2 ^ 32 + 128 * 2 ^ 48 + 100 * 2 ^ 64)) none).duration = 56 := by decide +kernel

/-- R395: the relays from tile 9 to tile 12, and from tile 7 to tile 120. -/
theorem test_laneDelay : laneDelay 9 12 = 6 ∧ laneDelay 7 120 = 52 := by decide +kernel

/-- R408: the trap entry of slot 2 of core 40. -/
theorem test_trapEntry : next (.next ((({ base with
        cores := [(40, { Core.reset with part := 0x8000000004000018, lid := some 1 })]
        slots := [(162, { Slot.reset with st := .running, h := { Hart.reset.wg 31 0x1234 with pc := 0x300, cause := 0x8020000000000000 } })] } : State)).raiseFault (.slot 162)
          { cause := 0x0A, synd := 3, lvl := 3, kind := 1, faddr := 0x123456010 }))
      (fun u => (u.slot 162).h.cause == 0xC02000003980000A && (u.slot 162).h.epc == 0x300 && (u.slot 162).h.pc == 0x800 && (u.slot 162).h.rg 31 == 0x007F00000003C080
        && memNat u.mem (u.palette 40 + 0x3C088) 8 == 0x123456010) = true := by decide +kernel

end Sys2Proof.Tests
end

section
/-!
PROOFS. What reset leaves (O60): the parts of `State.reset`, one lemma each, and the entries of the cluster map.
-/

namespace Sys2Proof.Machine

/-! ### Parts that no table of reset lists -/

@[simp] theorem State.slot_reset (i : SlotId) : State.reset.slot i = Slot.reset := rfl
@[simp] theorem State.tile_reset (t : TileId) : State.reset.tile t = Tile.reset := rfl
@[simp] theorem State.core_reset (c : CoreId) : State.reset.core c = Core.reset := rfl
@[simp] theorem State.asctxAt_reset (n : Nat) : State.reset.asctxAt n = 0 := rfl
@[simp] theorem State.queueAt_reset (q : Nat) : State.reset.queueAt q = Queue.reset := rfl
@[simp] theorem memRead_reset (a : Nat) : memRead State.reset.mem a = 0 := rfl

/-- Memory has its canonical form at reset (log 2). -/
theorem State.canonical_reset : State.reset.Canonical := Memory.wf_reset

/-! ### The register file of reset (R277; log 1) -/

@[simp] theorem Hart.rg_reset (r : Reg) : Hart.reset.rg r = 0 := by
  by_cases h : r = 0#5
  · rw [h, Hart.rg_zero]; rfl
  · simp [Hart.rg, h, Hart.reset]

@[simp] theorem Hart.level_reset (l : Nat) : Hart.reset.level l = Level.zero := by
  by_cases h : l < 4 <;> simp [Hart.level, Hart.reset, Vector.getD, h]

/-- The register file of reset is one that no instruction has written. -/
theorem Hart.fresh_reset : Claims.FreshHart Hart.reset :=
  ⟨Hart.rg_reset, rfl, rfl, rfl, rfl, rfl, rfl, rfl, rfl, rfl, Hart.level_reset⟩

/-! ### The cluster map of reset (R46) -/

/-- Entry n of reset as a number: bit V, and n in the low bits. -/
theorem State.clmapAt_reset_toNat {n : Nat} (h : n < 128) : (State.reset.clmapAt n).toNat = 2 ^ 31 + n := by
  have e : State.reset.clmapAt n = 0x80000000#32 ||| BitVec.ofNat 32 (n % 128) := rfl
  have small : n % 128 % 2 ^ 32 = n := by omega
  have low : n < 2 ^ 31 := by omega
  rw [e, BitVec.toNat_or, BitVec.toNat_ofNat (n % 128) 32, small]
  exact (Nat.two_pow_add_eq_or_of_lt low 1).symm

/-- The map of reset is the identity: each entry is valid, not changing, and names the physical cluster of its own number. -/
theorem State.clmapAt_reset_fields {n : Nat} (h : n < 128) :
    clmapV (State.reset.clmapAt n) = true ∧ clmapChg (State.reset.clmapAt n) = false ∧ clmapPhys (State.reset.clmapAt n) = n := by
  have e := State.clmapAt_reset_toNat h
  refine ⟨?valid, ?unchanging, ?names⟩
  case valid => rw [clmapV, beq_iff_eq, bitsAt, e]; omega
  case unchanging => rw [clmapChg, beq_eq_false_iff_ne, bitsAt, e]; omega
  case names => rw [clmapPhys, bitsAt, e]; omega

/-- Settles O60: a part that no table lists is the part of reset, its registers are fresh, and the cluster map is the identity. -/
theorem resetValues : Obligations.ResetValues := by
  unfold Obligations.ResetValues
  refine ⟨State.canonical_reset, memRead_reset, rfl, rfl, rfl, ?slots, ?tiles, ?cores, State.asctxAt_reset, ?queues,
    fun n h => State.clmapAt_reset_fields h⟩
  case slots => exact fun i => by rw [State.slot_reset]; exact ⟨Hart.fresh_reset, rfl, rfl, rfl, rfl, rfl⟩
  case tiles => exact fun t => by rw [State.tile_reset]; exact ⟨Hart.fresh_reset, rfl, rfl⟩
  case cores => exact fun c => by rw [State.core_reset]; exact ⟨rfl, rfl, rfl⟩
  case queues => exact fun q => by rw [State.queueAt_reset]; rfl

end Sys2Proof.Machine
end

section
/-!
PROOFS. Why the statements about the engines of tiles, promotions and rollbacks fail (O44, O46, O49). An abort puts back what its slot
took at a boundary in the same ck (R406), and `State.untake` writes back every byte that the slot's `Undo` lists. `Undone` lets
the 32 bytes of the trap frame differ, and no hypothesis says that an `Undo` lists no more than those. `State.noteUndo`, which
alone makes one, lists exactly 32, so a premise that bounds the length of `Undo.frame` would exclude what follows.
-/

namespace Sys2Proof.Machine
open Sys2Proof.Claims

/-! ### A speculative reader whose `Undo` lists a byte past its trap frame (R181, R406) -/

/-- The record of a task of ordered domain 1. -/
def readerTask : TaskRec :=
  { ts := 0, dom := 1, lc := false, pc := 0, tid := 0, budget := 0, args := Vector.replicate 4 0, lnk := false, cser := 0, ccore := 0 }

/-- What the reader's boundary event has replaced in ck 0: 33 bytes, where a trap frame has 32. -/
def longUndo : Undo := { ck := 0, frame := List.replicate 33 1, cause := 0, due := [], xfer := 0, uiq := [] }

/-- A slot with a speculative task whose read signature matches every block, so that any write aborts it. -/
def readerSlot : Slot :=
  { Slot.reset with st := .running, spec := .speculative, task := some readerTask, sigLo := BitVec.allOnes 1024, sigHi := BitVec.allOnes 1024
                    undo := some longUndo }

/-- The package after reset but for the reader on slot 0, tile 0, the tentative lines, the domains, and the event that happens. -/
def reading (x : Tile) (tent : Tbl Tent) (domains : Tbl Domain) (e : Event) : State :=
  { State.reset with slots := [(0, readerSlot)], tiles := [(0, x)], tent := tent, domains := domains, event := some e }

/-- The byte just past the trap frame of slot 0 after reset. -/
def pastFrame : Nat := framePlace State.reset 0 + 32

/-- The byte at a physical address in the next state, if there is one. -/
def byteAfter (o : Host.Outcome State Fault Refusal) (a : Nat) : Option Byte :=
  match o with
  | .next u => some (memRead u.mem a)
  | _ => none

section
variable (x : Tile) (tent : Tbl Tent) (domains : Tbl Domain) (e : Event)

theorem reading_canonical : (reading x tent domains e).Canonical := Memory.wf_reset

@[simp] theorem memRead_reading (a : Nat) : memRead (reading x tent domains e).mem a = 0 := rfl

theorem slot_reading_ne {j : SlotId} (h : j ≠ 0) : (reading x tent domains e).slot j = Slot.reset :=
  State.slot_setSlot_ne State.reset readerSlot h

/-- Slot 0 alone has an `Undo`, and its trap frame ends before the byte. -/
theorem not_undone_pastFrame : ¬ Undone (reading x tent domains e) pastFrame := by
  rintro ⟨j, u, hu, -, -, inside⟩
  have hj : j = 0 := Decidable.byContradiction fun hj => by
    rw [slot_reading_ne x tent domains e hj] at hu
    cases hu
  rw [hj] at inside
  exact Nat.lt_irrefl pastFrame inside

/-- A step from `reading` that leaves the byte past the frame nonzero has changed it. -/
theorem byte_changed {u : State} {i : Instr} (run : exec i (reading x tent domains e) = .next u)
    (aborted : byteAfter (exec i (reading x tent domains e)) pastFrame = some 1) :
    memRead u.mem pastFrame ≠ memRead (reading x tent domains e).mem pastFrame := by
  rw [run, byteAfter, Option.some.injEq] at aborted
  rw [aborted, memRead_reading]
  decide
end

/-! ### A landing (R69) -/

/-- A line that is to be written at the start of tile memory. -/
def heldLine : Landing :=
  { id := 0, seq := 0, kind := .fetch, pa := 0, off := 0, asked := 0, slotCk := none, pinned := false, page := none, held := some (0, 0)
    since := none, buf := false, own := false }

/-- The landing buffer of tile 0 writes that line, which the reader has read. -/
def landingRead : State := reading { Tile.reset with lands := [heldLine] } [] [] (.landingBufferWrite 0 0)

/-- The landing aborts the reader, which puts back the byte past its frame. -/
theorem landing_writes_pastFrame : byteAfter (exec .landingBufferWrite landingRead) pastFrame = some 1 := by decide +kernel

/-- Refutes O44: a landing aborts a speculative reader, whose `Undo` lists 33 bytes; the last of them changes a byte that is neither of the
line nor of the trap frame. -/
theorem not_timedEvents : ¬ Obligations.TimedEvents := by
  unfold Obligations.TimedEvents
  intro h
  obtain ⟨-, landings, -⟩ := h landingRead 0 (reading_canonical ..)
  obtain ⟨-, free⟩ := landings 0 heldLine 0 0 rfl rfl (.landingBufferWrite, .landingBufferWrite 0 0) (.head _) rfl
  obtain ⟨u, run, stored, -⟩ := free rfl (by simp [InStore, heldLine])
  refine byte_changed _ _ _ _ run landing_writes_pastFrame ?_
  rw [stored pastFrame (not_undone_pastFrame _ _ _ _)]
  exact if_neg (by decide)

/-! ### A promotion (R76) -/

/-- A tentative line of domain 1. -/
def tentZero : Tent := { dom := 1, bytes := List.replicate 256 0, marks := 0, page := none }

/-- The tentative line 0 of domain 1, which the reader has read, is promoted. -/
def promotionRead : State := reading Tile.reset [(1, tentZero)] [] (.promotion 1)

/-- The promotion aborts the reader, which puts back the byte past its frame. -/
theorem promotion_writes_pastFrame : byteAfter (exec .promotion promotionRead) pastFrame = some 1 := by decide +kernel

/-- Refutes O46: a promotion aborts a speculative reader, whose `Undo` lists 33 bytes; the last of them changes a byte that is neither of a
tentative line nor of the trap frame. -/
theorem not_barrierEvents : ¬ Obligations.BarrierEvents := by
  unfold Obligations.BarrierEvents
  intro h
  obtain ⟨-, -, promotes⟩ := h promotionRead 1 (Domain.new 0 (Vector.replicate 4 0) []) (reading_canonical ..)
  obtain ⟨u, run, -, others⟩ := promotes rfl (by decide +kernel) (by decide +kernel)
  exact byte_changed _ _ _ _ run promotion_writes_pastFrame (others pastFrame (not_undone_pastFrame _ _ _ _) (by decide +kernel))

/-! ### A rollback (R67, R422) -/

/-- The domain of tile 0 alone. -/
def tileZeroDomain : Domain := Domain.new 0 #v[0, 1, 0, 0] []

/-- Tile 0 has written the first line of its memory in this superstep, which the reader has read and a rollback restores. -/
def rollbackRead : State := reading { Tile.reset with shadow := [⟨false, 0, 0, 0⟩] } [] [(1, tileZeroDomain)] (.rollback 1)

theorem rollbackRead_shadowsSound : ShadowsSound rollbackRead tileZeroDomain := by unfold ShadowsSound; decide +kernel

/-- The one shadow line is not the line of the byte past the reader's frame. -/
theorem rollbackRead_shadow_elsewhere : ∀ t ∈ tileZeroDomain.tiles, ∀ z ∈ (rollbackRead.tile t).shadow, z.acc = false →
    tileBase t + 256 * z.line ≠ pastFrame / 256 * 256 := by decide +kernel

/-- The restored line aborts the reader, which puts back the byte past its frame. -/
theorem rollback_writes_pastFrame : byteAfter (exec .rollback rollbackRead) pastFrame = some 1 := by decide +kernel

/-- Refutes O49: the shadow line that a rollback writes back aborts a speculative reader, whose `Undo` lists 33 bytes; the last of them
changes a byte that is neither of a shadow line nor of the trap frame. -/
theorem not_recoveryEvents : ¬ Obligations.RecoveryEvents := by
  unfold Obligations.RecoveryEvents
  intro h
  obtain ⟨-, rolls⟩ := h rollbackRead 1 tileZeroDomain (reading_canonical ..) rfl
  obtain ⟨u, run, -, -, -, others⟩ := rolls rfl rfl (by decide +kernel) (by decide +kernel) rollbackRead_shadowsSound
  exact byte_changed _ _ _ _ run rollback_writes_pastFrame (others pastFrame (not_undone_pastFrame _ _ _ _) rollbackRead_shadow_elsewhere)

end Sys2Proof.Machine
end
